-- ==== Sys2Proof/Word.lean ====
section
/-! DEFINITION. The word types of the DN8064 (00_scope.md R6, 15_cores_datapath.md R418) and the T96 time value. -/

namespace Sys2Proof

/-- The native datapath word of 32 bits (R6). -/
abbrev Word := BitVec 32

/-- A byte of memory. -/
abbrev Byte := BitVec 8

/-- An FD32 accumulator of 72 bits (R418). -/
abbrev Acc := BitVec 72

/-- A time value. One unit is 2^-16 ns, the resolution of the T96 format (R6), so a T96 is one natural number;
its words are computed where software sees them. -/
abbrev T96 := Nat

/-- Units of T96 in one nanosecond. -/
def nsUnit : Nat := 65536

/-- Units of T96 in one second. -/
def secUnit : Nat := 1000000000 * nsUnit

end Sys2Proof
end

