-- ==== Sys2Proof/Machine/Codes.lean ====
section
/-! DEFINITION. The fault, notification and event codes of the cellar book (00_scope.md R23 and the code table of every
chapter), each with its record kind and its interrupt source where the table gives one. -/

namespace Sys2Proof.Machine

/-- Record kinds (R23, R413). A reply status (R559) writes no record and exists only in a mailbox reply. -/
inductive Kind where
  | fault | notification | event | reply
  deriving DecidableEq, Repr

/-- The KIND bits of a cellar record (R413). -/
def Kind.num : Kind → Nat
  | .fault => 0
  | .notification => 1
  | .event => 2
  | .reply => 2

/-- A code with its kind and the interrupt source of its table row. Rows whose source depends on a channel, a port or an
axis give the source of index 0. -/
structure Code where
  num : Nat
  kind : Kind
  irq : Option Nat
  deriving DecidableEq, Repr

/-- The code with the source of its row moved by `n`. -/
def Code.shift (c : Code) (n : Nat) : Code := { c with irq := c.irq.map (· + n) }

/-- The code without an interrupt source. -/
def Code.quiet (c : Code) : Code := { c with irq := none }


-- 03_paths_profiles.md
def Code.SEG_REFUSED : Code := ⟨0x1001, .fault, some 148⟩
def Code.POS_LOST : Code := ⟨0x1004, .fault, some 146⟩
def Code.SEG_JOINT_LIMIT : Code := ⟨0x1005, .fault, some 148⟩
def Code.QUEUE_DRY : Code := ⟨0x1006, .notification, some 147⟩
def Code.STEP_LAG : Code := ⟨0x1007, .notification, some 147⟩
def Code.SHAFT_LAG : Code := ⟨0x1010, .notification, some 145⟩
def Code.SHAFT_LAG_LIMIT : Code := ⟨0x1011, .fault, some 145⟩
def Code.SHAFT_HOLDOVER : Code := ⟨0x1012, .fault, some 145⟩

-- 05_cooperation.md
def Code.ZONE_WAIT : Code := ⟨0x1020, .notification, some 147⟩
def Code.ZONE_UNPLANNED : Code := ⟨0x1021, .notification, some 147⟩
def Code.ZONE_VIOLATION : Code := ⟨0x1022, .fault, some 148⟩
def Code.ZONE_RUN_LIMIT : Code := ⟨0x1023, .fault, some 148⟩
def Code.COUPLE_REFUSED : Code := ⟨0x1024, .fault, some 148⟩
def Code.PROX_STALL : Code := ⟨0x1025, .notification, some 147⟩
def Code.CLOSURE_LIMIT : Code := ⟨0x1026, .fault, some 148⟩

-- 03_paths_profiles.md
def Code.SEG_DONE : Code := ⟨0x1030, .event, some 128⟩
def Code.ARM_REST : Code := ⟨0x1031, .event, some 136⟩
def Code.AUX_DONE : Code := ⟨0x1032, .event, some 144⟩

-- 19_host_link.md
def Code.RESUME_STATE : Code := ⟨0x1040, .reply, none⟩
def Code.RESUME_STO : Code := ⟨0x1041, .reply, none⟩
def Code.RESUME_SOLUTION : Code := ⟨0x1042, .reply, none⟩
def Code.ABORT_FAULT : Code := ⟨0x1043, .reply, none⟩
def Code.SETPOS_MOVING : Code := ⟨0x1044, .reply, none⟩
def Code.NOT_STEPPER : Code := ⟨0x1045, .reply, none⟩

-- 06_loops.md
def Code.FB_LOST : Code := ⟨0x2001, .fault, some 96⟩
def Code.FOLLOW_ERR : Code := ⟨0x2002, .fault, some 96⟩
def Code.SP_LOST : Code := ⟨0x2003, .fault, some 96⟩
def Code.FB_STALE : Code := ⟨0x2004, .notification, some 97⟩
def Code.OUT_SAT : Code := ⟨0x2005, .notification, some 98⟩
def Code.WIN_CHANGE : Code := ⟨0x2010, .event, some 99⟩

-- 19_host_link.md
def Code.CLEAR_MOVING : Code := ⟨0x2020, .reply, none⟩
def Code.CLEAR_STALE : Code := ⟨0x2021, .reply, none⟩

-- 04_solver.md
def Code.DELTA_REFUSED : Code := ⟨0x3001, .fault, some 166⟩
def Code.PIV_TINY : Code := ⟨0x3002, .notification, some 163⟩
def Code.BOUNDED : Code := ⟨0x3003, .notification, some 164⟩
def Code.SOLVER_STARVED : Code := ⟨0x3004, .fault, some 168⟩
def Code.DEADLINE_MISS : Code := ⟨0x3005, .notification, some 162⟩
def Code.RES_FAIL : Code := ⟨0x3006, .notification, some 165⟩
def Code.PROD_LATE : Code := ⟨0x3007, .fault, some 167⟩
def Code.HOST_DELTA_DROP : Code := ⟨0x3008, .fault, some 166⟩
def Code.BATCH_CLOSE : Code := ⟨0x3010, .event, none⟩

-- 07_feedback.md
def Code.LINE_COUNT : Code := ⟨0x4001, .fault, some 193⟩
def Code.QUAD_ERR : Code := ⟨0x4002, .fault, some 193⟩
def Code.SSI_ERR : Code := ⟨0x4003, .fault, some 193⟩
def Code.INDEX_SET : Code := ⟨0x4005, .event, some 195⟩
def Code.REF_LOST : Code := ⟨0x4007, .fault, some 193⟩
def Code.PO_OVERRUN : Code := ⟨0x4008, .fault, none⟩
def Code.AI_RANGE : Code := ⟨0x4009, .fault, none⟩
def Code.AI_CM : Code := ⟨0x400A, .fault, none⟩

-- 08_safety_plane.md
def Code.CH_DISCREP : Code := ⟨0x5001, .fault, some 291⟩
def Code.CH_LOST : Code := ⟨0x5002, .fault, some 291⟩
def Code.PAIR_DISCREP : Code := ⟨0x5003, .fault, some 291⟩
def Code.RAMP_VIOL : Code := ⟨0x5004, .fault, some 291⟩
def Code.SOS_VIOL : Code := ⟨0x5005, .fault, some 291⟩
def Code.SLS_VIOL : Code := ⟨0x5006, .fault, some 291⟩
def Code.POS_STALE : Code := ⟨0x5007, .fault, some 291⟩
def Code.SS1_TMAX : Code := ⟨0x5008, .event, none⟩
def Code.EDM_DROP : Code := ⟨0x5010, .fault, some 294⟩
def Code.EDM_IMPLAUS : Code := ⟨0x5011, .fault, some 291⟩
def Code.EDM_PRECHECK : Code := ⟨0x5012, .fault, some 291⟩
def Code.DEGR_ENTER : Code := ⟨0x5020, .notification, some 290⟩
def Code.DEGR_EXPIRED : Code := ⟨0x5021, .fault, some 290⟩
def Code.SECOND_FAULT : Code := ⟨0x5022, .fault, some 290⟩
def Code.DEGR_LEAVE : Code := ⟨0x5023, .notification, some 290⟩
def Code.SAF_LOAD_MISMATCH : Code := ⟨0x5030, .fault, some 291⟩

-- 09_separation.md
def Code.SSM_STOP : Code := ⟨0x5040, .event, some 296⟩
def Code.SEP_INTRUSION : Code := ⟨0x5041, .fault, some 297⟩
def Code.SENSOR_STALE : Code := ⟨0x5042, .fault, some 298⟩
def Code.SENSOR_REJECT : Code := ⟨0x5043, .fault, some 299⟩
def Code.SENSOR_FAULT : Code := ⟨0x5044, .fault, some 300⟩
def Code.SENSOR_VALID : Code := ⟨0x5045, .notification, some 298⟩
def Code.SSM_CLEAR : Code := ⟨0x5046, .event, some 296⟩

-- 10_planes_racking.md
def Code.OUT_MISMATCH : Code := ⟨0x6001, .notification, some 320⟩
def Code.TASTE_FAIL : Code := ⟨0x6002, .fault, some 321⟩
def Code.TAKEOVER : Code := ⟨0x6003, .event, some 322⟩
def Code.MISMATCH_UNRES : Code := ⟨0x6004, .fault, some 323⟩
def Code.PLANE_SILENT : Code := ⟨0x6005, .fault, some 321⟩
def Code.RACK_FAIL : Code := ⟨0x6006, .fault, some 324⟩
def Code.BOTH_FAIL : Code := ⟨0x6007, .fault, some 325⟩
def Code.REJOIN_FAIL : Code := ⟨0x6008, .fault, some 326⟩
def Code.PLANE_RETIRED : Code := ⟨0x6009, .fault, some 326⟩
def Code.REJOINED : Code := ⟨0x600A, .event, some 327⟩
def Code.REVERT : Code := ⟨0x600B, .event, some 328⟩
def Code.RIDDLE_START : Code := ⟨0x600C, .event, some 329⟩
def Code.RIDDLE_END : Code := ⟨0x600D, .event, some 329⟩
def Code.RIDDLE_DEFER : Code := ⟨0x600E, .notification, some 330⟩
def Code.ROLE_CONFLICT : Code := ⟨0x6010, .fault, some 331⟩
def Code.ARB_LINK : Code := ⟨0x6011, .fault, some 331⟩

-- 11_time_bases.md
def Code.HOLDOVER_ENTER : Code := ⟨0x7001, .notification, some 64⟩
def Code.HOLDOVER_LEAVE : Code := ⟨0x7002, .notification, some 64⟩
def Code.BASE_VALID : Code := ⟨0x7003, .event, some 64⟩
def Code.BASE_STEP : Code := ⟨0x7004, .event, some 84⟩
def Code.STEP_REFUSED : Code := ⟨0x7005, .fault, none⟩
def Code.RATE_CLAMP : Code := ⟨0x7006, .notification, some 85⟩
def Code.OFFSET_LARGE : Code := ⟨0x7007, .notification, some 85⟩
def Code.TEV_LATE : Code := ⟨0x7008, .fault, some 72⟩
def Code.TEV_SKIPPED : Code := ⟨0x7009, .notification, some 72⟩
def Code.SYNC_LOST : Code := ⟨0x7010, .fault, some 80⟩
def Code.PTP_STAMP_OVF : Code := ⟨0x7011, .fault, some 82⟩
def Code.INIT_REFUSED : Code := ⟨0x7012, .fault, none⟩
def Code.TB3_RESTART : Code := ⟨0x7020, .event, none⟩
def Code.TIME_MAP : Code := ⟨0x7021, .event, none⟩

-- 12_lockstitch_schedule.md
def Code.SLOT_EMPTY : Code := ⟨0x8001, .notification, some 16⟩
def Code.BOUNDARY_VIOL : Code := ⟨0x8002, .fault, some 17⟩
def Code.FRAME_ERR : Code := ⟨0x8003, .fault, some 18⟩
def Code.GUARD_MUTE : Code := ⟨0x8004, .fault, some 19⟩
def Code.SCHED_MISMATCH : Code := ⟨0x8005, .fault, some 20⟩
def Code.NODE_CF_MISS : Code := ⟨0x8006, .notification, some 21⟩
def Code.COPY_DIFF : Code := ⟨0x8007, .notification, some 21⟩
def Code.DELAY_EXCEEDED : Code := ⟨0x8008, .fault, some 20⟩

-- 13_lockstitch_startup_healing.md
def Code.RING_WRAP : Code := ⟨0x8010, .fault, some 23⟩
def Code.RANK_CONFLICT : Code := ⟨0x8011, .fault, some 27⟩
def Code.PARTITION : Code := ⟨0x8012, .fault, some 24⟩
def Code.NODE_ABSENT : Code := ⟨0x8013, .fault, some 26⟩
def Code.NODE_ADMITTED : Code := ⟨0x8014, .event, some 25⟩
def Code.NODE_RETURNED : Code := ⟨0x8015, .event, some 25⟩
def Code.CLAIM_COLLISION : Code := ⟨0x8016, .notification, some 27⟩
def Code.RING_UNWRAP : Code := ⟨0x8017, .event, some 23⟩
def Code.LEADER_LOST : Code := ⟨0x8018, .fault, some 24⟩
def Code.RING_OPEN : Code := ⟨0x8019, .fault, some 27⟩

-- 14_capture_cellar_book.md
def Code.CAP_ARM_REFUSED : Code := ⟨0x9001, .fault, some 273⟩
def Code.CAP_OVERWRITE : Code := ⟨0x9002, .notification, some 273⟩
def Code.TRG_CAL_FAIL : Code := ⟨0x9003, .fault, some 273⟩
def Code.TRG_UNKNOWN : Code := ⟨0x9004, .notification, some 273⟩
def Code.TRG_LINE_FAULT : Code := ⟨0x9005, .fault, some 273⟩
def Code.CEL_OVERWRITE : Code := ⟨0x9006, .notification, some 274⟩
def Code.CELLAR_LOSS : Code := ⟨0x9010, .fault, some 274⟩

-- 15_cores_datapath.md R432
def Code.CORE_ILLEGAL : Code := ⟨0xA001, .fault, none⟩
def Code.CORE_BUS : Code := ⟨0xA002, .fault, none⟩
def Code.CORE_ALIGN : Code := ⟨0xA003, .fault, none⟩
def Code.CORE_FTAP_REGION : Code := ⟨0xA004, .fault, none⟩
def Code.CORE_WRITE_LOST : Code := ⟨0xA005, .fault, none⟩
def Code.CORE_TRAP : Code := ⟨0xA006, .fault, none⟩

-- 15_cores_datapath.md R434
def Code.CORE_HALT : Code := ⟨0xA00F, .fault, none⟩

-- 16_dispatch_interrupts.md
def Code.ACT_OVERFLOW : Code := ⟨0xA010, .fault, some 14⟩
def Code.POST_DROP : Code := ⟨0xA011, .fault, some 14⟩
def Code.POST_TIMEOUT : Code := ⟨0xA012, .fault, some 14⟩
def Code.MSG_REFUSED : Code := ⟨0xA013, .fault, some 14⟩
def Code.TAKE_ERR : Code := ⟨0xA014, .notification, some 14⟩
def Code.NO_TARGET : Code := ⟨0xA015, .notification, some 14⟩
def Code.TASK_START : Code := ⟨0xA020, .event, none⟩

-- 17_memory.md
def Code.BUS_REGION : Code := ⟨0xB001, .fault, some 353⟩
def Code.BANK_OFF : Code := ⟨0xB002, .fault, some 353⟩
def Code.WRITE_PROTECT : Code := ⟨0xB003, .fault, some 353⟩
def Code.MISALIGNED_ATOMIC : Code := ⟨0xB004, .fault, some 353⟩
def Code.WRITE_LOST : Code := ⟨0xB005, .notification, some 352⟩
def Code.BANK_LOCKED : Code := ⟨0xB006, .notification, some 358⟩
def Code.SRAM_CE : Code := ⟨0xB010, .notification, some 354⟩
def Code.SRAM_UE : Code := ⟨0xB011, .fault, some 355⟩
def Code.DRAM_CE : Code := ⟨0xB020, .notification, some 356⟩
def Code.DRAM_UE : Code := ⟨0xB021, .fault, some 357⟩

-- 18_pace_power.md
def Code.PACE_FAULT : Code := ⟨0xC001, .fault, some 384⟩
def Code.PACE_LOW : Code := ⟨0xC002, .notification, some 385⟩
def Code.AVS_FAULT : Code := ⟨0xC003, .fault, some 386⟩
def Code.TJ_WARN : Code := ⟨0xC004, .notification, some 387⟩
def Code.TJ_HIGH : Code := ⟨0xC005, .fault, some 387⟩

-- 01_cell_cycle.md R41
def Code.PHASE_OVERRUN : Code := ⟨0xC010, .fault, some 390⟩

-- 18_pace_power.md
def Code.LADDER : Code := ⟨0xC020, .event, some 388⟩
def Code.LADDER_REFUSED : Code := ⟨0xC021, .fault, some 389⟩
def Code.WAKE : Code := ⟨0xC022, .event, some 391⟩

-- 02_pattern_startup.md
def Code.PAT_MAGIC : Code := ⟨0xD001, .fault, none⟩
def Code.PAT_FORMAT : Code := ⟨0xD002, .fault, none⟩
def Code.PAT_DEVICE : Code := ⟨0xD003, .fault, none⟩
def Code.PAT_KEY : Code := ⟨0xD004, .fault, none⟩
def Code.PAT_SIG : Code := ⟨0xD005, .fault, none⟩
def Code.PAT_DIGEST : Code := ⟨0xD006, .fault, none⟩
def Code.PAT_SAFETY_SIG : Code := ⟨0xD007, .fault, none⟩
def Code.PAT_GEN : Code := ⟨0xD008, .fault, none⟩
def Code.PRESENCE_REQUIRED : Code := ⟨0xD009, .fault, none⟩
def Code.PAT_SECTION : Code := ⟨0xD00A, .fault, none⟩
def Code.PAT_BUDGET : Code := ⟨0xD00B, .fault, none⟩
def Code.PAT_CAPACITY : Code := ⟨0xD00C, .fault, none⟩
def Code.PAT_AXIS : Code := ⟨0xD00D, .fault, none⟩
def Code.PAT_RANK : Code := ⟨0xD00E, .fault, none⟩
def Code.PAT_QRANGE : Code := ⟨0xD00F, .fault, none⟩
def Code.PAT_CAPTURE : Code := ⟨0xD010, .fault, none⟩
def Code.PAT_ZONE : Code := ⟨0xD011, .fault, none⟩
def Code.PAT_FLASH : Code := ⟨0xD012, .fault, none⟩
def Code.PAT_NODE : Code := ⟨0xD013, .fault, none⟩
def Code.PAT_NONE : Code := ⟨0xD014, .fault, none⟩
def Code.PAT_BUSY : Code := ⟨0xD015, .fault, none⟩
def Code.PAT_FALLBACK : Code := ⟨0xD016, .notification, none⟩

-- 19_host_link.md
def Code.ACT_NOT_SAFE : Code := ⟨0xD017, .reply, none⟩
def Code.ACT_LADDER : Code := ⟨0xD018, .reply, none⟩
def Code.MBX_FORMAT : Code := ⟨0xD020, .fault, none⟩
def Code.MBX_NOT_READY : Code := ⟨0xD021, .notification, none⟩
def Code.MBX_VERSION : Code := ⟨0xD022, .fault, none⟩
def Code.MBX_QUEUE : Code := ⟨0xD023, .fault, none⟩
def Code.WIN_WRITE_REFUSED : Code := ⟨0xD024, .fault, none⟩
def Code.DBG_REFUSED : Code := ⟨0xD025, .fault, none⟩
def Code.DBG_UNLOCKED : Code := ⟨0xD026, .event, some 418⟩
def Code.PCIE_LINK_DOWN : Code := ⟨0xD027, .fault, some 417⟩
def Code.HOST_TIMEOUT : Code := ⟨0xD028, .fault, none⟩

-- 02_pattern_startup.md R70
def Code.STAGE : Code := ⟨0xD030, .event, none⟩

-- 14_capture_cellar_book.md R413
def Code.HOST_NOTE : Code := ⟨0xD031, .event, none⟩

-- 07_feedback.md R209
def Code.FB_OPEN : Code := ⟨0xE001, .fault, some 192⟩
def Code.FB_SHORT_LL : Code := ⟨0xE002, .fault, some 192⟩
def Code.FB_SHORT_HI : Code := ⟨0xE003, .fault, some 192⟩
def Code.FB_SHORT_LO : Code := ⟨0xE004, .fault, some 192⟩

-- 07_feedback.md R210
def Code.FB_REVERSED : Code := ⟨0xE005, .fault, some 192⟩

-- 07_feedback.md R209
def Code.SSI_CLK : Code := ⟨0xE006, .fault, some 192⟩

-- 07_feedback.md
def Code.PO_SHORT : Code := ⟨0xE007, .fault, none⟩

-- 08_safety_plane.md R229
def Code.SI_CROSS : Code := ⟨0xE010, .fault, some 292⟩
def Code.SI_SHORT_HI : Code := ⟨0xE011, .fault, some 292⟩

-- 08_safety_plane.md R231
def Code.SO_SHORT_HI : Code := ⟨0xE012, .fault, some 292⟩
def Code.SO_SHORT_LO : Code := ⟨0xE013, .fault, some 292⟩
def Code.SO_CROSS : Code := ⟨0xE014, .fault, some 292⟩
def Code.VFIELD_LOW : Code := ⟨0xE015, .fault, some 292⟩

-- 08_safety_plane.md R229
def Code.TP_FAULT : Code := ⟨0xE016, .fault, some 292⟩

-- 20_package_electrical.md R545
def Code.VFIELD_REV : Code := ⟨0xE017, .fault, some 292⟩
def Code.VFIELD_HIGH : Code := ⟨0xE018, .fault, some 292⟩

-- 02_pattern_startup.md R57
def Code.PRES_DISAGREE : Code := ⟨0xE020, .fault, none⟩

end Sys2Proof.Machine
end

