-- ==== Sys2Proof/Config.lean ====
section
/-! DEFINITION. What the spec leaves open: the free values of the model. Each is a constant without a body, so that nothing
can be proved of its value; a statement holds for every value of it. Each docstring names the point the spec leaves open.
The argument `k` is the index of `Dev.takeFree` (log entry 1). -/

namespace Sys2Proof

/-! ### Values outside their format -/

/-- What a field or word of `w` bits holds where a rule gives the value `x` outside it and states neither saturation nor wrap
(log entry 135). -/
opaque Config.beyond (w : Nat) (x : Int) : BitVec w

/-! ### Paths (03_paths_profiles.md): the geometry of curved paths -/

/-- The start tangent of a SPLINE with no segment before it, from its start and end (R79). -/
opaque Config.splineStart (start fin : List Int) : List Int
/-- Velocity feed-forward of a joint in Cartesian motion or inside a blend, as V32 (R32). -/
opaque Config.velFf (k axis : Nat) : Int
/-- Torque feed-forward of a joint from the arm's dynamics, as T32 (R32). -/
opaque Config.trqFf (k axis : Nat) : Int
/-! ### Cooperation (05_cooperation.md) -/

/-- Code of the cellar records of a zone grant and of a release, less 1: R150 has them written and no code table names one, and by R23
the code is not 0x0000 and not of area 0xF (log entry 124). -/
opaque Config.zoneCode (release : Bool) : Fin 0xEFFF

/-! ### Time (11_time_bases.md) -/

/-- Rate of the ring servo of a following controller after a sync frame: R313 names the servo and gives no law. -/
opaque Config.ringServo (k : Nat) : Int

/-- Bit 2 FAULT_ACK of a drive command record (R344): the spec names the bit and does not say when it is 1. -/
opaque Config.faultAck (k axis : Nat) : Bool

/-- Field `i` of the command record of an axis in a cycle frame that leaves while no plane is selected (R295): the frame carries STO, and the
spec gives its data to neither plane (log entry 198). -/
opaque Config.noPlane (k axis i : Nat) : Int

/-- The word `idx` of a word area that neither a selected plane's core placed in this cycle (R344, R295; log entry 198). -/
opaque Config.idleWord (k port idx : Nat) : BitVec 32

/-- The word that carries a position (P64) to another controller, and the position that such a word stands for: R180 puts the value of a
position loop into one word of 32 bits and gives no format for it (log entry 199). -/
opaque Config.ringWord (pos : Int) : BitVec 32
opaque Config.ringValue (w : BitVec 32) : Int

/-! ### Loops (06_loops.md) -/

/-- Velocity feedback of a stepper axis whose feedback is COMMAND: R179 gives its position feedback only. -/
opaque Config.commandVfb (k axis : Nat) : Int

/-! ### Separation (09_separation.md) -/

/-- How far below the exact separation a channel's computed one lies, in 1/16 mm; the model uses it modulo 16 (R267). -/
opaque Config.sepSlack (k chan arm : Nat) : Nat
/-- The velocity (V32) of an end point's coordinate `i` where R256 divides by no time or has no latch before, and of an axis at its first
safe position. -/
opaque Config.capVel (k chan arm i : Nat) : Int
opaque Config.axisVel (k chan axis : Nat) : Int
/-- The directed speed where the closest points coincide and R268 has no direction. -/
opaque Config.touchSpeed (k chan arm : Nat) : Nat
/-- The track number shown for the entry capsules of a stale sensor (R264). -/
opaque Config.entryTrack (sensor : Nat) : Nat

/-! ### The cellar book (14_capture_cellar_book.md) -/

/-- Byte `i` of the 12 payload bytes of a record in DRAM: each code's rule says which values the payload carries, not how they are
laid out (log entry 6). -/
opaque Config.payloadByte (code : Nat) (payload : List Int) (i : Nat) : Byte

/-! ### Solver (04_solver.md) -/

/-- The raw value that the PPE writes into an entry it produces in a matrix that is neither an arm's inverse kinematics nor a block's closure
or load sharing (R116, R123): no rule says what it stands for. -/
opaque Config.ppeEntry (k mat entry : Nat) : Int

/-! ### Cores (15_cores_datapath.md) -/

/-- HSCNT: the handshakes completed by a core's datapath (R419); the spec gives no number per instruction. -/
opaque Config.handshakes (k plane core : Nat) : Word
/-- A byte of solver work memory outside the structures of R113 to R143: the factor pool, whose places the spec does not give. -/
opaque Config.poolByte (k plane off : Nat) : Byte

/-! ### Planes (10_planes_racking.md) -/

/-- The kind, of those that are compared by the start of φ5, and the index of the record that an unfinished comparison leaves
open (R41, R288). -/
opaque Config.lateKind (k : Nat) : Fin 4
opaque Config.lateIndex (k : Nat) : BitVec 16

/-! ### Debug (19_host_link.md) -/

/-- The nonce that a read of HST_DBG_NONCE produces (R522). -/
opaque Config.nonce (k : Nat) : BitVec 64

end Sys2Proof
end

