-- ==== Sys2Proof/Machine/Tab.lean ====
section
/-! DEFINITION. Finite tables as plain data: a sorted list of keyed entries, and a table with a default entry. Both hold the
numbered things of the spec (registers, arms, axes, nodes, tasks, memory bytes) so that two states can be compared. -/

namespace Sys2Proof.Machine

/-- Entries by number, keys strictly rising. -/
abbrev Sparse (α : Type) := List (Nat × α)

/-- The entry of key `k`, if one is listed. -/
def Sparse.find {α : Type} (m : Sparse α) (k : Nat) : Option α :=
  match m with
  | [] => none
  | (j, v) :: t => if j = k then some v else Sparse.find t k

/-- Lists `v` at key `k`, in rising order of keys. -/
def Sparse.put {α : Type} (m : Sparse α) (k : Nat) (v : α) : Sparse α :=
  match m with
  | [] => [(k, v)]
  | (j, w) :: t =>
    if k < j then (k, v) :: (j, w) :: t
    else if k = j then (k, v) :: t
    else (j, w) :: Sparse.put t k v

/-- Removes the entry of key `k`. -/
def Sparse.del {α : Type} (m : Sparse α) (k : Nat) : Sparse α :=
  match m with
  | [] => []
  | (j, w) :: t => if k = j then t else (j, w) :: Sparse.del t k

/-- Keys strictly rising: the one order in which a table may be listed. -/
def Sparse.rising {α : Type} (m : Sparse α) : Bool :=
  match m with
  | [] => true
  | (j, _) :: t => t.all (fun e => decide (j < e.1)) && Sparse.rising t

/-- A table over all numbers: entries that are not listed hold the default. -/
structure Tab (α : Type) where
  dflt : α
  cells : Sparse α := []
  deriving DecidableEq, Repr

/-- Entry `i` of the table. -/
def Tab.get {α : Type} (t : Tab α) (i : Nat) : α := (Sparse.find t.cells i).getD t.dflt

/-- The table with entry `i` replaced. -/
def Tab.set {α : Type} (t : Tab α) (i : Nat) (v : α) : Tab α := { t with cells := Sparse.put t.cells i v }

/-- The table with entry `i` passed through `f`. -/
def Tab.upd {α : Type} (t : Tab α) (i : Nat) (f : α → α) : Tab α := t.set i (f (t.get i))

/-- The first entries of the table, 0 to `n - 1`, as a list. -/
def Tab.firstN {α : Type} (t : Tab α) (n : Nat) : List α := (List.range n).map t.get

/-- Applies a state change for every index below `n`, lowest index first. -/
def forN {σ : Type} (n : Nat) (f : Nat → σ → σ) (s : σ) : σ :=
  (List.range n).foldl (fun acc i => f i acc) s

/-- Applies a state change for every element of a list, first element first. -/
def forL {σ α : Type} (l : List α) (f : α → σ → σ) (s : σ) : σ :=
  l.foldl (fun acc x => f x acc) s

/-- `f s` when the condition holds, else `s`. -/
def whenD {σ : Type} (c : Bool) (f : σ → σ) (s : σ) : σ := if c then f s else s

end Sys2Proof.Machine
end

