-- ==== Sys2Proof/Machine/Regs.lean ====
section
/-! DEFINITION. The register map (00_scope.md R8, R15, R20 and the register tables of every chapter): one descriptor per
field, with its block, offset, index strides, bits, access code and reset value. A field whose reset column reads
"Pattern", "fused" or "cause" has `loaded` true and holds 0 until it is loaded (DESIGN CHOICE, log entry 2). -/

namespace Sys2Proof.Machine

/-- The two compute planes (R2). -/
inductive Plane where
  | A | B
  deriving DecidableEq, Repr

/-- The other plane. -/
def Plane.other : Plane → Plane
  | .A => .B
  | .B => .A

/-- The code of a plane: 0 is plane A, 1 is plane B. -/
def Plane.num : Plane → Nat
  | .A => 0
  | .B => 1

/-- The plane of a one-bit code. -/
def Plane.ofNum (n : Nat) : Plane := if n % 2 = 0 then .A else .B

/-- The register blocks, in the order of their numbers (R20). -/
inductive Blk where
  | sys | pat | time | lsr | icu | tsk | lpe | ppe | slv | cap | fbi | saf | red | mem | pwr | hst
  deriving DecidableEq, Repr

/-- Block numbers (R20). -/
def Blk.num : Blk → Nat
  | .sys => 0 | .pat => 1 | .time => 2 | .lsr => 3 | .icu => 4 | .tsk => 5 | .lpe => 6 | .ppe => 7
  | .slv => 8 | .cap => 9 | .fbi => 10 | .saf => 11 | .red => 12 | .mem => 13 | .pwr => 14 | .hst => 15

/-- The block of a number; numbers above 15 do not occur (R20). -/
def Blk.ofNum : Nat → Blk
  | 0 => .sys | 1 => .pat | 2 => .time | 3 => .lsr | 4 => .icu | 5 => .tsk | 6 => .lpe | 7 => .ppe
  | 8 => .slv | 9 => .cap | 10 => .fbi | 11 => .saf | 12 => .red | 13 => .mem | 14 => .pwr | _ => .hst

/-- Starred blocks exist once per plane; the others are shared and alias in both views (R20). -/
def Blk.starred : Blk → Bool
  | .icu | .tsk | .lpe | .ppe | .slv | .mem => true
  | _ => false

/-- Access codes (R8). -/
inductive Access where
  | rw | ro | wo | w1c | rc | rws
  deriving DecidableEq, Repr

/-- A register field: its block, the byte offset of its word in the block, two index strides with their counts, its lowest
bit and width, its access code, its reset value, and whether the reset column names a loaded value. -/
structure Fld where
  blk : Blk
  off : Nat
  s1 : Nat
  n1 : Nat
  s2 : Nat
  n2 : Nat
  lo : Nat
  width : Nat
  acc : Access
  rst : Nat
  loaded : Bool
  deriving DecidableEq, Repr

/-- BAR0 offset of the word of a field in plane `p`'s view; a shared block has one home, its plane-A view (R20). -/
def Fld.word (f : Fld) (p : Plane) (i j : Nat) : Nat :=
  (if f.blk.starred then p.num * 0x100000 else 0) + f.blk.num * 0x10000 + f.off + i * f.s1 + j * f.s2

/-- The key of a field in the register file. -/
def Fld.key (f : Fld) (p : Plane) (i j : Nat) : Nat := f.word p i j * 32 + f.lo

/-- The bits of blk_APPLY (R15), at offset 0x0004 of each staged block. -/
def Fld.APPLY (b : Blk) : Fld := ⟨b, 4, 0, 1, 0, 1, 0, 1, .wo, 0, false⟩
def Fld.APPLY_PEND (b : Blk) : Fld := ⟨b, 4, 0, 1, 0, 1, 1, 1, .ro, 0, false⟩
def Fld.APPLY_ERR (b : Blk) : Fld := ⟨b, 4, 0, 1, 0, 1, 2, 1, .w1c, 0, false⟩
def Fld.APPLY_STAGE_VIEW (b : Blk) : Fld := ⟨b, 4, 0, 1, 0, 1, 3, 1, .rw, 0, false⟩
def Fld.APPLY_ERR_FIELD (b : Blk) : Fld := ⟨b, 4, 0, 1, 0, 1, 8, 8, .ro, 0, false⟩
def Fld.APPLY_CNT (b : Blk) : Fld := ⟨b, 4, 0, 1, 0, 1, 16, 16, .ro, 0, false⟩

/-- The staged blocks (R16). -/
def stagedBlks : List Blk := [.lpe, .ppe, .slv, .fbi, .cap, .time]

/-- The staging control words of the six staged blocks (R15). -/
def applyTable : List Fld :=
  stagedBlks.flatMap fun b =>
    [.APPLY b, .APPLY_PEND b, .APPLY_ERR b, .APPLY_STAGE_VIEW b, .APPLY_ERR_FIELD b, .APPLY_CNT b]

-- 01_cell_cycle.md: SYS_ID — device identity
def Fld.SYS_ID_STEPPING : Fld := ⟨.sys, 0x0, 0, 1, 0, 1, 0, 8, .ro, 0xB0, false⟩
def Fld.SYS_ID_DEVICE : Fld := ⟨.sys, 0x0, 0, 1, 0, 1, 8, 24, .ro, 0xD8064, false⟩

-- 01_cell_cycle.md: SYS_STATE — controller summary
def Fld.SYS_STATE_STAGE : Fld := ⟨.sys, 0x4, 0, 1, 0, 1, 0, 4, .ro, 0x0, false⟩
def Fld.SYS_STATE_LADDER : Fld := ⟨.sys, 0x4, 0, 1, 0, 1, 4, 3, .ro, 0x0, false⟩
def Fld.SYS_STATE_TOILE : Fld := ⟨.sys, 0x4, 0, 1, 0, 1, 7, 1, .ro, 0x0, false⟩
def Fld.SYS_STATE_SAF_MODE : Fld := ⟨.sys, 0x4, 0, 1, 0, 1, 8, 2, .ro, 0x0, false⟩
def Fld.SYS_STATE_ACTIVE : Fld := ⟨.sys, 0x4, 0, 1, 0, 1, 10, 1, .ro, 0x0, false⟩
def Fld.SYS_STATE_PACE_OK : Fld := ⟨.sys, 0x4, 0, 1, 0, 1, 11, 1, .ro, 0x0, false⟩
def Fld.SYS_STATE_LAST_FAULT : Fld := ⟨.sys, 0x4, 0, 1, 0, 1, 16, 16, .ro, 0x0, false⟩

-- 01_cell_cycle.md: SYS_CYCLE — cycle configuration
def Fld.SYS_CYCLE_K : Fld := ⟨.sys, 0x100, 0, 1, 0, 1, 0, 8, .ro, 0x4, false⟩
def Fld.SYS_CYCLE_TICK : Fld := ⟨.sys, 0x100, 0, 1, 0, 1, 8, 8, .ro, 0x8, false⟩
def Fld.SYS_CYCLE_SYNC_PAT : Fld := ⟨.sys, 0x100, 0, 1, 0, 1, 16, 1, .ro, 0x0, false⟩

-- 01_cell_cycle.md: SYS_CYCNT — cell cycle counter
def Fld.SYS_CYCNT : Fld := ⟨.sys, 0x104, 0, 1, 0, 1, 0, 32, .ro, 0x0, false⟩

-- 01_cell_cycle.md: SYS_PHASE — phase and overrun status
def Fld.SYS_PHASE : Fld := ⟨.sys, 0x108, 0, 1, 0, 1, 0, 3, .ro, 0x0, false⟩
def Fld.SYS_PHASE_TICK_POS : Fld := ⟨.sys, 0x108, 0, 1, 0, 1, 8, 6, .ro, 0x0, false⟩
def Fld.SYS_PHASE_OVR_LPE : Fld := ⟨.sys, 0x108, 0, 1, 0, 1, 16, 1, .w1c, 0x0, false⟩
def Fld.SYS_PHASE_OVR_PLAN : Fld := ⟨.sys, 0x108, 0, 1, 0, 1, 17, 1, .w1c, 0x0, false⟩
def Fld.SYS_PHASE_OVR_CMP : Fld := ⟨.sys, 0x108, 0, 1, 0, 1, 18, 1, .w1c, 0x0, false⟩
def Fld.SYS_PHASE_OVR_RACK : Fld := ⟨.sys, 0x108, 0, 1, 0, 1, 19, 1, .w1c, 0x0, false⟩

-- 01_cell_cycle.md: SYS_SYNC_CTL — SYNC_IN control
def Fld.SYS_SYNC_CTL_SYNC_EN : Fld := ⟨.sys, 0x110, 0, 1, 0, 1, 0, 1, .rw, 0x0, false⟩
def Fld.SYS_SYNC_CTL_EDGE : Fld := ⟨.sys, 0x110, 0, 1, 0, 1, 1, 1, .rw, 0x0, false⟩
def Fld.SYS_SYNC_CTL_AUTO_RELOCK : Fld := ⟨.sys, 0x110, 0, 1, 0, 1, 2, 1, .rw, 0x0, false⟩
def Fld.SYS_SYNC_CTL_DIV : Fld := ⟨.sys, 0x110, 0, 1, 0, 1, 16, 12, .rw, 0x0, false⟩

-- 01_cell_cycle.md: SYS_SYNC_OFS — SYNC_IN target offset
def Fld.SYS_SYNC_OFS : Fld := ⟨.sys, 0x114, 0, 1, 0, 1, 0, 32, .rw, 0x0, false⟩

-- 01_cell_cycle.md: SYS_SYNC_STAT — SYNC_IN status
def Fld.SYS_SYNC_STAT_LOCKED : Fld := ⟨.sys, 0x118, 0, 1, 0, 1, 0, 1, .ro, 0x0, false⟩
def Fld.SYS_SYNC_STAT_SYNC_LOST : Fld := ⟨.sys, 0x118, 0, 1, 0, 1, 1, 1, .w1c, 0x0, false⟩
def Fld.SYS_SYNC_STAT_EDGE_MISS : Fld := ⟨.sys, 0x118, 0, 1, 0, 1, 2, 1, .w1c, 0x0, false⟩
def Fld.SYS_SYNC_STAT_FREQ_OOR : Fld := ⟨.sys, 0x118, 0, 1, 0, 1, 3, 1, .ro, 0x0, false⟩
def Fld.SYS_SYNC_STAT_PH_ERR : Fld := ⟨.sys, 0x118, 0, 1, 0, 1, 8, 24, .ro, 0x0, false⟩

-- 02_pattern_startup.md: PAT_STATUS — Pattern and start-up status
def Fld.PAT_STATUS_STAGE : Fld := ⟨.pat, 0x0, 0, 1, 0, 1, 0, 4, .ro, 0x0, false⟩
def Fld.PAT_STATUS_ACT_SLOT : Fld := ⟨.pat, 0x0, 0, 1, 0, 1, 4, 1, .ro, 0x0, false⟩
def Fld.PAT_STATUS_FALLBACK : Fld := ⟨.pat, 0x0, 0, 1, 0, 1, 5, 1, .w1c, 0x0, false⟩
def Fld.PAT_STATUS_TOILE : Fld := ⟨.pat, 0x0, 0, 1, 0, 1, 6, 1, .ro, 0x0, false⟩
def Fld.PAT_STATUS_WRITING : Fld := ⟨.pat, 0x0, 0, 1, 0, 1, 7, 1, .ro, 0x0, false⟩
def Fld.PAT_STATUS_FORMAT : Fld := ⟨.pat, 0x0, 0, 1, 0, 1, 8, 1, .ro, 0x0, false⟩
def Fld.PAT_STATUS_LAST_ERR : Fld := ⟨.pat, 0x0, 0, 1, 0, 1, 16, 16, .ro, 0x0, false⟩

-- 02_pattern_startup.md: PAT_CTL — Pattern control
def Fld.PAT_CTL_TOILE : Fld := ⟨.pat, 0x8, 0, 1, 0, 1, 0, 1, .rw, 0x0, false⟩
def Fld.PAT_CTL_TOILE_FB : Fld := ⟨.pat, 0x8, 0, 1, 0, 1, 1, 1, .rw, 0x0, false⟩

-- 02_pattern_startup.md: PAT_SLOT — flash slot state
def Fld.PAT_SLOT_S0_STATE : Fld := ⟨.pat, 0xC, 0, 1, 0, 1, 0, 2, .ro, 0x0, false⟩
def Fld.PAT_SLOT_S0_OK : Fld := ⟨.pat, 0xC, 0, 1, 0, 1, 2, 1, .ro, 0x0, false⟩
def Fld.PAT_SLOT_S1_STATE : Fld := ⟨.pat, 0xC, 0, 1, 0, 1, 4, 2, .ro, 0x0, false⟩
def Fld.PAT_SLOT_S1_OK : Fld := ⟨.pat, 0xC, 0, 1, 0, 1, 6, 1, .ro, 0x0, false⟩

-- 02_pattern_startup.md: PAT_GEN — generations
def Fld.PAT_GEN : Fld := ⟨.pat, 0x10, 4, 3, 0, 1, 0, 32, .ro, 0x0, false⟩

-- 02_pattern_startup.md: SEC_PRESENCE — physical presence
def Fld.SEC_PRESENCE_PRES_A : Fld := ⟨.pat, 0x20, 0, 1, 0, 1, 0, 1, .ro, 0x0, false⟩
def Fld.SEC_PRESENCE_PRES_B_N : Fld := ⟨.pat, 0x20, 0, 1, 0, 1, 1, 1, .ro, 0x1, false⟩
def Fld.SEC_PRESENCE_PRESENT : Fld := ⟨.pat, 0x20, 0, 1, 0, 1, 2, 1, .ro, 0x0, false⟩
def Fld.SEC_PRESENCE_DISAGREE : Fld := ⟨.pat, 0x20, 0, 1, 0, 1, 3, 1, .w1c, 0x0, false⟩
def Fld.SEC_PRESENCE_AGE : Fld := ⟨.pat, 0x20, 0, 1, 0, 1, 8, 24, .ro, 0x0, false⟩

-- 02_pattern_startup.md: SEC_KEYS — key slot state
def Fld.SEC_KEYS_PROG : Fld := ⟨.pat, 0x24, 0, 1, 0, 1, 0, 4, .ro, 0x0, true⟩
def Fld.SEC_KEYS_REVOKED : Fld := ⟨.pat, 0x24, 0, 1, 0, 1, 4, 4, .ro, 0x0, true⟩
def Fld.SEC_KEYS_MAIN_SLOT : Fld := ⟨.pat, 0x24, 0, 1, 0, 1, 8, 2, .ro, 0x0, false⟩
def Fld.SEC_KEYS_SAFE_SLOT : Fld := ⟨.pat, 0x24, 0, 1, 0, 1, 10, 2, .ro, 0x0, false⟩

-- 03_paths_profiles.md: PPE_OVR — override
def Fld.PPE_OVR : Fld := ⟨.ppe, 0x40, 4, 24, 0, 1, 0, 16, .rw, 0x4000, false⟩

-- 03_paths_profiles.md: PPE_ARMn_CMD — arm command
def Fld.PPE_ARM_CMD_STOP : Fld := ⟨.ppe, 0x100, 32, 8, 0, 1, 0, 1, .wo, 0x0, false⟩
def Fld.PPE_ARM_CMD_QSTOP : Fld := ⟨.ppe, 0x100, 32, 8, 0, 1, 1, 1, .wo, 0x0, false⟩
def Fld.PPE_ARM_CMD_RESUME : Fld := ⟨.ppe, 0x100, 32, 8, 0, 1, 2, 1, .wo, 0x0, false⟩
def Fld.PPE_ARM_CMD_ABORT : Fld := ⟨.ppe, 0x100, 32, 8, 0, 1, 3, 1, .wo, 0x0, false⟩

-- 03_paths_profiles.md: PPE_ARMn_STAT — arm status
def Fld.PPE_ARM_STAT_STATE : Fld := ⟨.ppe, 0x104, 32, 8, 0, 1, 0, 3, .ro, 0x0, false⟩
def Fld.PPE_ARM_STAT_QDRY : Fld := ⟨.ppe, 0x104, 32, 8, 0, 1, 3, 1, .w1c, 0x0, false⟩
def Fld.PPE_ARM_STAT_BSKIP : Fld := ⟨.ppe, 0x104, 32, 8, 0, 1, 4, 1, .w1c, 0x0, false⟩
def Fld.PPE_ARM_STAT_SHAFT_LAG : Fld := ⟨.ppe, 0x104, 32, 8, 0, 1, 5, 1, .ro, 0x0, false⟩
def Fld.PPE_ARM_STAT_SHAFT_REV : Fld := ⟨.ppe, 0x104, 32, 8, 0, 1, 6, 1, .w1c, 0x0, false⟩
def Fld.PPE_ARM_STAT_QS_ACT : Fld := ⟨.ppe, 0x104, 32, 8, 0, 1, 7, 1, .ro, 0x0, false⟩
def Fld.PPE_ARM_STAT_GO : Fld := ⟨.ppe, 0x104, 32, 8, 0, 1, 8, 1, .ro, 0x0, false⟩
def Fld.PPE_ARM_STAT_QLEVEL : Fld := ⟨.ppe, 0x104, 32, 8, 0, 1, 16, 9, .ro, 0x0, false⟩

-- 03_paths_profiles.md: PPE_ARMn_SEG — current segment
def Fld.PPE_ARM_SEG_ID : Fld := ⟨.ppe, 0x108, 32, 8, 0, 1, 0, 32, .ro, 0x0, false⟩

-- 03_paths_profiles.md: PPE_ARMn_LAG — shaft lag
def Fld.PPE_ARM_LAG : Fld := ⟨.ppe, 0x10C, 32, 8, 0, 1, 0, 32, .ro, 0x0, false⟩

-- 03_paths_profiles.md: PPE_AXm_CFG — auxiliary axis configuration
def Fld.PPE_AX_CFG_TABLE : Fld := ⟨.ppe, 0x800, 32, 64, 0, 1, 0, 2, .rws, 0x0, false⟩
def Fld.PPE_AX_CFG_OUT : Fld := ⟨.ppe, 0x800, 32, 64, 0, 1, 2, 1, .ro, 0x0, false⟩
def Fld.PPE_AX_CFG_SD : Fld := ⟨.ppe, 0x800, 32, 64, 0, 1, 3, 3, .ro, 0x0, false⟩
def Fld.PPE_AX_CFG_STEP_DIV : Fld := ⟨.ppe, 0x800, 32, 64, 0, 1, 8, 9, .rws, 0x1, false⟩
def Fld.PPE_AX_CFG_GROUP : Fld := ⟨.ppe, 0x800, 32, 64, 0, 1, 24, 8, .ro, 0x0, false⟩

-- 03_paths_profiles.md: PPE_AXm_STAT — auxiliary axis status
def Fld.PPE_AX_STAT_STATE : Fld := ⟨.ppe, 0x804, 32, 64, 0, 1, 0, 3, .ro, 0x0, false⟩
def Fld.PPE_AX_STAT_POS_LOST : Fld := ⟨.ppe, 0x804, 32, 64, 0, 1, 3, 1, .ro, 0x0, false⟩
def Fld.PPE_AX_STAT_PARKED : Fld := ⟨.ppe, 0x804, 32, 64, 0, 1, 4, 1, .ro, 0x0, false⟩
def Fld.PPE_AX_STAT_SHAFT_LAG : Fld := ⟨.ppe, 0x804, 32, 64, 0, 1, 5, 1, .ro, 0x0, false⟩
def Fld.PPE_AX_STAT_SHAFT_REV : Fld := ⟨.ppe, 0x804, 32, 64, 0, 1, 6, 1, .w1c, 0x0, false⟩
def Fld.PPE_AX_STAT_DONE : Fld := ⟨.ppe, 0x804, 32, 64, 0, 1, 7, 1, .w1c, 0x0, false⟩
def Fld.PPE_AX_STAT_STEP_LAG : Fld := ⟨.ppe, 0x804, 32, 64, 0, 1, 8, 1, .w1c, 0x0, false⟩

-- 03_paths_profiles.md: PPE_AXm_MSIDX — microstep index
def Fld.PPE_AX_MSIDX_IDX : Fld := ⟨.ppe, 0x808, 32, 64, 0, 1, 0, 32, .ro, 0x0, false⟩

-- 03_paths_profiles.md: PPE_AXm_LAG — auxiliary shaft lag
def Fld.PPE_AX_LAG : Fld := ⟨.ppe, 0x80C, 32, 64, 0, 1, 0, 32, .ro, 0x0, false⟩

-- 03_paths_profiles.md: PPE_SDn_CFG — local step/direction timing
def Fld.PPE_SD_CFG_PW : Fld := ⟨.ppe, 0x1300, 4, 8, 0, 1, 0, 12, .rws, 0x14, false⟩
def Fld.PPE_SD_CFG_DS : Fld := ⟨.ppe, 0x1300, 4, 8, 0, 1, 12, 12, .rws, 0x28, false⟩
def Fld.PPE_SD_CFG_STEP_POL : Fld := ⟨.ppe, 0x1300, 4, 8, 0, 1, 24, 1, .rws, 0x0, false⟩
def Fld.PPE_SD_CFG_DIR_POL : Fld := ⟨.ppe, 0x1300, 4, 8, 0, 1, 25, 1, .rws, 0x0, false⟩

-- 04_solver.md: SLV_STATUS — solver status
def Fld.SLV_STATUS_CYC : Fld := ⟨.slv, 0x8, 0, 1, 0, 1, 0, 2, .ro, 0x0, false⟩
def Fld.SLV_STATUS_TICK : Fld := ⟨.slv, 0x8, 0, 1, 0, 1, 2, 2, .ro, 0x0, false⟩
def Fld.SLV_STATUS_PROD_LATE : Fld := ⟨.slv, 0x8, 0, 1, 0, 1, 4, 1, .w1c, 0x0, false⟩
def Fld.SLV_STATUS_HOST_DROP : Fld := ⟨.slv, 0x8, 0, 1, 0, 1, 5, 1, .w1c, 0x0, false⟩
def Fld.SLV_STATUS_QLEVEL : Fld := ⟨.slv, 0x8, 0, 1, 0, 1, 16, 13, .ro, 0x0, false⟩

-- 04_solver.md: SLV_CUT — producer done
def Fld.SLV_CUT_DONE : Fld := ⟨.slv, 0xC, 0, 1, 0, 1, 0, 10, .wo, 0x0, false⟩
def Fld.SLV_CUT_TDONE : Fld := ⟨.slv, 0xC, 0, 1, 0, 1, 16, 10, .wo, 0x0, false⟩

-- 04_solver.md: SLV_BATCHn_STAT — latest closed batch
def Fld.SLV_BATCH_STAT_FRESH : Fld := ⟨.slv, 0x10, 4, 2, 0, 1, 0, 9, .ro, 0x0, false⟩
def Fld.SLV_BATCH_STAT_STALE : Fld := ⟨.slv, 0x10, 4, 2, 0, 1, 9, 9, .ro, 0x0, false⟩
def Fld.SLV_BATCH_STAT_BOUNDED : Fld := ⟨.slv, 0x10, 4, 2, 0, 1, 18, 9, .ro, 0x0, false⟩
def Fld.SLV_BATCH_STAT_EARLY : Fld := ⟨.slv, 0x10, 4, 2, 0, 1, 27, 1, .ro, 0x0, false⟩

-- 04_solver.md: SLV_BATCHn_SEQ — batch sequence
def Fld.SLV_BATCH_SEQ : Fld := ⟨.slv, 0x18, 4, 2, 0, 1, 0, 32, .ro, 0x0, false⟩

-- 04_solver.md: SLV_DELTA — delta windows
def Fld.SLV_DELTA_LO : Fld := ⟨.slv, 0x100, 8, 12, 0, 1, 0, 32, .wo, 0x0, false⟩
def Fld.SLV_DELTA_HI : Fld := ⟨.slv, 0x104, 8, 12, 0, 1, 0, 32, .wo, 0x0, false⟩

-- 04_solver.md: SLV_MATn_STAT — matrix status
def Fld.SLV_MAT_STAT_SOLSTAT : Fld := ⟨.slv, 0x800, 8, 256, 0, 1, 0, 2, .ro, 0x0, false⟩
def Fld.SLV_MAT_STAT_PIV_TINY : Fld := ⟨.slv, 0x800, 8, 256, 0, 1, 2, 1, .ro, 0x0, false⟩
def Fld.SLV_MAT_STAT_SAT : Fld := ⟨.slv, 0x800, 8, 256, 0, 1, 3, 1, .ro, 0x0, false⟩
def Fld.SLV_MAT_STAT_RES_FAIL : Fld := ⟨.slv, 0x800, 8, 256, 0, 1, 4, 1, .ro, 0x0, false⟩
def Fld.SLV_MAT_STAT_STARVED : Fld := ⟨.slv, 0x800, 8, 256, 0, 1, 5, 1, .ro, 0x0, false⟩
def Fld.SLV_MAT_STAT_ITER : Fld := ⟨.slv, 0x800, 8, 256, 0, 1, 6, 2, .ro, 0x0, false⟩
def Fld.SLV_MAT_STAT_PIV_IDX : Fld := ⟨.slv, 0x800, 8, 256, 0, 1, 8, 5, .ro, 0x0, false⟩
def Fld.SLV_MAT_STAT_CUR : Fld := ⟨.slv, 0x800, 8, 256, 0, 1, 14, 1, .ro, 0x0, false⟩
def Fld.SLV_MAT_STAT_AGE : Fld := ⟨.slv, 0x800, 8, 256, 0, 1, 16, 8, .ro, 0x0, false⟩

-- 04_solver.md: SLV_MATn_TUNE — matrix tuning
def Fld.SLV_MAT_TUNE_TAU_EXP : Fld := ⟨.slv, 0x804, 8, 256, 0, 1, 0, 5, .rws, 0x0, true⟩
def Fld.SLV_MAT_TUNE_REG_EXP : Fld := ⟨.slv, 0x804, 8, 256, 0, 1, 5, 5, .rws, 0x0, true⟩
def Fld.SLV_MAT_TUNE_REFINE : Fld := ⟨.slv, 0x804, 8, 256, 0, 1, 10, 2, .rws, 0x0, true⟩
def Fld.SLV_MAT_TUNE_MAX_SHIFT : Fld := ⟨.slv, 0x804, 8, 256, 0, 1, 12, 4, .rws, 0x0, true⟩
def Fld.SLV_MAT_TUNE_RES_EXP : Fld := ⟨.slv, 0x804, 8, 256, 0, 1, 16, 5, .rws, 0x0, true⟩

-- 05_cooperation.md: PPE_ARMn_COOP — arm cooperation status
def Fld.PPE_ARM_COOP_ZWAIT : Fld := ⟨.ppe, 0x110, 32, 8, 0, 1, 0, 1, .ro, 0x0, false⟩
def Fld.PPE_ARM_COOP_ZVIOL : Fld := ⟨.ppe, 0x110, 32, 8, 0, 1, 1, 1, .w1c, 0x0, false⟩
def Fld.PPE_ARM_COOP_PROX_ACT : Fld := ⟨.ppe, 0x110, 32, 8, 0, 1, 2, 1, .ro, 0x0, false⟩
def Fld.PPE_ARM_COOP_COUPLED : Fld := ⟨.ppe, 0x110, 32, 8, 0, 1, 3, 1, .ro, 0x0, false⟩
def Fld.PPE_ARM_COOP_BLOCK : Fld := ⟨.ppe, 0x110, 32, 8, 0, 1, 4, 2, .ro, 0x0, false⟩
def Fld.PPE_ARM_COOP_PROX_SCALE : Fld := ⟨.ppe, 0x110, 32, 8, 0, 1, 16, 16, .ro, 0x4000, false⟩

-- 05_cooperation.md: PPE_ARMn_ZHELD — tokens held
def Fld.PPE_ARM_ZHELD_LO : Fld := ⟨.ppe, 0x114, 32, 8, 0, 1, 0, 32, .ro, 0x0, false⟩
def Fld.PPE_ARM_ZHELD_HI : Fld := ⟨.ppe, 0x118, 32, 8, 0, 1, 0, 32, .ro, 0x0, false⟩

-- 05_cooperation.md: PPE_ZONEz — zone state
def Fld.PPE_ZONE_HOLDER : Fld := ⟨.ppe, 0x1000, 4, 64, 0, 1, 0, 4, .ro, 0xF, false⟩
def Fld.PPE_ZONE_BLOCK : Fld := ⟨.ppe, 0x1000, 4, 64, 0, 1, 4, 1, .ro, 0x0, false⟩
def Fld.PPE_ZONE_SHAPE : Fld := ⟨.ppe, 0x1000, 4, 64, 0, 1, 5, 1, .ro, 0x0, false⟩
def Fld.PPE_ZONE_RANK : Fld := ⟨.ppe, 0x1000, 4, 64, 0, 1, 8, 6, .ro, 0x0, true⟩
def Fld.PPE_ZONE_WAITERS : Fld := ⟨.ppe, 0x1000, 4, 64, 0, 1, 24, 8, .ro, 0x0, false⟩

-- 05_cooperation.md: PPE_BLKb_STAT — coupled block status
def Fld.PPE_BLK_STAT_MEMBERS : Fld := ⟨.ppe, 0x1100, 16, 4, 0, 1, 0, 8, .ro, 0x0, true⟩
def Fld.PPE_BLK_STAT_COUPLED : Fld := ⟨.ppe, 0x1100, 16, 4, 0, 1, 8, 1, .ro, 0x0, false⟩
def Fld.PPE_BLK_STAT_MODE : Fld := ⟨.ppe, 0x1100, 16, 4, 0, 1, 9, 1, .ro, 0x0, true⟩
def Fld.PPE_BLK_STAT_CARRIER : Fld := ⟨.ppe, 0x1100, 16, 4, 0, 1, 10, 3, .ro, 0x0, true⟩
def Fld.PPE_BLK_STAT_DECOUPLING : Fld := ⟨.ppe, 0x1100, 16, 4, 0, 1, 13, 1, .ro, 0x0, false⟩
def Fld.PPE_BLK_STAT_CLOSE_LIM : Fld := ⟨.ppe, 0x1100, 16, 4, 0, 1, 14, 1, .w1c, 0x0, false⟩

-- 05_cooperation.md: PPE_BLKb_FINT — internal force
def Fld.PPE_BLK_FINT_F_INT : Fld := ⟨.ppe, 0x1104, 16, 4, 0, 1, 0, 32, .rws, 0x0, true⟩

-- 05_cooperation.md: PPE_BLKb_GAIN — closure gain
def Fld.PPE_BLK_GAIN_CLOSE_GAIN : Fld := ⟨.ppe, 0x1108, 16, 4, 0, 1, 0, 16, .rws, 0x0, true⟩

-- 05_cooperation.md: PPE_BLKb_CERR — closure error
def Fld.PPE_BLK_CERR : Fld := ⟨.ppe, 0x110C, 16, 4, 0, 1, 0, 32, .ro, 0x0, false⟩

-- 05_cooperation.md: PPE_PROX_DIST — proximity distances
def Fld.PPE_PROX_DIST_D_HOLD : Fld := ⟨.ppe, 0x1200, 0, 1, 0, 1, 0, 16, .rws, 0x32, false⟩
def Fld.PPE_PROX_DIST_D_SLOW : Fld := ⟨.ppe, 0x1200, 0, 1, 0, 1, 16, 16, .rws, 0x12C, false⟩

-- 05_cooperation.md: PPE_PROX_TMO — proximity stall time
def Fld.PPE_PROX_TMO : Fld := ⟨.ppe, 0x1204, 0, 1, 0, 1, 0, 16, .rws, 0x3E8, false⟩

-- 06_loops.md: LPE_STATUS — loop engine status
def Fld.LPE_STATUS_NAXES : Fld := ⟨.lpe, 0x8, 0, 1, 0, 1, 0, 8, .ro, 0x0, true⟩
def Fld.LPE_STATUS_NFAULT : Fld := ⟨.lpe, 0x8, 0, 1, 0, 1, 8, 8, .ro, 0x0, false⟩
def Fld.LPE_STATUS_NSTALE : Fld := ⟨.lpe, 0x8, 0, 1, 0, 1, 16, 8, .ro, 0x0, false⟩

-- 06_loops.md: LPE_AXa_CFG — axis configuration
def Fld.LPE_AX_CFG_CLASS : Fld := ⟨.lpe, 0x100, 64, 128, 0, 1, 0, 1, .ro, 0x0, true⟩
def Fld.LPE_AX_CFG_INV : Fld := ⟨.lpe, 0x100, 64, 128, 0, 1, 1, 1, .ro, 0x0, true⟩
def Fld.LPE_AX_CFG_LOOPS : Fld := ⟨.lpe, 0x100, 64, 128, 0, 1, 2, 4, .ro, 0x0, true⟩
def Fld.LPE_AX_CFG_FBSRC : Fld := ⟨.lpe, 0x100, 64, 128, 0, 1, 6, 2, .ro, 0x0, true⟩
def Fld.LPE_AX_CFG_FBCH : Fld := ⟨.lpe, 0x100, 64, 128, 0, 1, 8, 4, .ro, 0x0, true⟩
def Fld.LPE_AX_CFG_STALE_MAX : Fld := ⟨.lpe, 0x100, 64, 128, 0, 1, 12, 4, .rws, 0x0, true⟩
def Fld.LPE_AX_CFG_WIN_LOG : Fld := ⟨.lpe, 0x100, 64, 128, 0, 1, 16, 1, .rws, 0x0, false⟩
def Fld.LPE_AX_CFG_WIN_IRQ : Fld := ⟨.lpe, 0x100, 64, 128, 0, 1, 17, 1, .rws, 0x0, false⟩

-- 06_loops.md: LPE_AXa_STAT — axis status
def Fld.LPE_AX_STAT_WIN : Fld := ⟨.lpe, 0x104, 64, 128, 0, 1, 0, 2, .ro, 0x0, false⟩
def Fld.LPE_AX_STAT_STALE : Fld := ⟨.lpe, 0x104, 64, 128, 0, 1, 2, 1, .ro, 0x0, false⟩
def Fld.LPE_AX_STAT_STALE_CNT : Fld := ⟨.lpe, 0x104, 64, 128, 0, 1, 3, 4, .ro, 0x0, false⟩
def Fld.LPE_AX_STAT_FAULT : Fld := ⟨.lpe, 0x104, 64, 128, 0, 1, 7, 1, .ro, 0x0, false⟩
def Fld.LPE_AX_STAT_FOLLOW : Fld := ⟨.lpe, 0x104, 64, 128, 0, 1, 8, 1, .ro, 0x0, false⟩
def Fld.LPE_AX_STAT_SAT : Fld := ⟨.lpe, 0x104, 64, 128, 0, 1, 9, 1, .ro, 0x0, false⟩
def Fld.LPE_AX_STAT_STO : Fld := ⟨.lpe, 0x104, 64, 128, 0, 1, 10, 1, .ro, 0x0, false⟩
def Fld.LPE_AX_STAT_REPEAT : Fld := ⟨.lpe, 0x104, 64, 128, 0, 1, 11, 1, .ro, 0x0, false⟩
def Fld.LPE_AX_STAT_FCODE : Fld := ⟨.lpe, 0x104, 64, 128, 0, 1, 16, 16, .ro, 0x0, false⟩

-- 06_loops.md: LPE_AXa_VMAX, LPE_AXa_VMIN — output clamp
def Fld.LPE_AX_VMAX : Fld := ⟨.lpe, 0x108, 64, 128, 0, 1, 0, 32, .rws, 0x0, true⟩
def Fld.LPE_AX_VMIN : Fld := ⟨.lpe, 0x10C, 64, 128, 0, 1, 0, 32, .rws, 0x0, true⟩

-- 06_loops.md: LPE_AXa_FEMAX — following-error limit
def Fld.LPE_AX_FEMAX : Fld := ⟨.lpe, 0x110, 64, 128, 0, 1, 0, 32, .rws, 0x0, true⟩

-- 06_loops.md: LPE_AXa_FF — feed-forward and tracking factors
def Fld.LPE_AX_FF_KVFF : Fld := ⟨.lpe, 0x114, 64, 128, 0, 1, 0, 16, .rws, 0x8000, false⟩
def Fld.LPE_AX_FF_KTFF : Fld := ⟨.lpe, 0x114, 64, 128, 0, 1, 16, 16, .rws, 0x8000, false⟩

-- 06_loops.md: LPE_AXa_KAW — tracking factor
def Fld.LPE_AX_KAW : Fld := ⟨.lpe, 0x118, 64, 128, 0, 1, 0, 16, .rws, 0x8000, false⟩

-- 06_loops.md: LPE_AXa_GNUM, LPE_AXa_GDEN — gearing ratio
def Fld.LPE_AX_GNUM : Fld := ⟨.lpe, 0x120, 64, 128, 0, 1, 0, 32, .rws, 0x0, true⟩
def Fld.LPE_AX_GDEN : Fld := ⟨.lpe, 0x124, 64, 128, 0, 1, 0, 32, .rws, 0x0, true⟩

-- 06_loops.md: LPE_AXa_SPOS — position set-point
def Fld.LPE_AX_SPOS_LO : Fld := ⟨.lpe, 0x128, 64, 128, 0, 1, 0, 32, .ro, 0x0, false⟩
def Fld.LPE_AX_SPOS_HI : Fld := ⟨.lpe, 0x12C, 64, 128, 0, 1, 0, 32, .ro, 0x0, false⟩

-- 06_loops.md: LPE_AXa_SPOFS — set-point offset
def Fld.LPE_AX_SPOFS_OFS : Fld := ⟨.lpe, 0x130, 64, 128, 0, 1, 0, 32, .ro, 0x0, false⟩

-- 06_loops.md: LPE_AXa_CMD — latest command
def Fld.LPE_AX_CMD : Fld := ⟨.lpe, 0x134, 64, 128, 0, 1, 0, 32, .ro, 0x0, false⟩

-- 06_loops.md: LPE_LPa_i_CTL — loop control
def Fld.LPE_LP_CTL_SRC : Fld := ⟨.lpe, 0x2400, 128, 128, 32, 4, 0, 3, .rws, 0x0, true⟩
def Fld.LPE_LP_CTL_CH : Fld := ⟨.lpe, 0x2400, 128, 128, 32, 4, 3, 2, .rws, 0x0, true⟩
def Fld.LPE_LP_CTL_TABLE : Fld := ⟨.lpe, 0x2400, 128, 128, 32, 4, 5, 6, .rws, 0x0, false⟩
def Fld.LPE_LP_CTL_EN : Fld := ⟨.lpe, 0x2400, 128, 128, 32, 4, 31, 1, .ro, 0x0, true⟩

-- 06_loops.md: LPE_LPa_i_KP, _KI, _REF — loop parameters
def Fld.LPE_LP_KP : Fld := ⟨.lpe, 0x2404, 128, 128, 32, 4, 0, 32, .rws, 0x0, true⟩
def Fld.LPE_LP_KI : Fld := ⟨.lpe, 0x2408, 128, 128, 32, 4, 0, 32, .rws, 0x0, true⟩
def Fld.LPE_LP_REF : Fld := ⟨.lpe, 0x240C, 128, 128, 32, 4, 0, 32, .rws, 0x0, true⟩

-- 06_loops.md: LPE_LPa_i_INTEG, _OUT, _ERR — loop observation
def Fld.LPE_LP_INTEG : Fld := ⟨.lpe, 0x2410, 128, 128, 32, 4, 0, 32, .ro, 0x0, false⟩
def Fld.LPE_LP_OUT : Fld := ⟨.lpe, 0x2414, 128, 128, 32, 4, 0, 32, .ro, 0x0, false⟩
def Fld.LPE_LP_ERR : Fld := ⟨.lpe, 0x2418, 128, 128, 32, 4, 0, 32, .ro, 0x0, false⟩

-- 06_loops.md: LPE_AIc — analog set-point scaling
def Fld.LPE_AI_GAIN : Fld := ⟨.lpe, 0x7000, 16, 4, 0, 1, 0, 32, .rws, 0x0, true⟩
def Fld.LPE_AI_OFS : Fld := ⟨.lpe, 0x7004, 16, 4, 0, 1, 0, 32, .rws, 0x0, true⟩
def Fld.LPE_AI_FILT : Fld := ⟨.lpe, 0x7008, 16, 4, 0, 1, 0, 16, .rws, 0x8000, false⟩
def Fld.LPE_AI_VAL : Fld := ⟨.lpe, 0x700C, 16, 4, 0, 1, 0, 32, .ro, 0x0, false⟩

-- 06_loops.md: LPE_GTABt — gain table
def Fld.LPE_GTAB_G_EVEN : Fld := ⟨.lpe, 0x8000, 68, 64, 4, 17, 0, 16, .rws, 0x1000, true⟩
def Fld.LPE_GTAB_G_ODD : Fld := ⟨.lpe, 0x8000, 68, 64, 4, 16, 16, 16, .rws, 0x1000, true⟩

-- 07_feedback.md: FBn_CFG — channel configuration
def Fld.FB_CFG_MODE : Fld := ⟨.fbi, 0x100, 64, 18, 0, 1, 0, 2, .ro, 0x0, true⟩
def Fld.FB_CFG_IDX_MODE : Fld := ⟨.fbi, 0x100, 64, 18, 0, 1, 2, 1, .rws, 0x0, true⟩
def Fld.FB_CFG_EDGE_POL : Fld := ⟨.fbi, 0x100, 64, 18, 0, 1, 3, 1, .rws, 0x0, false⟩
def Fld.FB_CFG_FILT : Fld := ⟨.fbi, 0x100, 64, 18, 0, 1, 4, 4, .rws, 0x0, true⟩
def Fld.FB_CFG_LINE_FATAL : Fld := ⟨.fbi, 0x100, 64, 18, 0, 1, 8, 1, .rws, 0x1, false⟩
def Fld.FB_CFG_DIR_IRQ : Fld := ⟨.fbi, 0x100, 64, 18, 0, 1, 9, 1, .rws, 0x0, false⟩
def Fld.FB_CFG_IDX_IRQ : Fld := ⟨.fbi, 0x100, 64, 18, 0, 1, 10, 1, .rws, 0x0, false⟩
def Fld.FB_CFG_SSI_CODE : Fld := ⟨.fbi, 0x100, 64, 18, 0, 1, 11, 1, .ro, 0x0, true⟩
def Fld.FB_CFG_SSI_EXT : Fld := ⟨.fbi, 0x100, 64, 18, 0, 1, 12, 1, .ro, 0x0, true⟩
def Fld.FB_CFG_SSI_PAR : Fld := ⟨.fbi, 0x100, 64, 18, 0, 1, 13, 2, .ro, 0x0, true⟩
def Fld.FB_CFG_Z_USE : Fld := ⟨.fbi, 0x100, 64, 18, 0, 1, 15, 1, .ro, 0x0, true⟩
def Fld.FB_CFG_SSI_BITS : Fld := ⟨.fbi, 0x100, 64, 18, 0, 1, 16, 6, .ro, 0x0, true⟩
def Fld.FB_CFG_WIN : Fld := ⟨.fbi, 0x100, 64, 18, 0, 1, 22, 4, .rws, 0x0, false⟩

-- 07_feedback.md: FBn_LINES, FBn_SPDSEL, FBn_TIM, FBn_IDXVAL — channel parameters
def Fld.FB_LINES : Fld := ⟨.fbi, 0x104, 64, 18, 0, 1, 0, 24, .rws, 0x0, true⟩
def Fld.FB_LINES_LTOL : Fld := ⟨.fbi, 0x104, 64, 18, 0, 1, 24, 8, .rws, 0x2, false⟩
def Fld.FB_SPDSEL_V_LO : Fld := ⟨.fbi, 0x108, 64, 18, 0, 1, 0, 16, .rws, 0x0, true⟩
def Fld.FB_SPDSEL_V_HI : Fld := ⟨.fbi, 0x108, 64, 18, 0, 1, 16, 16, .rws, 0x0, true⟩
def Fld.FB_TIM_DIR_HYST : Fld := ⟨.fbi, 0x10C, 64, 18, 0, 1, 0, 8, .rws, 0x4, false⟩
def Fld.FB_TIM_ZERO_T : Fld := ⟨.fbi, 0x10C, 64, 18, 0, 1, 8, 8, .rws, 0x40, false⟩
def Fld.FB_TIM_SSI_DLY : Fld := ⟨.fbi, 0x10C, 64, 18, 0, 1, 16, 8, .rws, 0x0, true⟩
def Fld.FB_TIM_SSI_HALF : Fld := ⟨.fbi, 0x10C, 64, 18, 0, 1, 24, 8, .rws, 0x0, true⟩
def Fld.FB_IDXVAL_IDX_VAL : Fld := ⟨.fbi, 0x138, 64, 18, 0, 1, 0, 32, .rws, 0x0, false⟩

-- 07_feedback.md: FBn_CMD — channel commands
def Fld.FB_CMD_IDX_ARM : Fld := ⟨.fbi, 0x110, 64, 18, 0, 1, 0, 1, .wo, 0x0, false⟩
def Fld.FB_CMD_CLR_REF : Fld := ⟨.fbi, 0x110, 64, 18, 0, 1, 1, 1, .wo, 0x0, false⟩
def Fld.FB_CMD_CLR_CNT : Fld := ⟨.fbi, 0x110, 64, 18, 0, 1, 2, 1, .wo, 0x0, false⟩

-- 07_feedback.md: FBn_STAT — channel status
def Fld.FB_STAT_DIR : Fld := ⟨.fbi, 0x114, 64, 18, 0, 1, 0, 1, .ro, 0x0, false⟩
def Fld.FB_STAT_DIRCHG : Fld := ⟨.fbi, 0x114, 64, 18, 0, 1, 1, 1, .w1c, 0x0, false⟩
def Fld.FB_STAT_SPD_METH : Fld := ⟨.fbi, 0x114, 64, 18, 0, 1, 2, 1, .ro, 0x0, false⟩
def Fld.FB_STAT_IDX_SEEN : Fld := ⟨.fbi, 0x114, 64, 18, 0, 1, 3, 1, .w1c, 0x0, false⟩
def Fld.FB_STAT_ARMED : Fld := ⟨.fbi, 0x114, 64, 18, 0, 1, 4, 1, .ro, 0x0, false⟩
def Fld.FB_STAT_IDX_DONE : Fld := ⟨.fbi, 0x114, 64, 18, 0, 1, 5, 1, .w1c, 0x0, false⟩
def Fld.FB_STAT_LINE_ERR : Fld := ⟨.fbi, 0x114, 64, 18, 0, 1, 6, 1, .w1c, 0x0, false⟩
def Fld.FB_STAT_QUAD_ERR : Fld := ⟨.fbi, 0x114, 64, 18, 0, 1, 7, 1, .w1c, 0x0, false⟩
def Fld.FB_STAT_SSI_ERR : Fld := ⟨.fbi, 0x114, 64, 18, 0, 1, 8, 1, .w1c, 0x0, false⟩
def Fld.FB_STAT_REF_LOST : Fld := ⟨.fbi, 0x114, 64, 18, 0, 1, 9, 1, .ro, 0x0, false⟩
def Fld.FB_STAT_FAULTY : Fld := ⟨.fbi, 0x114, 64, 18, 0, 1, 10, 1, .ro, 0x0, false⟩
def Fld.FB_STAT_FALLBACK : Fld := ⟨.fbi, 0x114, 64, 18, 0, 1, 11, 1, .ro, 0x0, false⟩

-- 07_feedback.md: FBn_WIRE — wire-fault state
def Fld.FB_WIRE_A : Fld := ⟨.fbi, 0x118, 64, 18, 0, 1, 0, 3, .ro, 0x0, false⟩
def Fld.FB_WIRE_B : Fld := ⟨.fbi, 0x118, 64, 18, 0, 1, 3, 3, .ro, 0x0, false⟩
def Fld.FB_WIRE_Z : Fld := ⟨.fbi, 0x118, 64, 18, 0, 1, 6, 3, .ro, 0x0, false⟩
def Fld.FB_WIRE_WIRE_CNT : Fld := ⟨.fbi, 0x118, 64, 18, 0, 1, 16, 16, .ro, 0x0, false⟩

-- 07_feedback.md: FBn observation registers
def Fld.FB_POS_LO : Fld := ⟨.fbi, 0x11C, 64, 18, 0, 1, 0, 32, .ro, 0x0, false⟩
def Fld.FB_POS_HI : Fld := ⟨.fbi, 0x120, 64, 18, 0, 1, 0, 16, .ro, 0x0, false⟩
def Fld.FB_SPEED : Fld := ⟨.fbi, 0x124, 64, 18, 0, 1, 0, 32, .ro, 0x0, false⟩
def Fld.FB_SPER : Fld := ⟨.fbi, 0x128, 64, 18, 0, 1, 0, 32, .ro, 0x0, false⟩
def Fld.FB_SWIN : Fld := ⟨.fbi, 0x12C, 64, 18, 0, 1, 0, 32, .ro, 0x0, false⟩
def Fld.FB_IDXLAT_LO : Fld := ⟨.fbi, 0x130, 64, 18, 0, 1, 0, 32, .ro, 0x0, false⟩
def Fld.FB_IDXLAT_HI : Fld := ⟨.fbi, 0x134, 64, 18, 0, 1, 0, 16, .ro, 0x0, false⟩
def Fld.FB_ERRCNT_LINE_CNT : Fld := ⟨.fbi, 0x13C, 64, 18, 0, 1, 0, 16, .ro, 0x0, false⟩
def Fld.FB_ERRCNT_QUAD_CNT : Fld := ⟨.fbi, 0x13C, 64, 18, 0, 1, 16, 16, .ro, 0x0, false⟩

-- 07_feedback.md: POn_CFG, POn_NUM, POn_DEN, POn_STAT — pulse divider
def Fld.PO_CFG_SRC : Fld := ⟨.fbi, 0x800, 16, 4, 0, 1, 0, 5, .rws, 0x0, false⟩
def Fld.PO_CFG_ZOUT : Fld := ⟨.fbi, 0x800, 16, 4, 0, 1, 5, 1, .rws, 0x0, false⟩
def Fld.PO_CFG_EN : Fld := ⟨.fbi, 0x800, 16, 4, 0, 1, 6, 1, .rws, 0x0, false⟩
def Fld.PO_CFG_MIN_SEP : Fld := ⟨.fbi, 0x800, 16, 4, 0, 1, 8, 8, .rws, 0x5, false⟩
def Fld.PO_NUM : Fld := ⟨.fbi, 0x804, 16, 4, 0, 1, 0, 32, .rws, 0x0, false⟩
def Fld.PO_DEN : Fld := ⟨.fbi, 0x808, 16, 4, 0, 1, 0, 32, .rws, 0x1, false⟩
def Fld.PO_STAT_LAG : Fld := ⟨.fbi, 0x80C, 16, 4, 0, 1, 0, 1, .ro, 0x0, false⟩
def Fld.PO_STAT_OVR : Fld := ⟨.fbi, 0x80C, 16, 4, 0, 1, 1, 1, .w1c, 0x0, false⟩
def Fld.PO_STAT_SHORT : Fld := ⟨.fbi, 0x80C, 16, 4, 0, 1, 2, 1, .ro, 0x0, false⟩
def Fld.PO_STAT_BACKLOG : Fld := ⟨.fbi, 0x80C, 16, 4, 0, 1, 16, 16, .ro, 0x0, false⟩

-- 07_feedback.md: AIc_STAT — analog input status
def Fld.AI_STAT_RANGE : Fld := ⟨.fbi, 0xA00, 16, 4, 0, 1, 0, 1, .ro, 0x0, false⟩
def Fld.AI_STAT_CM : Fld := ⟨.fbi, 0xA00, 16, 4, 0, 1, 1, 1, .ro, 0x0, false⟩
def Fld.AI_STAT_FAULTY : Fld := ⟨.fbi, 0xA00, 16, 4, 0, 1, 2, 1, .ro, 0x0, false⟩
def Fld.AI_STAT_RAW : Fld := ⟨.fbi, 0xA00, 16, 4, 0, 1, 16, 16, .ro, 0x0, false⟩

-- 08_safety_plane.md: SAF_STATE — safety plane state
def Fld.SAF_STATE_MODE : Fld := ⟨.saf, 0x0, 0, 1, 0, 1, 0, 2, .ro, 0x0, false⟩
def Fld.SAF_STATE_CHA_OK : Fld := ⟨.saf, 0x0, 0, 1, 0, 1, 2, 1, .ro, 0x1, false⟩
def Fld.SAF_STATE_CHB_OK : Fld := ⟨.saf, 0x0, 0, 1, 0, 1, 3, 1, .ro, 0x1, false⟩
def Fld.SAF_STATE_HANDOVER : Fld := ⟨.saf, 0x0, 0, 1, 0, 1, 4, 1, .ro, 0x0, false⟩
def Fld.SAF_STATE_LOCKOUT : Fld := ⟨.saf, 0x0, 0, 1, 0, 1, 5, 1, .ro, 0x0, false⟩
def Fld.SAF_STATE_LAST_FAULT : Fld := ⟨.saf, 0x0, 0, 1, 0, 1, 16, 16, .ro, 0x0, false⟩

-- 08_safety_plane.md: SAF_DEGR_REMAIN — remaining degraded time
def Fld.SAF_DEGR_REMAIN : Fld := ⟨.saf, 0x4, 0, 1, 0, 1, 0, 20, .ro, 0x0, false⟩

-- 08_safety_plane.md: SAF_DEGR_CAUSE — degraded-mode causes
def Fld.SAF_DEGR_CAUSE : Fld := ⟨.saf, 0x8, 0, 1, 0, 1, 0, 9, .ro, 0x0, false⟩

-- 08_safety_plane.md: SAF_CMP — cross-comparison counters
def Fld.SAF_CMP_MISMATCH : Fld := ⟨.saf, 0xC, 0, 1, 0, 1, 0, 16, .ro, 0x0, false⟩
def Fld.SAF_CMP_DISCREP : Fld := ⟨.saf, 0xC, 0, 1, 0, 1, 16, 16, .ro, 0x0, false⟩

-- 08_safety_plane.md: SAF_SI — safety inputs
def Fld.SAF_SI_LEVEL : Fld := ⟨.saf, 0x10, 0, 1, 0, 1, 0, 16, .ro, 0x0, false⟩
def Fld.SAF_SI_DEMAND : Fld := ⟨.saf, 0x10, 0, 1, 0, 1, 16, 8, .ro, 0xFF, false⟩
def Fld.SAF_SI_DISC : Fld := ⟨.saf, 0x10, 0, 1, 0, 1, 24, 8, .ro, 0x0, false⟩

-- 08_safety_plane.md: SAF_SO — safety outputs
def Fld.SAF_SO_ON : Fld := ⟨.saf, 0x14, 0, 1, 0, 1, 0, 8, .ro, 0x0, false⟩
def Fld.SAF_SO_RB : Fld := ⟨.saf, 0x14, 0, 1, 0, 1, 8, 8, .ro, 0x0, false⟩
def Fld.SAF_SO_FLT : Fld := ⟨.saf, 0x14, 0, 1, 0, 1, 16, 8, .ro, 0x0, false⟩

-- 08_safety_plane.md: SAF_ED — contactor feedback
def Fld.SAF_ED_DROPPED : Fld := ⟨.saf, 0x18, 0, 1, 0, 1, 0, 8, .ro, 0x0, false⟩
def Fld.SAF_ED_LOCK : Fld := ⟨.saf, 0x18, 0, 1, 0, 1, 8, 8, .ro, 0x0, false⟩
def Fld.SAF_ED_IMPL : Fld := ⟨.saf, 0x18, 0, 1, 0, 1, 16, 8, .ro, 0x0, false⟩

-- 08_safety_plane.md: SAF_REQ — host stop requests for arms
def Fld.SAF_REQ_STO : Fld := ⟨.saf, 0x1C, 0, 1, 0, 1, 0, 8, .rw, 0x0, false⟩
def Fld.SAF_REQ_SS1 : Fld := ⟨.saf, 0x1C, 0, 1, 0, 1, 8, 8, .rw, 0x0, false⟩
def Fld.SAF_REQ_SS2 : Fld := ⟨.saf, 0x1C, 0, 1, 0, 1, 16, 8, .rw, 0x0, false⟩

-- 08_safety_plane.md: SAF_GREQ — host stop requests for groups
def Fld.SAF_GREQ_STO : Fld := ⟨.saf, 0x20, 0, 1, 0, 1, 0, 16, .rw, 0x0, false⟩
def Fld.SAF_GREQ_SS1 : Fld := ⟨.saf, 0x20, 0, 1, 0, 1, 16, 16, .rw, 0x0, false⟩

-- 08_safety_plane.md: SAF_GREQ2 — host SS2 requests for groups
def Fld.SAF_GREQ2_SS2 : Fld := ⟨.saf, 0x24, 0, 1, 0, 1, 0, 16, .rw, 0x0, false⟩

-- 08_safety_plane.md: SAF_ARMn_STAT — arm safety status
def Fld.SAF_ARM_STAT_STATE : Fld := ⟨.saf, 0x100, 8, 8, 0, 1, 0, 3, .ro, 0x4, false⟩
def Fld.SAF_ARM_STAT_FUNC : Fld := ⟨.saf, 0x100, 8, 8, 0, 1, 3, 3, .ro, 0x6, false⟩
def Fld.SAF_ARM_STAT_RAMP_QS : Fld := ⟨.saf, 0x100, 8, 8, 0, 1, 6, 1, .ro, 0x0, false⟩
def Fld.SAF_ARM_STAT_RESTART_WAIT : Fld := ⟨.saf, 0x100, 8, 8, 0, 1, 7, 1, .ro, 0x0, false⟩
def Fld.SAF_ARM_STAT_SCALE : Fld := ⟨.saf, 0x100, 8, 8, 0, 1, 16, 16, .ro, 0x0, false⟩

-- 08_safety_plane.md: SAF_ARMn_VMON — monitored speed
def Fld.SAF_ARM_VMON : Fld := ⟨.saf, 0x104, 8, 8, 0, 1, 0, 32, .ro, 0x0, false⟩

-- 08_safety_plane.md: SAF_GRPg_STAT — group safety status
def Fld.SAF_GRP_STAT_STATE : Fld := ⟨.saf, 0x200, 4, 16, 0, 1, 0, 3, .ro, 0x4, false⟩
def Fld.SAF_GRP_STAT_FUNC : Fld := ⟨.saf, 0x200, 4, 16, 0, 1, 3, 3, .ro, 0x6, false⟩
def Fld.SAF_GRP_STAT_RAMP_QS : Fld := ⟨.saf, 0x200, 4, 16, 0, 1, 6, 1, .ro, 0x0, false⟩
def Fld.SAF_GRP_STAT_RESTART_WAIT : Fld := ⟨.saf, 0x200, 4, 16, 0, 1, 7, 1, .ro, 0x0, false⟩
def Fld.SAF_GRP_STAT_SCALE : Fld := ⟨.saf, 0x200, 4, 16, 0, 1, 16, 16, .ro, 0x0, false⟩

-- 09_separation.md: SAF_ARMn_SEP — arm separation
def Fld.SAF_SEP_MINSEP : Fld := ⟨.saf, 0x300, 16, 8, 0, 1, 0, 32, .ro, 0x7FFFFFFF, false⟩
def Fld.SAF_SEP_SP : Fld := ⟨.saf, 0x304, 16, 8, 0, 1, 0, 32, .ro, 0x0, false⟩
def Fld.SAF_SEP_PAIR_TRACK : Fld := ⟨.saf, 0x308, 16, 8, 0, 1, 0, 7, .ro, 0x0, false⟩
def Fld.SAF_SEP_PAIR_SENSOR : Fld := ⟨.saf, 0x308, 16, 8, 0, 1, 8, 5, .ro, 0x0, false⟩
def Fld.SAF_SEP_PAIR_STOP : Fld := ⟨.saf, 0x308, 16, 8, 0, 1, 16, 1, .ro, 0x0, false⟩
def Fld.SAF_SEP_PAIR_INTRUSION : Fld := ⟨.saf, 0x308, 16, 8, 0, 1, 17, 1, .ro, 0x0, false⟩
def Fld.SAF_SEP_PAIR_CLEARING : Fld := ⟨.saf, 0x308, 16, 8, 0, 1, 18, 1, .ro, 0x0, false⟩
def Fld.SAF_SEP_SCALE_SSM_SCALE : Fld := ⟨.saf, 0x30C, 16, 8, 0, 1, 0, 16, .ro, 0x0, false⟩

-- 09_separation.md: SAF_SENSs_STAT — sensor status
def Fld.SAF_SENS_STAT_COND : Fld := ⟨.saf, 0x400, 16, 32, 0, 1, 0, 2, .ro, 0x2, false⟩
def Fld.SAF_SENS_STAT_SENS_FAULT : Fld := ⟨.saf, 0x400, 16, 32, 0, 1, 2, 1, .ro, 0x0, false⟩
def Fld.SAF_SENS_STAT_VER : Fld := ⟨.saf, 0x400, 16, 32, 0, 1, 3, 1, .ro, 0x0, true⟩
def Fld.SAF_SENS_STAT_NCAP : Fld := ⟨.saf, 0x400, 16, 32, 0, 1, 4, 5, .ro, 0x0, false⟩
def Fld.SAF_SENS_STAT_RECOVER : Fld := ⟨.saf, 0x400, 16, 32, 0, 1, 9, 7, .ro, 0x0, false⟩
def Fld.SAF_SENS_STAT_AGE : Fld := ⟨.saf, 0x400, 16, 32, 0, 1, 16, 16, .ro, 0xFFFF, false⟩

-- 09_separation.md: SAF_SENSs_SEQ — sensor sequence
def Fld.SAF_SENS_SEQ_SEQ_LAST : Fld := ⟨.saf, 0x404, 16, 32, 0, 1, 0, 32, .ro, 0x0, false⟩

-- 09_separation.md: SAF_SENSs_REJ — rejected parts
def Fld.SAF_SENS_REJ_CRC_CNT : Fld := ⟨.saf, 0x408, 16, 32, 0, 1, 0, 16, .ro, 0x0, false⟩
def Fld.SAF_SENS_REJ_OTHER_CNT : Fld := ⟨.saf, 0x408, 16, 32, 0, 1, 16, 16, .ro, 0x0, false⟩

-- 10_planes_racking.md: RED_ROLE — plane roles
def Fld.RED_ROLE_ACTIVE : Fld := ⟨.red, 0x0, 0, 1, 0, 1, 0, 1, .ro, 0x0, false⟩
def Fld.RED_ROLE_A_STATE : Fld := ⟨.red, 0x0, 0, 1, 0, 1, 1, 3, .ro, 0x0, false⟩
def Fld.RED_ROLE_B_STATE : Fld := ⟨.red, 0x0, 0, 1, 0, 1, 4, 3, .ro, 0x0, false⟩
def Fld.RED_ROLE_RIDDLE : Fld := ⟨.red, 0x0, 0, 1, 0, 1, 7, 1, .ro, 0x0, false⟩
def Fld.RED_ROLE_REVERT_PEND : Fld := ⟨.red, 0x0, 0, 1, 0, 1, 8, 1, .ro, 0x0, false⟩
def Fld.RED_ROLE_UNRES : Fld := ⟨.red, 0x0, 0, 1, 0, 1, 9, 1, .ro, 0x0, false⟩
def Fld.RED_ROLE_ROLE_CHG : Fld := ⟨.red, 0x0, 0, 1, 0, 1, 16, 16, .ro, 0x0, false⟩

-- 10_planes_racking.md: RED_RACK_GEN — racking generations
def Fld.RED_RACK_GEN : Fld := ⟨.red, 0x4, 0, 1, 0, 1, 0, 16, .ro, 0x0, false⟩
def Fld.RED_RACK_GEN_SHADOW_GEN : Fld := ⟨.red, 0x4, 0, 1, 0, 1, 16, 16, .ro, 0x0, false⟩

-- 10_planes_racking.md: RED_CFG — redundancy parameters
def Fld.RED_CFG_REVERT_T : Fld := ⟨.red, 0x8, 0, 1, 0, 1, 0, 12, .ro, 0x0, true⟩
def Fld.RED_CFG_RIDDLE_T : Fld := ⟨.red, 0x8, 0, 1, 0, 1, 12, 8, .ro, 0x0, true⟩
def Fld.RED_CFG_TASTE_CYC : Fld := ⟨.red, 0x8, 0, 1, 0, 1, 20, 4, .ro, 0x0, true⟩

-- 10_planes_racking.md: RED_RACK_SIZE — racking set size
def Fld.RED_RACK_SIZE_BYTES : Fld := ⟨.red, 0xC, 0, 1, 0, 1, 0, 20, .ro, 0x0, true⟩

-- 10_planes_racking.md: RED_CMP, RED_CMP_IDX, RED_CMP_CYC — comparison
def Fld.RED_CMP_MISMATCH : Fld := ⟨.red, 0x10, 0, 1, 0, 1, 0, 16, .ro, 0x0, false⟩
def Fld.RED_CMP_KIND : Fld := ⟨.red, 0x10, 0, 1, 0, 1, 16, 3, .ro, 0x0, false⟩
def Fld.RED_CMP_IDX_INDEX : Fld := ⟨.red, 0x14, 0, 1, 0, 1, 0, 16, .ro, 0x0, false⟩
def Fld.RED_CMP_CYC_CYCNT : Fld := ⟨.red, 0x18, 0, 1, 0, 1, 0, 32, .ro, 0x0, false⟩

-- 10_planes_racking.md: RED_TASTE — tasting verdicts
def Fld.RED_TASTE_A : Fld := ⟨.red, 0x1C, 0, 1, 0, 1, 0, 2, .ro, 0x0, false⟩
def Fld.RED_TASTE_B : Fld := ⟨.red, 0x1C, 0, 1, 0, 1, 2, 2, .ro, 0x0, false⟩
def Fld.RED_TASTE_COUNT : Fld := ⟨.red, 0x1C, 0, 1, 0, 1, 16, 16, .ro, 0x0, false⟩

-- 10_planes_racking.md: RED_BULK — bulk racking progress
def Fld.RED_BULK_PASS : Fld := ⟨.red, 0x20, 0, 1, 0, 1, 0, 8, .ro, 0x0, false⟩
def Fld.RED_BULK_LINES : Fld := ⟨.red, 0x20, 0, 1, 0, 1, 8, 24, .ro, 0x0, false⟩

-- 10_planes_racking.md: RED_TIMER — revert and riddle timers
def Fld.RED_TIMER_REVERT_REMAIN : Fld := ⟨.red, 0x24, 0, 1, 0, 1, 0, 16, .ro, 0x0, false⟩
def Fld.RED_TIMER_RIDDLE_REMAIN : Fld := ⟨.red, 0x24, 0, 1, 0, 1, 16, 16, .ro, 0x0, false⟩

-- 10_planes_racking.md: RED_CMD — redundancy commands
def Fld.RED_CMD_RIDDLE_NOW : Fld := ⟨.red, 0x28, 0, 1, 0, 1, 0, 1, .wo, 0x0, false⟩
def Fld.RED_CMD_CLR_CNT : Fld := ⟨.red, 0x28, 0, 1, 0, 1, 1, 1, .wo, 0x0, false⟩

-- 11_time_bases.md: TBn_CTL — base control
def Fld.TB_CTL_SRC : Fld := ⟨.time, 0x100, 64, 8, 0, 1, 0, 3, .ro, 0x0, true⟩
def Fld.TB_CTL_REF : Fld := ⟨.time, 0x100, 64, 8, 0, 1, 3, 3, .ro, 0x0, true⟩
def Fld.TB_CTL_PI : Fld := ⟨.time, 0x100, 64, 8, 0, 1, 6, 1, .ro, 0x0, true⟩
def Fld.TB_CTL_FORCE_HOLD : Fld := ⟨.time, 0x100, 64, 8, 0, 1, 8, 1, .rws, 0x0, false⟩
def Fld.TB_CTL_SLEW_PPM : Fld := ⟨.time, 0x100, 64, 8, 0, 1, 16, 10, .rws, 0x1F4, false⟩

-- 11_time_bases.md: TBn_STAT — base status
def Fld.TB_STAT_STATE : Fld := ⟨.time, 0x104, 64, 8, 0, 1, 0, 2, .ro, 0x0, false⟩
def Fld.TB_STAT_CLAMP : Fld := ⟨.time, 0x104, 64, 8, 0, 1, 2, 1, .w1c, 0x0, false⟩
def Fld.TB_STAT_FAR : Fld := ⟨.time, 0x104, 64, 8, 0, 1, 3, 1, .ro, 0x0, false⟩
def Fld.TB_STAT_STEPPED : Fld := ⟨.time, 0x104, 64, 8, 0, 1, 4, 1, .w1c, 0x0, false⟩
def Fld.TB_STAT_REV : Fld := ⟨.time, 0x104, 64, 8, 0, 1, 5, 1, .ro, 0x0, false⟩

-- 11_time_bases.md: TBn_RATE, TBn_SLEW, TBn_SREM, TBn_AGE — rate, slew and holdover
def Fld.TB_RATE : Fld := ⟨.time, 0x108, 64, 8, 0, 1, 0, 32, .rws, 0x0, false⟩
def Fld.TB_SLEW : Fld := ⟨.time, 0x10C, 64, 8, 0, 1, 0, 32, .rws, 0x0, false⟩
def Fld.TB_SREM : Fld := ⟨.time, 0x110, 64, 8, 0, 1, 0, 32, .ro, 0x0, false⟩
def Fld.TB_AGE_HOLD_AGE : Fld := ⟨.time, 0x114, 64, 8, 0, 1, 0, 32, .ro, 0x0, false⟩

-- 11_time_bases.md: TBn_NOW — live value
def Fld.TB_NOW_NS : Fld := ⟨.time, 0x118, 64, 8, 0, 1, 0, 30, .ro, 0x0, false⟩
def Fld.TB_NOW_SL : Fld := ⟨.time, 0x11C, 64, 8, 0, 1, 0, 32, .ro, 0x0, false⟩
def Fld.TB_NOW_SEC_HI : Fld := ⟨.time, 0x120, 64, 8, 0, 1, 0, 16, .ro, 0x0, false⟩
def Fld.TB_NOW_FRAC : Fld := ⟨.time, 0x120, 64, 8, 0, 1, 16, 16, .ro, 0x0, false⟩

-- 11_time_bases.md: TBn_BSNAP — boundary snapshot
def Fld.TB_BSNAP_NS : Fld := ⟨.time, 0x124, 64, 8, 0, 1, 0, 30, .ro, 0x0, false⟩
def Fld.TB_BSNAP_SL : Fld := ⟨.time, 0x128, 64, 8, 0, 1, 0, 32, .ro, 0x0, false⟩
def Fld.TB_BSNAP_SEC_HI : Fld := ⟨.time, 0x12C, 64, 8, 0, 1, 0, 16, .ro, 0x0, false⟩
def Fld.TB_BSNAP_FRAC : Fld := ⟨.time, 0x12C, 64, 8, 0, 1, 16, 16, .ro, 0x0, false⟩
def Fld.TB_BSNAP_CYC : Fld := ⟨.time, 0x130, 64, 8, 0, 1, 0, 32, .ro, 0x0, false⟩

-- 11_time_bases.md: TBn_RHO, TBn_OFS — pulse ratio and follow offset
def Fld.TB_RHO : Fld := ⟨.time, 0x134, 64, 8, 0, 1, 0, 32, .ro, 0x0, false⟩
def Fld.TB_OFS : Fld := ⟨.time, 0x138, 64, 8, 0, 1, 0, 32, .ro, 0x0, true⟩

-- 11_time_bases.md: TEVn — timed event output
def Fld.TEV_CFG_BASE : Fld := ⟨.time, 0x800, 32, 8, 0, 1, 0, 3, .rws, 0x0, false⟩
def Fld.TEV_CFG_MODE : Fld := ⟨.time, 0x800, 32, 8, 0, 1, 3, 1, .rws, 0x0, false⟩
def Fld.TEV_CFG_POL : Fld := ⟨.time, 0x800, 32, 8, 0, 1, 4, 1, .rws, 0x0, false⟩
def Fld.TEV_CFG_ARM : Fld := ⟨.time, 0x800, 32, 8, 0, 1, 5, 1, .rws, 0x0, false⟩
def Fld.TEV_CFG_IRQ : Fld := ⟨.time, 0x800, 32, 8, 0, 1, 6, 1, .rws, 0x0, false⟩
def Fld.TEV_CFG_DLY : Fld := ⟨.time, 0x800, 32, 8, 0, 1, 8, 8, .rws, 0x0, false⟩
def Fld.TEV_CFG_WIDTH : Fld := ⟨.time, 0x800, 32, 8, 0, 1, 16, 16, .rws, 0x64, false⟩
def Fld.TEV_T_NS : Fld := ⟨.time, 0x804, 32, 8, 0, 1, 0, 30, .rws, 0x0, false⟩
def Fld.TEV_T_SL : Fld := ⟨.time, 0x808, 32, 8, 0, 1, 0, 32, .rws, 0x0, false⟩
def Fld.TEV_T_SEC_HI : Fld := ⟨.time, 0x80C, 32, 8, 0, 1, 0, 16, .rws, 0x0, false⟩
def Fld.TEV_T_FRAC : Fld := ⟨.time, 0x80C, 32, 8, 0, 1, 16, 16, .rws, 0x0, false⟩
def Fld.TEV_PER : Fld := ⟨.time, 0x810, 32, 8, 0, 1, 0, 32, .rws, 0x0, false⟩
def Fld.TEV_PERF_PER_FRAC : Fld := ⟨.time, 0x814, 32, 8, 0, 1, 0, 16, .rws, 0x0, false⟩
def Fld.TEV_STAT_COUNT : Fld := ⟨.time, 0x818, 32, 8, 0, 1, 0, 16, .ro, 0x0, false⟩
def Fld.TEV_STAT_SKIP : Fld := ⟨.time, 0x818, 32, 8, 0, 1, 16, 8, .ro, 0x0, false⟩
def Fld.TEV_STAT_LATE : Fld := ⟨.time, 0x818, 32, 8, 0, 1, 24, 1, .w1c, 0x0, false⟩

-- 11_time_bases.md: PTPp — IEEE 1588 port
def Fld.PTP_LAT_RX_LAT : Fld := ⟨.time, 0xC00, 32, 2, 0, 1, 0, 16, .rws, 0x0, false⟩
def Fld.PTP_LAT_TX_LAT : Fld := ⟨.time, 0xC00, 32, 2, 0, 1, 16, 16, .rws, 0x0, false⟩
def Fld.PTP_INFO_SEQ_ID : Fld := ⟨.time, 0xC04, 32, 2, 0, 1, 0, 16, .ro, 0x0, false⟩
def Fld.PTP_INFO_MSG : Fld := ⟨.time, 0xC04, 32, 2, 0, 1, 16, 4, .ro, 0x0, false⟩
def Fld.PTP_INFO_DIR : Fld := ⟨.time, 0xC04, 32, 2, 0, 1, 20, 1, .ro, 0x0, false⟩
def Fld.PTP_INFO_ON_TB3 : Fld := ⟨.time, 0xC04, 32, 2, 0, 1, 21, 1, .ro, 0x0, false⟩
def Fld.PTP_INFO_VALID : Fld := ⟨.time, 0xC04, 32, 2, 0, 1, 31, 1, .ro, 0x0, false⟩
def Fld.PTP_TS_NS : Fld := ⟨.time, 0xC08, 32, 2, 0, 1, 0, 30, .ro, 0x0, false⟩
def Fld.PTP_TS_SL : Fld := ⟨.time, 0xC0C, 32, 2, 0, 1, 0, 32, .ro, 0x0, false⟩
def Fld.PTP_TS_SEC_HI : Fld := ⟨.time, 0xC10, 32, 2, 0, 1, 0, 16, .ro, 0x0, false⟩
def Fld.PTP_TS_FRAC : Fld := ⟨.time, 0xC10, 32, 2, 0, 1, 16, 16, .ro, 0x0, false⟩
def Fld.PTP_CFG_SYNC_TMO : Fld := ⟨.time, 0xC14, 32, 2, 0, 1, 0, 16, .rws, 0xBB8, false⟩
def Fld.PTP_CFG_HOLD_SRC : Fld := ⟨.time, 0xC14, 32, 2, 0, 1, 16, 1, .rws, 0x0, false⟩

-- 12_lockstitch_schedule.md: LSn_SCHED — schedule summary
def Fld.LS_SCHED_NSLOT : Fld := ⟨.lsr, 0x120, 128, 4, 0, 1, 0, 11, .ro, 0x0, true⟩
def Fld.LS_SCHED_NCTL : Fld := ⟨.lsr, 0x120, 128, 4, 0, 1, 11, 2, .ro, 0x0, true⟩
def Fld.LS_SCHED_GUARD : Fld := ⟨.lsr, 0x120, 128, 4, 0, 1, 16, 10, .ro, 0x0, true⟩

-- 12_lockstitch_schedule.md: LSn_DIGEST, LSn_SLEAD, LSn_DLOOP — schedule identity and delays
def Fld.LS_DIGEST_SCHED : Fld := ⟨.lsr, 0x124, 128, 4, 0, 1, 0, 32, .ro, 0x0, true⟩
def Fld.LS_SLEAD_SYNC_LEAD : Fld := ⟨.lsr, 0x128, 128, 4, 0, 1, 0, 16, .ro, 0x0, true⟩
def Fld.LS_DLOOP_P : Fld := ⟨.lsr, 0x12C, 128, 4, 0, 1, 0, 16, .ro, 0x0, false⟩
def Fld.LS_DLOOP_S : Fld := ⟨.lsr, 0x12C, 128, 4, 0, 1, 16, 16, .ro, 0x0, false⟩

-- 12_lockstitch_schedule.md: LSn_ERR, LSn_ERR2, LSn_CMD — port counters and commands
def Fld.LS_ERR_FRAME_ERR : Fld := ⟨.lsr, 0x130, 128, 4, 0, 1, 0, 16, .ro, 0x0, false⟩
def Fld.LS_ERR_ABORT : Fld := ⟨.lsr, 0x130, 128, 4, 0, 1, 16, 16, .ro, 0x0, false⟩
def Fld.LS_ERR2_COPY_DIFF : Fld := ⟨.lsr, 0x134, 128, 4, 0, 1, 0, 16, .ro, 0x0, false⟩
def Fld.LS_ERR2_MUTE : Fld := ⟨.lsr, 0x134, 128, 4, 0, 1, 16, 16, .ro, 0x0, false⟩
def Fld.LS_CMD_CLR_CNT : Fld := ⟨.lsr, 0x138, 128, 4, 0, 1, 0, 1, .wo, 0x0, false⟩

-- 12_lockstitch_schedule.md: LSn_SLOTs — slot counters
def Fld.LS_SLOT_CNT_EMPTY_CNT : Fld := ⟨.lsr, 0x8000, 8192, 4, 8, 1024, 0, 16, .ro, 0x0, false⟩
def Fld.LS_SLOT_CNT_BV_CNT : Fld := ⟨.lsr, 0x8000, 8192, 4, 8, 1024, 16, 16, .ro, 0x0, false⟩
def Fld.LS_SLOT_INFO_MUX : Fld := ⟨.lsr, 0x8004, 8192, 4, 8, 1024, 0, 3, .ro, 0x0, true⟩
def Fld.LS_SLOT_INFO_LAST_EMPTY : Fld := ⟨.lsr, 0x8004, 8192, 4, 8, 1024, 3, 1, .ro, 0x0, false⟩
def Fld.LS_SLOT_INFO_LAST_P : Fld := ⟨.lsr, 0x8004, 8192, 4, 8, 1024, 4, 1, .ro, 0x0, false⟩
def Fld.LS_SLOT_INFO_LAST_S : Fld := ⟨.lsr, 0x8004, 8192, 4, 8, 1024, 5, 1, .ro, 0x0, false⟩
def Fld.LS_SLOT_INFO_ERR_CNT : Fld := ⟨.lsr, 0x8004, 8192, 4, 8, 1024, 16, 16, .ro, 0x0, false⟩

-- 13_lockstitch_startup_healing.md: LSn_STATE — port state
def Fld.LS_STATE : Fld := ⟨.lsr, 0x100, 128, 4, 0, 1, 0, 4, .ro, 0x0, false⟩
def Fld.LS_STATE_ROLE : Fld := ⟨.lsr, 0x100, 128, 4, 0, 1, 4, 2, .ro, 0x0, false⟩
def Fld.LS_STATE_WRAPPED : Fld := ⟨.lsr, 0x100, 128, 4, 0, 1, 6, 1, .ro, 0x0, false⟩
def Fld.LS_STATE_PART : Fld := ⟨.lsr, 0x100, 128, 4, 0, 1, 7, 1, .ro, 0x0, false⟩
def Fld.LS_STATE_LRANK : Fld := ⟨.lsr, 0x100, 128, 4, 0, 1, 8, 4, .ro, 0x0, false⟩
def Fld.LS_STATE_VER : Fld := ⟨.lsr, 0x100, 128, 4, 0, 1, 12, 2, .ro, 0x0, false⟩
def Fld.LS_STATE_OPEN : Fld := ⟨.lsr, 0x100, 128, 4, 0, 1, 14, 1, .w1c, 0x0, false⟩
def Fld.LS_STATE_BREAK_AT : Fld := ⟨.lsr, 0x100, 128, 4, 0, 1, 16, 9, .ro, 0x0, false⟩

-- 13_lockstitch_startup_healing.md: LSn_NODES — admission summary
def Fld.LS_NODES_ADMITTED : Fld := ⟨.lsr, 0x104, 128, 4, 0, 1, 0, 10, .ro, 0x0, false⟩
def Fld.LS_NODES_ABSENT : Fld := ⟨.lsr, 0x104, 128, 4, 0, 1, 16, 10, .ro, 0x0, false⟩

-- 13_lockstitch_startup_healing.md: LSn_NSEL, LSn_NINFO, LSn_NDELAY — node inspection
def Fld.LS_NSEL_ADDR : Fld := ⟨.lsr, 0x108, 128, 4, 0, 1, 0, 9, .rw, 0x0, false⟩
def Fld.LS_NINFO_STATE : Fld := ⟨.lsr, 0x10C, 128, 4, 0, 1, 0, 3, .ro, 0x0, false⟩
def Fld.LS_NINFO_LATE : Fld := ⟨.lsr, 0x10C, 128, 4, 0, 1, 3, 1, .ro, 0x0, false⟩
def Fld.LS_NINFO_LSVER : Fld := ⟨.lsr, 0x10C, 128, 4, 0, 1, 4, 2, .ro, 0x0, false⟩
def Fld.LS_NINFO_SFVER : Fld := ⟨.lsr, 0x10C, 128, 4, 0, 1, 6, 2, .ro, 0x0, false⟩
def Fld.LS_NINFO_REASON : Fld := ⟨.lsr, 0x10C, 128, 4, 0, 1, 16, 16, .ro, 0x0, false⟩
def Fld.LS_NDELAY_D_IN : Fld := ⟨.lsr, 0x110, 128, 4, 0, 1, 0, 16, .ro, 0x0, false⟩
def Fld.LS_NDELAY_D_S : Fld := ⟨.lsr, 0x110, 128, 4, 0, 1, 16, 16, .ro, 0x0, false⟩

-- 13_lockstitch_startup_healing.md: LSn_CLAIM, LSn_HEAL — claim and healing counters
def Fld.LS_CLAIM_GRANTED : Fld := ⟨.lsr, 0x114, 128, 4, 0, 1, 0, 16, .ro, 0x0, false⟩
def Fld.LS_CLAIM_COLL : Fld := ⟨.lsr, 0x114, 128, 4, 0, 1, 16, 16, .ro, 0x0, false⟩
def Fld.LS_HEAL_WRAP_CNT : Fld := ⟨.lsr, 0x118, 128, 4, 0, 1, 0, 16, .ro, 0x0, false⟩
def Fld.LS_HEAL_PART_CNT : Fld := ⟨.lsr, 0x118, 128, 4, 0, 1, 16, 16, .ro, 0x0, false⟩

-- 13_lockstitch_startup_healing.md: LSn_START — port start-up commands
def Fld.LS_START_RESTART : Fld := ⟨.lsr, 0x11C, 128, 4, 0, 1, 0, 1, .wo, 0x0, false⟩
def Fld.LS_START_CLR_HEAL : Fld := ⟨.lsr, 0x11C, 128, 4, 0, 1, 1, 1, .wo, 0x0, false⟩

-- 14_capture_cellar_book.md: CAP_ARM — arming
def Fld.CAP_ARM : Fld := ⟨.cap, 0xC, 0, 1, 0, 1, 0, 1, .wo, 0x0, false⟩
def Fld.CAP_ARM_STOP : Fld := ⟨.cap, 0xC, 0, 1, 0, 1, 1, 1, .wo, 0x0, false⟩
def Fld.CAP_ARM_ARM_ERR : Fld := ⟨.cap, 0xC, 0, 1, 0, 1, 2, 1, .w1c, 0x0, false⟩

-- 14_capture_cellar_book.md: CAP_CFG, CAP_STAT — plan configuration and state
def Fld.CAP_CFG_BASE : Fld := ⟨.cap, 0x8, 0, 1, 0, 1, 0, 4, .ro, 0x0, true⟩
def Fld.CAP_CFG_POST_T : Fld := ⟨.cap, 0x8, 0, 1, 0, 1, 16, 16, .rws, 0x0, false⟩
def Fld.CAP_STAT_STATE : Fld := ⟨.cap, 0x10, 0, 1, 0, 1, 0, 2, .ro, 0x0, false⟩
def Fld.CAP_STAT_OVERWRITE : Fld := ⟨.cap, 0x10, 0, 1, 0, 1, 2, 1, .w1c, 0x0, false⟩
def Fld.CAP_STAT_TRG_ERR : Fld := ⟨.cap, 0x10, 0, 1, 0, 1, 3, 1, .ro, 0x0, false⟩
def Fld.CAP_STAT_STOP_TRG : Fld := ⟨.cap, 0x10, 0, 1, 0, 1, 4, 4, .ro, 0x0, false⟩
def Fld.CAP_STAT_BAD_TRG : Fld := ⟨.cap, 0x10, 0, 1, 0, 1, 8, 4, .ro, 0x0, false⟩

-- 14_capture_cellar_book.md: CAP_HEAD, CAP_OLDEST, CAP_RD, CAP_SIZE — capture region
def Fld.CAP_HEAD : Fld := ⟨.cap, 0x18, 0, 1, 0, 1, 0, 32, .ro, 0x0, false⟩
def Fld.CAP_OLDEST : Fld := ⟨.cap, 0x1C, 0, 1, 0, 1, 0, 32, .ro, 0x0, false⟩
def Fld.CAP_RD : Fld := ⟨.cap, 0x20, 0, 1, 0, 1, 0, 32, .rw, 0x0, false⟩
def Fld.CAP_SIZE : Fld := ⟨.cap, 0x24, 0, 1, 0, 1, 0, 32, .ro, 0x0, true⟩

-- 14_capture_cellar_book.md: CAP_CHc — channel
def Fld.CAP_CH_CFG_SRC : Fld := ⟨.cap, 0x100, 16, 256, 0, 1, 0, 16, .ro, 0x0, true⟩
def Fld.CAP_CH_CFG_FMT : Fld := ⟨.cap, 0x100, 16, 256, 0, 1, 16, 1, .ro, 0x0, true⟩
def Fld.CAP_CH_CFG_EN : Fld := ⟨.cap, 0x100, 16, 256, 0, 1, 17, 1, .rws, 0x0, true⟩
def Fld.CAP_CH_CFG_DIV : Fld := ⟨.cap, 0x100, 16, 256, 0, 1, 18, 10, .rws, 0x0, true⟩
def Fld.CAP_CH_DB : Fld := ⟨.cap, 0x104, 16, 256, 0, 1, 0, 32, .rws, 0x0, true⟩
def Fld.CAP_CH_LAST_VALUE : Fld := ⟨.cap, 0x108, 16, 256, 0, 1, 0, 32, .ro, 0x0, false⟩

-- 14_capture_cellar_book.md: CAP_TRGt — trigger
def Fld.CAP_TRG_CFG_TYPE : Fld := ⟨.cap, 0x1100, 32, 16, 0, 1, 0, 3, .rws, 0x0, true⟩
def Fld.CAP_TRG_CFG_DIR : Fld := ⟨.cap, 0x1100, 32, 16, 0, 1, 3, 2, .rws, 0x0, false⟩
def Fld.CAP_TRG_CFG_CH : Fld := ⟨.cap, 0x1100, 32, 16, 0, 1, 5, 8, .rws, 0x0, true⟩
def Fld.CAP_TRG_CFG_LINE : Fld := ⟨.cap, 0x1100, 32, 16, 0, 1, 13, 2, .rws, 0x0, false⟩
def Fld.CAP_TRG_CFG_STOP : Fld := ⟨.cap, 0x1100, 32, 16, 0, 1, 15, 1, .rws, 0x0, false⟩
def Fld.CAP_TRG_CFG_OUT_EN : Fld := ⟨.cap, 0x1100, 32, 16, 0, 1, 16, 1, .rws, 0x0, false⟩
def Fld.CAP_TRG_CFG_OUT_LINE : Fld := ⟨.cap, 0x1100, 32, 16, 0, 1, 17, 2, .rws, 0x0, false⟩
def Fld.CAP_TRG_CFG_IRQ : Fld := ⟨.cap, 0x1100, 32, 16, 0, 1, 19, 1, .rws, 0x0, false⟩
def Fld.CAP_TRG_A : Fld := ⟨.cap, 0x1104, 32, 16, 0, 1, 0, 32, .rws, 0x0, false⟩
def Fld.CAP_TRG_B : Fld := ⟨.cap, 0x1108, 32, 16, 0, 1, 0, 32, .rws, 0x0, false⟩
def Fld.CAP_TRG_HOLD_HOLDOFF : Fld := ⟨.cap, 0x110C, 32, 16, 0, 1, 0, 16, .rws, 0x64, false⟩
def Fld.CAP_TRG_STAT_COUNT : Fld := ⟨.cap, 0x1110, 32, 16, 0, 1, 0, 16, .ro, 0x0, false⟩
def Fld.CAP_TRG_STAT_FIRED : Fld := ⟨.cap, 0x1110, 32, 16, 0, 1, 16, 1, .w1c, 0x0, false⟩
def Fld.CAP_TRG_T_NS : Fld := ⟨.cap, 0x1114, 32, 16, 0, 1, 0, 30, .ro, 0x0, false⟩
def Fld.CAP_TRG_T_SL : Fld := ⟨.cap, 0x1118, 32, 16, 0, 1, 0, 32, .ro, 0x0, false⟩
def Fld.CAP_TRG_T_SEC_HI : Fld := ⟨.cap, 0x111C, 32, 16, 0, 1, 0, 16, .ro, 0x0, false⟩
def Fld.CAP_TRG_T_FRAC : Fld := ⟨.cap, 0x111C, 32, 16, 0, 1, 16, 16, .ro, 0x0, false⟩

-- 14_capture_cellar_book.md: CAP_TBUS — trigger bus
def Fld.CAP_TBUS_CTL_INDEX : Fld := ⟨.cap, 0x1400, 0, 1, 0, 1, 0, 4, .ro, 0x0, true⟩
def Fld.CAP_TBUS_CTL_PRESENT : Fld := ⟨.cap, 0x1400, 0, 1, 0, 1, 4, 16, .ro, 0x0, true⟩
def Fld.CAP_TBUS_CTL_CAL : Fld := ⟨.cap, 0x1400, 0, 1, 0, 1, 20, 1, .wo, 0x0, false⟩
def Fld.CAP_TBUS_STAT_CAL_DONE : Fld := ⟨.cap, 0x1404, 0, 1, 0, 1, 0, 1, .ro, 0x0, false⟩
def Fld.CAP_TBUS_STAT_CAL_RUN : Fld := ⟨.cap, 0x1404, 0, 1, 0, 1, 1, 1, .ro, 0x0, false⟩
def Fld.CAP_TBUS_STAT_LINE_FLT : Fld := ⟨.cap, 0x1404, 0, 1, 0, 1, 2, 4, .ro, 0x0, false⟩
def Fld.CAP_TBUS_STAT_UNKNOWN : Fld := ⟨.cap, 0x1404, 0, 1, 0, 1, 16, 16, .ro, 0x0, false⟩
def Fld.CAP_TBUS_DLY_DELAY : Fld := ⟨.cap, 0x1500, 64, 4, 4, 16, 0, 16, .ro, 0x0, false⟩
def Fld.CAP_TBUS_DLY_VALID : Fld := ⟨.cap, 0x1500, 64, 4, 4, 16, 16, 1, .ro, 0x0, false⟩

-- 14_capture_cellar_book.md: CEL — cellar region
def Fld.CEL_HEAD : Fld := ⟨.cap, 0x1800, 0, 1, 0, 1, 0, 32, .ro, 0x0, false⟩
def Fld.CEL_OLDEST : Fld := ⟨.cap, 0x1804, 0, 1, 0, 1, 0, 32, .ro, 0x0, false⟩
def Fld.CEL_RD : Fld := ⟨.cap, 0x1808, 0, 1, 0, 1, 0, 32, .rw, 0x0, false⟩
def Fld.CEL_LOSS : Fld := ⟨.cap, 0x180C, 0, 1, 0, 1, 0, 32, .ro, 0x0, false⟩
def Fld.CEL_SIZE : Fld := ⟨.cap, 0x1810, 0, 1, 0, 1, 0, 32, .ro, 0x0, true⟩

-- 16_dispatch_interrupts.md: TSK_STATUS — dispatcher status
def Fld.TSK_STATUS_NTASK : Fld := ⟨.tsk, 0x8, 0, 1, 0, 1, 0, 11, .ro, 0x0, true⟩
def Fld.TSK_STATUS_QUSED : Fld := ⟨.tsk, 0x8, 0, 1, 0, 1, 11, 13, .ro, 0x0, false⟩

-- 16_dispatch_interrupts.md: TSK_POST, TSK_POST_ARG — post
def Fld.TSK_POST_TASK : Fld := ⟨.tsk, 0x10, 0, 1, 0, 1, 0, 10, .wo, 0x0, false⟩

-- 16_dispatch_interrupts.md: TSK_COREc — core dispatch state
def Fld.TSK_CORE_STAT_CUR : Fld := ⟨.tsk, 0x100, 16, 10, 0, 1, 0, 10, .ro, 0x3FF, false⟩
def Fld.TSK_CORE_STAT_CUR_INT : Fld := ⟨.tsk, 0x100, 16, 10, 0, 1, 10, 1, .ro, 0x0, false⟩
def Fld.TSK_CORE_STAT_PRIO : Fld := ⟨.tsk, 0x100, 16, 10, 0, 1, 11, 5, .ro, 0x0, false⟩
def Fld.TSK_CORE_STAT_STALL : Fld := ⟨.tsk, 0x100, 16, 10, 0, 1, 16, 1, .ro, 0x0, false⟩
def Fld.TSK_CORE_SWITCHES_COUNT : Fld := ⟨.tsk, 0x104, 16, 10, 0, 1, 0, 32, .ro, 0x0, false⟩
def Fld.TSK_CORE_BASE : Fld := ⟨.tsk, 0x108, 16, 10, 0, 1, 0, 32, .ro, 0x0, true⟩

-- 16_dispatch_interrupts.md: TSK_TMRt — timer
def Fld.TSK_TMR_CTL_BASE : Fld := ⟨.tsk, 0x400, 32, 64, 0, 1, 0, 3, .rw, 0x0, false⟩
def Fld.TSK_TMR_CTL_MODE : Fld := ⟨.tsk, 0x400, 32, 64, 0, 1, 3, 1, .rw, 0x0, false⟩
def Fld.TSK_TMR_CTL_ARM : Fld := ⟨.tsk, 0x400, 32, 64, 0, 1, 4, 1, .wo, 0x0, false⟩
def Fld.TSK_TMR_CTL_DISARM : Fld := ⟨.tsk, 0x400, 32, 64, 0, 1, 5, 1, .wo, 0x0, false⟩
def Fld.TSK_TMR_CTL_ARMED : Fld := ⟨.tsk, 0x400, 32, 64, 0, 1, 6, 1, .ro, 0x0, false⟩
def Fld.TSK_TMR_T_NS : Fld := ⟨.tsk, 0x404, 32, 64, 0, 1, 0, 30, .rw, 0x0, false⟩
def Fld.TSK_TMR_T_SL : Fld := ⟨.tsk, 0x408, 32, 64, 0, 1, 0, 32, .rw, 0x0, false⟩
def Fld.TSK_TMR_T_SEC_HI : Fld := ⟨.tsk, 0x40C, 32, 64, 0, 1, 0, 16, .rw, 0x0, false⟩
def Fld.TSK_TMR_T_FRAC : Fld := ⟨.tsk, 0x40C, 32, 64, 0, 1, 16, 16, .rw, 0x0, false⟩
def Fld.TSK_TMR_PER : Fld := ⟨.tsk, 0x410, 32, 64, 0, 1, 0, 32, .rw, 0x0, false⟩
def Fld.TSK_TMR_PERF_PER_FRAC : Fld := ⟨.tsk, 0x414, 32, 64, 0, 1, 0, 16, .rw, 0x0, false⟩
def Fld.TSK_TMR_STAT_COUNT : Fld := ⟨.tsk, 0x418, 32, 64, 0, 1, 0, 16, .ro, 0x0, false⟩
def Fld.TSK_TMR_STAT_LATE : Fld := ⟨.tsk, 0x418, 32, 64, 0, 1, 16, 1, .w1c, 0x0, false⟩

-- 16_dispatch_interrupts.md: TSK_TASKn — task
def Fld.TSK_TASK_QLEVEL : Fld := ⟨.tsk, 0x8018, 32, 1024, 0, 1, 0, 7, .ro, 0x0, false⟩
def Fld.TSK_TASK_EN : Fld := ⟨.tsk, 0x8018, 32, 1024, 0, 1, 7, 1, .rw, 0x1, false⟩
def Fld.TSK_TASK_RUN : Fld := ⟨.tsk, 0x8018, 32, 1024, 0, 1, 8, 1, .ro, 0x0, false⟩
def Fld.TSK_TASK_OVF : Fld := ⟨.tsk, 0x8018, 32, 1024, 0, 1, 16, 16, .ro, 0x0, false⟩
def Fld.TSK_TASK_SEQ : Fld := ⟨.tsk, 0x801C, 32, 1024, 0, 1, 0, 32, .ro, 0x0, false⟩

-- 16_dispatch_interrupts.md: ICU_VBASE, ICU_FALLBACK, ICU_RAISE — controller
def Fld.ICU_VBASE : Fld := ⟨.icu, 0x8, 0, 1, 0, 1, 13, 19, .ro, 0x0, true⟩
def Fld.ICU_FALLBACK_CORE : Fld := ⟨.icu, 0xC, 0, 1, 0, 1, 0, 4, .rw, 0x8, false⟩
def Fld.ICU_RAISE_SRC : Fld := ⟨.icu, 0x10, 0, 1, 0, 1, 0, 9, .wo, 0x0, false⟩

-- 16_dispatch_interrupts.md: ICU_COREc — per-core interrupt state
def Fld.ICU_CORE_CTL_THRESH : Fld := ⟨.icu, 0x100, 16, 10, 0, 1, 0, 4, .rw, 0x0, true⟩
def Fld.ICU_CORE_STAT_LEVEL : Fld := ⟨.icu, 0x104, 16, 10, 0, 1, 0, 4, .ro, 0x0, false⟩
def Fld.ICU_CORE_STAT_DEPTH : Fld := ⟨.icu, 0x104, 16, 10, 0, 1, 4, 4, .ro, 0x0, false⟩
def Fld.ICU_CORE_STAT_ASLEEP : Fld := ⟨.icu, 0x104, 16, 10, 0, 1, 8, 1, .ro, 0x0, false⟩
def Fld.ICU_CORE_STAT_OFF : Fld := ⟨.icu, 0x104, 16, 10, 0, 1, 9, 1, .ro, 0x0, false⟩
def Fld.ICU_CORE_STAT_DEFER : Fld := ⟨.icu, 0x104, 16, 10, 0, 1, 10, 1, .ro, 0x0, false⟩
def Fld.ICU_CORE_STAT_CLAIM : Fld := ⟨.icu, 0x104, 16, 10, 0, 1, 16, 9, .ro, 0x0, false⟩
def Fld.ICU_CORE_FBASE : Fld := ⟨.icu, 0x108, 16, 10, 0, 1, 0, 32, .ro, 0x0, true⟩

-- 16_dispatch_interrupts.md: ICU_SRCs — source
def Fld.ICU_SRC_LEVEL : Fld := ⟨.icu, 0x1000, 4, 512, 0, 1, 0, 4, .rw, 0x0, true⟩
def Fld.ICU_SRC_TARGET : Fld := ⟨.icu, 0x1000, 4, 512, 0, 1, 4, 10, .rw, 0x0, true⟩
def Fld.ICU_SRC_PEND : Fld := ⟨.icu, 0x1000, 4, 512, 0, 1, 14, 1, .w1c, 0x0, false⟩
def Fld.ICU_SRC_CLAIMED : Fld := ⟨.icu, 0x1000, 4, 512, 0, 1, 15, 1, .ro, 0x0, false⟩
def Fld.ICU_SRC_CORE : Fld := ⟨.icu, 0x1000, 4, 512, 0, 1, 16, 4, .ro, 0x0, false⟩
def Fld.ICU_SRC_MERGED : Fld := ⟨.icu, 0x1000, 4, 512, 0, 1, 20, 1, .w1c, 0x0, false⟩

-- 17_memory.md: MEM_WLOST — lost writes
def Fld.MEM_WLOST : Fld := ⟨.mem, 0x10, 0, 1, 0, 1, 0, 1, .w1c, 0x0, false⟩
def Fld.MEM_WLOST_CORE : Fld := ⟨.mem, 0x10, 0, 1, 0, 1, 4, 4, .ro, 0x0, false⟩
def Fld.MEM_WLOST_COUNT : Fld := ⟨.mem, 0x10, 0, 1, 0, 1, 16, 16, .ro, 0x0, false⟩
def Fld.MEM_WLOST_ADDR : Fld := ⟨.mem, 0x14, 0, 1, 0, 1, 0, 32, .ro, 0x0, false⟩

-- 17_memory.md: MEM_ECC — SRAM errors
def Fld.MEM_ECC_CE : Fld := ⟨.mem, 0x30, 0, 1, 0, 1, 0, 16, .ro, 0x0, false⟩
def Fld.MEM_ECC_UE : Fld := ⟨.mem, 0x30, 0, 1, 0, 1, 16, 8, .ro, 0x0, false⟩

-- 17_memory.md: MEM_DRAM — DRAM status
def Fld.MEM_DRAM_STAT_SIZE : Fld := ⟨.mem, 0x800, 0, 1, 0, 1, 0, 4, .ro, 0x0, false⟩
def Fld.MEM_DRAM_STAT_TRAINED : Fld := ⟨.mem, 0x800, 0, 1, 0, 1, 4, 1, .ro, 0x0, false⟩
def Fld.MEM_DRAM_ECC_CE : Fld := ⟨.mem, 0x804, 0, 1, 0, 1, 0, 16, .ro, 0x0, false⟩
def Fld.MEM_DRAM_ECC_UE : Fld := ⟨.mem, 0x804, 0, 1, 0, 1, 16, 16, .ro, 0x0, false⟩
def Fld.MEM_DRAM_UEADDR_ADDR : Fld := ⟨.mem, 0x808, 0, 1, 0, 1, 0, 32, .ro, 0x0, false⟩

-- 18_pace_power.md: SYS_LADDER — power state
def Fld.SYS_LADDER_STATE : Fld := ⟨.sys, 0x200, 0, 1, 0, 1, 0, 3, .ro, 0x0, false⟩
def Fld.SYS_LADDER_TARGET : Fld := ⟨.sys, 0x200, 0, 1, 0, 1, 3, 3, .rw, 0x0, false⟩
def Fld.SYS_LADDER_WAKE_TO : Fld := ⟨.sys, 0x200, 0, 1, 0, 1, 6, 3, .rw, 0x2, false⟩
def Fld.SYS_LADDER_BUSY : Fld := ⟨.sys, 0x200, 0, 1, 0, 1, 9, 1, .ro, 0x0, false⟩
def Fld.SYS_LADDER_REFUSED : Fld := ⟨.sys, 0x200, 0, 1, 0, 1, 10, 1, .w1c, 0x0, false⟩
def Fld.SYS_LADDER_REASON : Fld := ⟨.sys, 0x200, 0, 1, 0, 1, 16, 3, .ro, 0x0, false⟩

-- 18_pace_power.md: PWR_PACE — pace index
def Fld.PWR_PACE : Fld := ⟨.pwr, 0x0, 0, 1, 0, 1, 0, 12, .ro, 0x0, false⟩
def Fld.PWR_PACE_DOM : Fld := ⟨.pwr, 0x0, 0, 1, 0, 1, 12, 2, .ro, 0x0, false⟩
def Fld.PWR_PACE_LOWEST : Fld := ⟨.pwr, 0x0, 0, 1, 0, 1, 16, 12, .ro, 0xFFF, false⟩

-- 18_pace_power.md: PWR_AVS — core voltage
def Fld.PWR_AVS_VCMD : Fld := ⟨.pwr, 0x4, 0, 1, 0, 1, 0, 8, .ro, 0xB4, false⟩
def Fld.PWR_AVS_VMIN : Fld := ⟨.pwr, 0x4, 0, 1, 0, 1, 8, 8, .rw, 0x78, false⟩
def Fld.PWR_AVS_VMAX : Fld := ⟨.pwr, 0x4, 0, 1, 0, 1, 16, 8, .rw, 0xB4, false⟩
def Fld.PWR_AVS_AVS_ERR : Fld := ⟨.pwr, 0x4, 0, 1, 0, 1, 24, 1, .w1c, 0x0, false⟩
def Fld.PWR_AVS_AT_MAX : Fld := ⟨.pwr, 0x4, 0, 1, 0, 1, 25, 1, .ro, 0x0, false⟩

-- 18_pace_power.md: PWR_TEMP, PWR_CMD — temperature and commands
def Fld.PWR_TEMP_TJ : Fld := ⟨.pwr, 0x8, 0, 1, 0, 1, 0, 12, .ro, 0x800, false⟩
def Fld.PWR_TEMP_TJ_MAX : Fld := ⟨.pwr, 0x8, 0, 1, 0, 1, 16, 12, .ro, 0x800, false⟩
def Fld.PWR_CMD_CLR : Fld := ⟨.pwr, 0xC, 0, 1, 0, 1, 0, 1, .wo, 0x0, false⟩

-- 18_pace_power.md: PWR_WAKE, PWR_WAKE_STAT — wake sources
def Fld.PWR_WAKE_SI : Fld := ⟨.pwr, 0x10, 0, 1, 0, 1, 0, 16, .rw, 0x0, false⟩
def Fld.PWR_WAKE_PI0 : Fld := ⟨.pwr, 0x10, 0, 1, 0, 1, 16, 1, .rw, 0x0, false⟩
def Fld.PWR_WAKE_PI1 : Fld := ⟨.pwr, 0x10, 0, 1, 0, 1, 17, 1, .rw, 0x0, false⟩
def Fld.PWR_WAKE_ALARM_EN : Fld := ⟨.pwr, 0x10, 0, 1, 0, 1, 18, 1, .rw, 0x0, false⟩
def Fld.PWR_WAKE_WAKE_N_EN : Fld := ⟨.pwr, 0x10, 0, 1, 0, 1, 19, 1, .rw, 0x1, false⟩
def Fld.PWR_WAKE_STAT_CAUSE : Fld := ⟨.pwr, 0x14, 0, 1, 0, 1, 0, 20, .w1c, 0x0, false⟩
def Fld.PWR_WAKE_STAT_FROM : Fld := ⟨.pwr, 0x14, 0, 1, 0, 1, 20, 3, .ro, 0x0, false⟩

-- 18_pace_power.md: PWR_ALARM — wake alarm
def Fld.PWR_ALARM_NS : Fld := ⟨.pwr, 0x18, 0, 1, 0, 1, 0, 30, .rw, 0x0, false⟩
def Fld.PWR_ALARM_SL : Fld := ⟨.pwr, 0x1C, 0, 1, 0, 1, 0, 32, .rw, 0x0, false⟩
def Fld.PWR_ALARM_SEC_HI : Fld := ⟨.pwr, 0x20, 0, 1, 0, 1, 0, 16, .rw, 0x0, false⟩
def Fld.PWR_ALARM_FRAC : Fld := ⟨.pwr, 0x20, 0, 1, 0, 1, 16, 16, .rw, 0x0, false⟩

-- 19_host_link.md: HST_PROTO, HST_STATUS — protocol and status
def Fld.HST_PROTO_REQ : Fld := ⟨.hst, 0x0, 0, 1, 0, 1, 0, 8, .rw, 0x0, false⟩
def Fld.HST_PROTO_ACT : Fld := ⟨.hst, 0x0, 0, 1, 0, 1, 8, 8, .ro, 0x0, false⟩
def Fld.HST_PROTO_MIN : Fld := ⟨.hst, 0x0, 0, 1, 0, 1, 16, 8, .ro, 0x1, false⟩
def Fld.HST_PROTO_MAX : Fld := ⟨.hst, 0x0, 0, 1, 0, 1, 24, 8, .ro, 0x3, false⟩
def Fld.HST_STATUS_MBX_READY : Fld := ⟨.hst, 0x4, 0, 1, 0, 1, 0, 1, .ro, 0x0, false⟩
def Fld.HST_STATUS_CYCLE : Fld := ⟨.hst, 0x4, 0, 1, 0, 1, 1, 1, .ro, 0x0, false⟩
def Fld.HST_STATUS_LINK_W : Fld := ⟨.hst, 0x4, 0, 1, 0, 1, 2, 2, .ro, 0x0, false⟩
def Fld.HST_STATUS_LINK_GEN : Fld := ⟨.hst, 0x4, 0, 1, 0, 1, 4, 2, .ro, 0x0, false⟩

-- 19_host_link.md: HST_WIN_BASE, HST_WDOG, HST_IRQ, HST_CORE_DB, HST_DBG — window, watchdog, interrupts, debug
def Fld.HST_WIN_BASE : Fld := ⟨.hst, 0x30, 0, 1, 0, 1, 12, 20, .rw, 0x0, false⟩
def Fld.HST_WDOG_WDOG_T : Fld := ⟨.hst, 0x34, 0, 1, 0, 1, 0, 16, .rw, 0x0, false⟩
def Fld.HST_WDOG_KICK : Fld := ⟨.hst, 0x34, 0, 1, 0, 1, 16, 1, .wo, 0x0, false⟩
def Fld.HST_WDOG_EXPIRED : Fld := ⟨.hst, 0x34, 0, 1, 0, 1, 17, 1, .w1c, 0x0, false⟩
def Fld.HST_IRQ_MASK : Fld := ⟨.hst, 0x38, 0, 1, 0, 1, 0, 8, .rw, 0xFF, false⟩
def Fld.HST_IRQ_PEND : Fld := ⟨.hst, 0x38, 0, 1, 0, 1, 8, 8, .w1c, 0x0, false⟩
def Fld.HST_CORE_DB_RING : Fld := ⟨.hst, 0x3C, 0, 1, 0, 1, 0, 1, .wo, 0x0, false⟩
def Fld.HST_DBG_UNLOCKED : Fld := ⟨.hst, 0x40, 0, 1, 0, 1, 0, 1, .ro, 0x0, false⟩

-- 19_host_link.md: HST_DBG_NONCE — unlock nonce
def Fld.HST_DBG_NONCE_LO : Fld := ⟨.hst, 0x48, 0, 1, 0, 1, 0, 32, .ro, 0x0, false⟩
def Fld.HST_DBG_NONCE_HI : Fld := ⟨.hst, 0x4C, 0, 1, 0, 1, 0, 32, .ro, 0x0, false⟩

-- 20_package_electrical.md: SYS_RSTCAUSE — cause of the latest reset
def Fld.SYS_RSTCAUSE_POR : Fld := ⟨.sys, 0x300, 0, 1, 0, 1, 0, 1, .ro, 0x0, true⟩
def Fld.SYS_RSTCAUSE_PIN : Fld := ⟨.sys, 0x300, 0, 1, 0, 1, 1, 1, .ro, 0x0, true⟩
def Fld.SYS_RSTCAUSE_RAIL : Fld := ⟨.sys, 0x300, 0, 1, 0, 1, 2, 1, .ro, 0x0, true⟩
def Fld.SYS_RSTCAUSE_KEEP : Fld := ⟨.sys, 0x300, 0, 1, 0, 1, 3, 1, .ro, 0x0, true⟩
def Fld.SYS_RSTCAUSE_RAIL_ID : Fld := ⟨.sys, 0x300, 0, 1, 0, 1, 8, 4, .ro, 0x0, true⟩

-- 19_host_link.md: HST ring pointers
def Fld.HST_CMDB_WP : Fld := ⟨.hst, 0x10, 0, 1, 0, 1, 0, 20, .rw, 0x0, false⟩
def Fld.HST_CMDB_RP : Fld := ⟨.hst, 0x14, 0, 1, 0, 1, 0, 20, .ro, 0x0, false⟩
def Fld.HST_CMDU_WP : Fld := ⟨.hst, 0x18, 0, 1, 0, 1, 0, 20, .rw, 0x0, false⟩
def Fld.HST_CMDU_RP : Fld := ⟨.hst, 0x1C, 0, 1, 0, 1, 0, 20, .ro, 0x0, false⟩
def Fld.HST_RPL_WP : Fld := ⟨.hst, 0x20, 0, 1, 0, 1, 0, 19, .ro, 0x0, false⟩
def Fld.HST_RPL_RP : Fld := ⟨.hst, 0x24, 0, 1, 0, 1, 0, 19, .rw, 0x0, false⟩

-- 17_memory.md: MEM_BANKPWR — bank power
def Fld.MEM_BANKPWR : Fld := ⟨.mem, 0x20, 4, 2, 0, 1, 0, 32, .rw, 0x0, true⟩

/-- Fields of 01_cell_cycle.md, for the word view of the registers. -/
def fldTable0 : List Fld := [
  .SYS_ID_STEPPING, .SYS_ID_DEVICE, .SYS_STATE_STAGE, .SYS_STATE_LADDER, .SYS_STATE_TOILE, .SYS_STATE_SAF_MODE,
  .SYS_STATE_ACTIVE, .SYS_STATE_PACE_OK, .SYS_STATE_LAST_FAULT, .SYS_CYCLE_K, .SYS_CYCLE_TICK, .SYS_CYCLE_SYNC_PAT,
  .SYS_CYCNT, .SYS_PHASE, .SYS_PHASE_TICK_POS, .SYS_PHASE_OVR_LPE, .SYS_PHASE_OVR_PLAN, .SYS_PHASE_OVR_CMP,
  .SYS_PHASE_OVR_RACK, .SYS_SYNC_CTL_SYNC_EN, .SYS_SYNC_CTL_EDGE, .SYS_SYNC_CTL_AUTO_RELOCK, .SYS_SYNC_CTL_DIV, .SYS_SYNC_OFS,
  .SYS_SYNC_STAT_LOCKED, .SYS_SYNC_STAT_SYNC_LOST, .SYS_SYNC_STAT_EDGE_MISS, .SYS_SYNC_STAT_FREQ_OOR, .SYS_SYNC_STAT_PH_ERR]

/-- Fields of 02_pattern_startup.md, for the word view of the registers. -/
def fldTable1 : List Fld := [
  .PAT_STATUS_STAGE, .PAT_STATUS_ACT_SLOT, .PAT_STATUS_FALLBACK, .PAT_STATUS_TOILE, .PAT_STATUS_WRITING, .PAT_STATUS_FORMAT,
  .PAT_STATUS_LAST_ERR, .PAT_CTL_TOILE, .PAT_CTL_TOILE_FB, .PAT_SLOT_S0_STATE, .PAT_SLOT_S0_OK, .PAT_SLOT_S1_STATE,
  .PAT_SLOT_S1_OK, .PAT_GEN, .SEC_PRESENCE_PRES_A, .SEC_PRESENCE_PRES_B_N, .SEC_PRESENCE_PRESENT, .SEC_PRESENCE_DISAGREE,
  .SEC_PRESENCE_AGE, .SEC_KEYS_PROG, .SEC_KEYS_REVOKED, .SEC_KEYS_MAIN_SLOT, .SEC_KEYS_SAFE_SLOT]

/-- Fields of 03_paths_profiles.md, for the word view of the registers. -/
def fldTable2 : List Fld := [
  .PPE_OVR, .PPE_ARM_CMD_STOP, .PPE_ARM_CMD_QSTOP, .PPE_ARM_CMD_RESUME, .PPE_ARM_CMD_ABORT, .PPE_ARM_STAT_STATE,
  .PPE_ARM_STAT_QDRY, .PPE_ARM_STAT_BSKIP, .PPE_ARM_STAT_SHAFT_LAG, .PPE_ARM_STAT_SHAFT_REV, .PPE_ARM_STAT_QS_ACT, .PPE_ARM_STAT_GO,
  .PPE_ARM_STAT_QLEVEL, .PPE_ARM_SEG_ID, .PPE_ARM_LAG, .PPE_AX_CFG_TABLE, .PPE_AX_CFG_OUT, .PPE_AX_CFG_SD,
  .PPE_AX_CFG_STEP_DIV, .PPE_AX_CFG_GROUP, .PPE_AX_STAT_STATE, .PPE_AX_STAT_POS_LOST, .PPE_AX_STAT_PARKED, .PPE_AX_STAT_SHAFT_LAG,
  .PPE_AX_STAT_SHAFT_REV, .PPE_AX_STAT_DONE, .PPE_AX_STAT_STEP_LAG, .PPE_AX_MSIDX_IDX, .PPE_AX_LAG, .PPE_SD_CFG_PW,
  .PPE_SD_CFG_DS, .PPE_SD_CFG_STEP_POL, .PPE_SD_CFG_DIR_POL]

/-- Fields of 04_solver.md, for the word view of the registers. -/
def fldTable3 : List Fld := [
  .SLV_STATUS_CYC, .SLV_STATUS_TICK, .SLV_STATUS_PROD_LATE, .SLV_STATUS_HOST_DROP, .SLV_STATUS_QLEVEL, .SLV_CUT_DONE,
  .SLV_CUT_TDONE, .SLV_BATCH_STAT_FRESH, .SLV_BATCH_STAT_STALE, .SLV_BATCH_STAT_BOUNDED, .SLV_BATCH_STAT_EARLY, .SLV_BATCH_SEQ,
  .SLV_DELTA_LO, .SLV_DELTA_HI, .SLV_MAT_STAT_SOLSTAT, .SLV_MAT_STAT_PIV_TINY, .SLV_MAT_STAT_SAT, .SLV_MAT_STAT_RES_FAIL,
  .SLV_MAT_STAT_STARVED, .SLV_MAT_STAT_ITER, .SLV_MAT_STAT_PIV_IDX, .SLV_MAT_STAT_CUR, .SLV_MAT_STAT_AGE, .SLV_MAT_TUNE_TAU_EXP,
  .SLV_MAT_TUNE_REG_EXP, .SLV_MAT_TUNE_REFINE, .SLV_MAT_TUNE_MAX_SHIFT, .SLV_MAT_TUNE_RES_EXP]

/-- Fields of 05_cooperation.md, for the word view of the registers. -/
def fldTable4 : List Fld := [
  .PPE_ARM_COOP_ZWAIT, .PPE_ARM_COOP_ZVIOL, .PPE_ARM_COOP_PROX_ACT, .PPE_ARM_COOP_COUPLED, .PPE_ARM_COOP_BLOCK, .PPE_ARM_COOP_PROX_SCALE,
  .PPE_ARM_ZHELD_LO, .PPE_ARM_ZHELD_HI, .PPE_ZONE_HOLDER, .PPE_ZONE_BLOCK, .PPE_ZONE_SHAPE, .PPE_ZONE_RANK,
  .PPE_ZONE_WAITERS, .PPE_BLK_STAT_MEMBERS, .PPE_BLK_STAT_COUPLED, .PPE_BLK_STAT_MODE, .PPE_BLK_STAT_CARRIER, .PPE_BLK_STAT_DECOUPLING,
  .PPE_BLK_STAT_CLOSE_LIM, .PPE_BLK_FINT_F_INT, .PPE_BLK_GAIN_CLOSE_GAIN, .PPE_BLK_CERR, .PPE_PROX_DIST_D_HOLD, .PPE_PROX_DIST_D_SLOW,
  .PPE_PROX_TMO]

/-- Fields of 06_loops.md, for the word view of the registers. -/
def fldTable5 : List Fld := [
  .LPE_STATUS_NAXES, .LPE_STATUS_NFAULT, .LPE_STATUS_NSTALE, .LPE_AX_CFG_CLASS, .LPE_AX_CFG_INV, .LPE_AX_CFG_LOOPS,
  .LPE_AX_CFG_FBSRC, .LPE_AX_CFG_FBCH, .LPE_AX_CFG_STALE_MAX, .LPE_AX_CFG_WIN_LOG, .LPE_AX_CFG_WIN_IRQ, .LPE_AX_STAT_WIN,
  .LPE_AX_STAT_STALE, .LPE_AX_STAT_STALE_CNT, .LPE_AX_STAT_FAULT, .LPE_AX_STAT_FOLLOW, .LPE_AX_STAT_SAT, .LPE_AX_STAT_STO,
  .LPE_AX_STAT_REPEAT, .LPE_AX_STAT_FCODE, .LPE_AX_VMAX, .LPE_AX_VMIN, .LPE_AX_FEMAX, .LPE_AX_FF_KVFF,
  .LPE_AX_FF_KTFF, .LPE_AX_KAW, .LPE_AX_GNUM, .LPE_AX_GDEN, .LPE_AX_SPOS_LO, .LPE_AX_SPOS_HI,
  .LPE_AX_SPOFS_OFS, .LPE_AX_CMD, .LPE_LP_CTL_SRC, .LPE_LP_CTL_CH, .LPE_LP_CTL_TABLE, .LPE_LP_CTL_EN,
  .LPE_LP_KP, .LPE_LP_KI, .LPE_LP_REF, .LPE_LP_INTEG, .LPE_LP_OUT, .LPE_LP_ERR]

/-- Fields of 06_loops.md, for the word view of the registers. -/
def fldTable6 : List Fld := [
  .LPE_AI_GAIN, .LPE_AI_OFS, .LPE_AI_FILT, .LPE_AI_VAL, .LPE_GTAB_G_EVEN, .LPE_GTAB_G_ODD]

/-- Fields of 07_feedback.md, for the word view of the registers. -/
def fldTable7 : List Fld := [
  .FB_CFG_MODE, .FB_CFG_IDX_MODE, .FB_CFG_EDGE_POL, .FB_CFG_FILT, .FB_CFG_LINE_FATAL, .FB_CFG_DIR_IRQ,
  .FB_CFG_IDX_IRQ, .FB_CFG_SSI_CODE, .FB_CFG_SSI_EXT, .FB_CFG_SSI_PAR, .FB_CFG_Z_USE, .FB_CFG_SSI_BITS,
  .FB_CFG_WIN, .FB_LINES, .FB_LINES_LTOL, .FB_SPDSEL_V_LO, .FB_SPDSEL_V_HI, .FB_TIM_DIR_HYST,
  .FB_TIM_ZERO_T, .FB_TIM_SSI_DLY, .FB_TIM_SSI_HALF, .FB_IDXVAL_IDX_VAL, .FB_CMD_IDX_ARM, .FB_CMD_CLR_REF,
  .FB_CMD_CLR_CNT, .FB_STAT_DIR, .FB_STAT_DIRCHG, .FB_STAT_SPD_METH, .FB_STAT_IDX_SEEN, .FB_STAT_ARMED,
  .FB_STAT_IDX_DONE, .FB_STAT_LINE_ERR, .FB_STAT_QUAD_ERR, .FB_STAT_SSI_ERR, .FB_STAT_REF_LOST, .FB_STAT_FAULTY,
  .FB_STAT_FALLBACK, .FB_WIRE_A, .FB_WIRE_B, .FB_WIRE_Z, .FB_WIRE_WIRE_CNT,
  .FB_POS_LO, .FB_POS_HI, .FB_SPEED, .FB_SPER, .FB_SWIN,
  .FB_IDXLAT_LO, .FB_IDXLAT_HI, .FB_ERRCNT_LINE_CNT, .FB_ERRCNT_QUAD_CNT]

/-- Fields of 07_feedback.md, for the word view of the registers. -/
def fldTable8 : List Fld := [
  .PO_CFG_SRC, .PO_CFG_ZOUT, .PO_CFG_EN, .PO_CFG_MIN_SEP, .PO_NUM, .PO_DEN,
  .PO_STAT_LAG, .PO_STAT_OVR, .PO_STAT_SHORT, .PO_STAT_BACKLOG, .AI_STAT_RANGE, .AI_STAT_CM,
  .AI_STAT_FAULTY, .AI_STAT_RAW]

/-- Fields of 08_safety_plane.md, for the word view of the registers. -/
def fldTable9 : List Fld := [
  .SAF_STATE_MODE, .SAF_STATE_CHA_OK, .SAF_STATE_CHB_OK, .SAF_STATE_HANDOVER, .SAF_STATE_LOCKOUT, .SAF_STATE_LAST_FAULT,
  .SAF_DEGR_REMAIN, .SAF_DEGR_CAUSE, .SAF_CMP_MISMATCH, .SAF_CMP_DISCREP, .SAF_SI_LEVEL, .SAF_SI_DEMAND,
  .SAF_SI_DISC, .SAF_SO_ON, .SAF_SO_RB, .SAF_SO_FLT, .SAF_ED_DROPPED, .SAF_ED_LOCK,
  .SAF_ED_IMPL, .SAF_REQ_STO, .SAF_REQ_SS1, .SAF_REQ_SS2, .SAF_GREQ_STO, .SAF_GREQ_SS1,
  .SAF_GREQ2_SS2, .SAF_ARM_STAT_STATE, .SAF_ARM_STAT_FUNC, .SAF_ARM_STAT_RAMP_QS, .SAF_ARM_STAT_RESTART_WAIT, .SAF_ARM_STAT_SCALE,
  .SAF_ARM_VMON, .SAF_GRP_STAT_STATE, .SAF_GRP_STAT_FUNC, .SAF_GRP_STAT_RAMP_QS, .SAF_GRP_STAT_RESTART_WAIT, .SAF_GRP_STAT_SCALE]

/-- Fields of 09_separation.md, for the word view of the registers. -/
def fldTable10 : List Fld := [
  .SAF_SEP_MINSEP, .SAF_SEP_SP, .SAF_SEP_PAIR_TRACK, .SAF_SEP_PAIR_SENSOR, .SAF_SEP_PAIR_STOP, .SAF_SEP_PAIR_INTRUSION,
  .SAF_SEP_PAIR_CLEARING, .SAF_SEP_SCALE_SSM_SCALE, .SAF_SENS_STAT_COND, .SAF_SENS_STAT_SENS_FAULT, .SAF_SENS_STAT_VER, .SAF_SENS_STAT_NCAP,
  .SAF_SENS_STAT_RECOVER, .SAF_SENS_STAT_AGE, .SAF_SENS_SEQ_SEQ_LAST, .SAF_SENS_REJ_CRC_CNT, .SAF_SENS_REJ_OTHER_CNT]

/-- Fields of 10_planes_racking.md, for the word view of the registers. -/
def fldTable11 : List Fld := [
  .RED_ROLE_ACTIVE, .RED_ROLE_A_STATE, .RED_ROLE_B_STATE, .RED_ROLE_RIDDLE, .RED_ROLE_REVERT_PEND, .RED_ROLE_UNRES,
  .RED_ROLE_ROLE_CHG, .RED_RACK_GEN, .RED_RACK_GEN_SHADOW_GEN, .RED_CFG_REVERT_T, .RED_CFG_RIDDLE_T, .RED_CFG_TASTE_CYC,
  .RED_RACK_SIZE_BYTES, .RED_CMP_MISMATCH, .RED_CMP_KIND, .RED_CMP_IDX_INDEX, .RED_CMP_CYC_CYCNT, .RED_TASTE_A,
  .RED_TASTE_B, .RED_TASTE_COUNT, .RED_BULK_PASS, .RED_BULK_LINES, .RED_TIMER_REVERT_REMAIN, .RED_TIMER_RIDDLE_REMAIN,
  .RED_CMD_RIDDLE_NOW, .RED_CMD_CLR_CNT]

/-- Fields of 11_time_bases.md, for the word view of the registers. -/
def fldTable12 : List Fld := [
  .TB_CTL_SRC, .TB_CTL_REF, .TB_CTL_PI, .TB_CTL_FORCE_HOLD, .TB_CTL_SLEW_PPM, .TB_STAT_STATE,
  .TB_STAT_CLAMP, .TB_STAT_FAR, .TB_STAT_STEPPED, .TB_STAT_REV, .TB_RATE, .TB_SLEW,
  .TB_SREM, .TB_AGE_HOLD_AGE, .TB_NOW_NS, .TB_NOW_SL, .TB_NOW_SEC_HI, .TB_NOW_FRAC,
  .TB_BSNAP_NS, .TB_BSNAP_SL, .TB_BSNAP_SEC_HI, .TB_BSNAP_FRAC, .TB_BSNAP_CYC, .TB_RHO,
  .TB_OFS, .TEV_CFG_BASE, .TEV_CFG_MODE, .TEV_CFG_POL, .TEV_CFG_ARM, .TEV_CFG_IRQ,
  .TEV_CFG_DLY, .TEV_CFG_WIDTH, .TEV_T_NS, .TEV_T_SL, .TEV_T_SEC_HI, .TEV_T_FRAC,
  .TEV_PER, .TEV_PERF_PER_FRAC, .TEV_STAT_COUNT, .TEV_STAT_SKIP, .TEV_STAT_LATE]

/-- Fields of 11_time_bases.md, for the word view of the registers. -/
def fldTable13 : List Fld := [
  .PTP_LAT_RX_LAT, .PTP_LAT_TX_LAT, .PTP_INFO_SEQ_ID, .PTP_INFO_MSG, .PTP_INFO_DIR, .PTP_INFO_ON_TB3,
  .PTP_INFO_VALID, .PTP_TS_NS, .PTP_TS_SL, .PTP_TS_SEC_HI, .PTP_TS_FRAC, .PTP_CFG_SYNC_TMO,
  .PTP_CFG_HOLD_SRC]

/-- Fields of 12_lockstitch_schedule.md, for the word view of the registers. -/
def fldTable14 : List Fld := [
  .LS_SCHED_NSLOT, .LS_SCHED_NCTL, .LS_SCHED_GUARD, .LS_DIGEST_SCHED, .LS_SLEAD_SYNC_LEAD, .LS_DLOOP_P,
  .LS_DLOOP_S, .LS_ERR_FRAME_ERR, .LS_ERR_ABORT, .LS_ERR2_COPY_DIFF, .LS_ERR2_MUTE, .LS_CMD_CLR_CNT,
  .LS_SLOT_CNT_EMPTY_CNT, .LS_SLOT_CNT_BV_CNT, .LS_SLOT_INFO_MUX, .LS_SLOT_INFO_LAST_EMPTY, .LS_SLOT_INFO_LAST_P, .LS_SLOT_INFO_LAST_S,
  .LS_SLOT_INFO_ERR_CNT]

/-- Fields of 13_lockstitch_startup_healing.md, for the word view of the registers. -/
def fldTable15 : List Fld := [
  .LS_STATE, .LS_STATE_ROLE, .LS_STATE_WRAPPED, .LS_STATE_PART, .LS_STATE_LRANK, .LS_STATE_VER,
  .LS_STATE_OPEN, .LS_STATE_BREAK_AT, .LS_NODES_ADMITTED, .LS_NODES_ABSENT, .LS_NSEL_ADDR, .LS_NINFO_STATE,
  .LS_NINFO_LATE, .LS_NINFO_LSVER, .LS_NINFO_SFVER, .LS_NINFO_REASON, .LS_NDELAY_D_IN, .LS_NDELAY_D_S,
  .LS_CLAIM_GRANTED, .LS_CLAIM_COLL, .LS_HEAL_WRAP_CNT, .LS_HEAL_PART_CNT, .LS_START_RESTART, .LS_START_CLR_HEAL]

/-- Fields of 14_capture_cellar_book.md, for the word view of the registers. -/
def fldTable16 : List Fld := [
  .CAP_ARM, .CAP_ARM_STOP, .CAP_ARM_ARM_ERR, .CAP_CFG_BASE, .CAP_CFG_POST_T, .CAP_STAT_STATE,
  .CAP_STAT_OVERWRITE, .CAP_STAT_TRG_ERR, .CAP_STAT_STOP_TRG, .CAP_STAT_BAD_TRG, .CAP_HEAD, .CAP_OLDEST,
  .CAP_RD, .CAP_SIZE, .CAP_CH_CFG_SRC, .CAP_CH_CFG_FMT, .CAP_CH_CFG_EN, .CAP_CH_CFG_DIV,
  .CAP_CH_DB, .CAP_CH_LAST_VALUE, .CAP_TRG_CFG_TYPE, .CAP_TRG_CFG_DIR, .CAP_TRG_CFG_CH, .CAP_TRG_CFG_LINE,
  .CAP_TRG_CFG_STOP, .CAP_TRG_CFG_OUT_EN, .CAP_TRG_CFG_OUT_LINE, .CAP_TRG_CFG_IRQ, .CAP_TRG_A, .CAP_TRG_B,
  .CAP_TRG_HOLD_HOLDOFF, .CAP_TRG_STAT_COUNT, .CAP_TRG_STAT_FIRED, .CAP_TRG_T_NS, .CAP_TRG_T_SL, .CAP_TRG_T_SEC_HI,
  .CAP_TRG_T_FRAC, .CAP_TBUS_CTL_INDEX, .CAP_TBUS_CTL_PRESENT, .CAP_TBUS_CTL_CAL, .CAP_TBUS_STAT_CAL_DONE, .CAP_TBUS_STAT_CAL_RUN,
  .CAP_TBUS_STAT_LINE_FLT, .CAP_TBUS_STAT_UNKNOWN, .CAP_TBUS_DLY_DELAY, .CAP_TBUS_DLY_VALID]

/-- Fields of 14_capture_cellar_book.md, for the word view of the registers. -/
def fldTable17 : List Fld := [
  .CEL_HEAD, .CEL_OLDEST, .CEL_RD, .CEL_LOSS, .CEL_SIZE]

/-- Fields of 16_dispatch_interrupts.md, for the word view of the registers. -/
def fldTable18 : List Fld := [
  .TSK_STATUS_NTASK, .TSK_STATUS_QUSED, .TSK_POST_TASK, .TSK_CORE_STAT_CUR, .TSK_CORE_STAT_CUR_INT, .TSK_CORE_STAT_PRIO,
  .TSK_CORE_STAT_STALL, .TSK_CORE_SWITCHES_COUNT, .TSK_CORE_BASE, .TSK_TMR_CTL_BASE, .TSK_TMR_CTL_MODE, .TSK_TMR_CTL_ARM,
  .TSK_TMR_CTL_DISARM, .TSK_TMR_CTL_ARMED, .TSK_TMR_T_NS, .TSK_TMR_T_SL, .TSK_TMR_T_SEC_HI, .TSK_TMR_T_FRAC,
  .TSK_TMR_PER, .TSK_TMR_PERF_PER_FRAC, .TSK_TMR_STAT_COUNT, .TSK_TMR_STAT_LATE, .TSK_TASK_QLEVEL, .TSK_TASK_EN,
  .TSK_TASK_RUN, .TSK_TASK_OVF, .TSK_TASK_SEQ, .ICU_VBASE, .ICU_FALLBACK_CORE, .ICU_RAISE_SRC,
  .ICU_CORE_CTL_THRESH, .ICU_CORE_STAT_LEVEL, .ICU_CORE_STAT_DEPTH, .ICU_CORE_STAT_ASLEEP, .ICU_CORE_STAT_OFF, .ICU_CORE_STAT_DEFER,
  .ICU_CORE_STAT_CLAIM, .ICU_CORE_FBASE, .ICU_SRC_LEVEL, .ICU_SRC_TARGET, .ICU_SRC_PEND, .ICU_SRC_CLAIMED,
  .ICU_SRC_CORE, .ICU_SRC_MERGED]

/-- Fields of 17_memory.md, for the word view of the registers. -/
def fldTable19 : List Fld := [
  .MEM_WLOST, .MEM_WLOST_CORE, .MEM_WLOST_COUNT, .MEM_WLOST_ADDR, .MEM_ECC_CE, .MEM_ECC_UE,
  .MEM_DRAM_STAT_SIZE, .MEM_DRAM_STAT_TRAINED, .MEM_DRAM_ECC_CE, .MEM_DRAM_ECC_UE, .MEM_DRAM_UEADDR_ADDR]

/-- Fields of 18_pace_power.md, for the word view of the registers. -/
def fldTable20 : List Fld := [
  .SYS_LADDER_STATE, .SYS_LADDER_TARGET, .SYS_LADDER_WAKE_TO, .SYS_LADDER_BUSY, .SYS_LADDER_REFUSED, .SYS_LADDER_REASON,
  .PWR_PACE, .PWR_PACE_DOM, .PWR_PACE_LOWEST, .PWR_AVS_VCMD, .PWR_AVS_VMIN, .PWR_AVS_VMAX,
  .PWR_AVS_AVS_ERR, .PWR_AVS_AT_MAX, .PWR_TEMP_TJ, .PWR_TEMP_TJ_MAX, .PWR_CMD_CLR, .PWR_WAKE_SI,
  .PWR_WAKE_PI0, .PWR_WAKE_PI1, .PWR_WAKE_ALARM_EN, .PWR_WAKE_WAKE_N_EN, .PWR_WAKE_STAT_CAUSE, .PWR_WAKE_STAT_FROM,
  .PWR_ALARM_NS, .PWR_ALARM_SL, .PWR_ALARM_SEC_HI, .PWR_ALARM_FRAC]

/-- Fields of 19_host_link.md, for the word view of the registers. -/
def fldTable21 : List Fld := [
  .HST_PROTO_REQ, .HST_PROTO_ACT, .HST_PROTO_MIN, .HST_PROTO_MAX, .HST_STATUS_MBX_READY, .HST_STATUS_CYCLE,
  .HST_STATUS_LINK_W, .HST_STATUS_LINK_GEN, .HST_WIN_BASE, .HST_WDOG_WDOG_T, .HST_WDOG_KICK, .HST_WDOG_EXPIRED,
  .HST_IRQ_MASK, .HST_IRQ_PEND, .HST_CORE_DB_RING, .HST_DBG_UNLOCKED, .HST_DBG_NONCE_LO, .HST_DBG_NONCE_HI]

/-- Fields of 20_package_electrical.md, for the word view of the registers. -/
def fldTable22 : List Fld := [
  .SYS_RSTCAUSE_POR, .SYS_RSTCAUSE_PIN, .SYS_RSTCAUSE_RAIL, .SYS_RSTCAUSE_KEEP, .SYS_RSTCAUSE_RAIL_ID]

/-- Fields of 19_host_link.md, for the word view of the registers. -/
def fldTable23 : List Fld := [
  .HST_CMDB_WP, .HST_CMDB_RP, .HST_CMDU_WP, .HST_CMDU_RP, .HST_RPL_WP, .HST_RPL_RP]

/-- Fields of 17_memory.md, for the word view of the registers. -/
def fldTable24 : List Fld := [
  .MEM_BANKPWR]

/-- Every register field of the spec that is held in the register file. -/
def fldTable : List Fld :=
  fldTable0 ++ fldTable1 ++ fldTable2 ++ fldTable3 ++ fldTable4 ++ fldTable5 ++ fldTable6 ++ fldTable7 ++ fldTable8 ++ fldTable9 ++ fldTable10 ++ fldTable11 ++ fldTable12 ++ fldTable13 ++ fldTable14 ++ fldTable15 ++ fldTable16 ++ fldTable17 ++ fldTable18 ++ fldTable19 ++ fldTable20 ++ fldTable21 ++ fldTable22 ++ fldTable23 ++ fldTable24 ++ applyTable

end Sys2Proof.Machine
end

