-- ==== Sys2Proof/Machine/Num.lean ====
section
/-! DEFINITION. Number helpers shared by every unit: signed views of fields, saturation, the one rounding of the model for a
quotient whose rounding the spec does not state (log entry 4), serial comparison (11_time_bases.md R331), bit access. -/

namespace Sys2Proof.Machine

/-- The low `w` bits of a number. -/
def mask (w n : Nat) : Nat := n % 2 ^ w

/-- Bit `i` of a number. -/
def bit (n i : Nat) : Bool := n / 2 ^ i % 2 == 1

/-- Bit `i` set or cleared. -/
def setBit (n i : Nat) (v : Bool) : Nat :=
  if bit n i = v then n else if v then n + 2 ^ i else n - 2 ^ i

/-- A Boolean as a one-bit field. -/
def b2n (b : Bool) : Nat := if b then 1 else 0

/-- A field of `w` bits as a signed number in two's complement. -/
def signed (w n : Nat) : Int := if n % 2 ^ w < 2 ^ (w - 1) then (n % 2 ^ w : Nat) else (n % 2 ^ w : Nat) - (2 ^ w : Nat)

/-- A number as a field of `w` bits in two's complement. -/
def unsigned (w : Nat) (i : Int) : Nat := (i % (2 ^ w : Nat)).toNat

/-- A number held between two bounds. -/
def clampI (lo hi x : Int) : Int := if x < lo then lo else if hi < x then hi else x

/-- A number held in the range of a signed field of `w` bits. -/
def satS (w : Nat) (x : Int) : Int := clampI (-(2 ^ (w - 1) : Nat)) ((2 ^ (w - 1) : Nat) - 1) x

/-- A count held at the greatest value of a field of `w` bits. -/
def satU (w n : Nat) : Nat := min n (2 ^ w - 1)

/-- A number in a signed, or an unsigned, field of `w` bits for which the spec states neither saturation nor wrap. -/
def fitS (w : Nat) (x : Int) : Int := if satS w x = x then x else (Config.beyond w x).toInt
def fitU (w : Nat) (x : Int) : Nat := if 0 ≤ x ∧ x < 2 ^ w then x.toNat else (Config.beyond w x).toNat

/-- Quotient rounded to nearest, ties away from zero; `d` positive. -/
def rdiv (n d : Int) : Int :=
  if d ≤ 0 then 0 else if 0 ≤ n then (2 * n + d) / (2 * d) else -((2 * (-n) + d) / (2 * d))

/-- Quotient rounded toward zero; `d` positive. -/
def tdiv (n d : Int) : Int := Int.tdiv n d

/-- The magnitude of a number. -/
def absI (x : Int) : Int := if x < 0 then -x else x

/-- Serial comparison of `w`-bit values: `a` is later than `b` (R331). -/
def serialLater (w a b : Nat) : Bool :=
  let d := (a % 2 ^ w + 2 ^ w - b % 2 ^ w) % 2 ^ w
  decide (1 ≤ d) && decide (d ≤ 2 ^ (w - 1) - 1)

/-- One digit of the square root at a time, from bit `k - 1` down. -/
def isqrtFrom (n : Nat) : Nat → Nat → Nat
  | 0, r => r
  | k + 1, r => isqrtFrom n k (if (r + 2 ^ k) * (r + 2 ^ k) ≤ n then r + 2 ^ k else r)

/-- Integer square root, rounded down, of a number below 2^256. -/
def isqrt (n : Nat) : Nat := isqrtFrom n 128 0

/-- The greatest of a list of numbers, or `d`. -/
def maxOr (d : Int) (l : List Int) : Int :=
  match l with
  | [] => d
  | x :: t => t.foldl max x

/-- The least of a list of numbers, or `d`. -/
def minOr (d : Int) (l : List Int) : Int :=
  match l with
  | [] => d
  | x :: t => t.foldl min x

/-! ### T96 words (00_scope.md R6) -/

/-- A time value from its words: nanoseconds, the two parts of the seconds, and the fraction. -/
def t96 (ns sl hi frac : Nat) : T96 := (sl + 2 ^ 32 * hi) * secUnit + ns * nsUnit + frac

/-- Nanoseconds of a time value. -/
def t96Ns (t : T96) : Nat := t % secUnit / nsUnit
/-- Seconds [31:0] of a time value. -/
def t96Sl (t : T96) : Nat := t / secUnit % 2 ^ 32
/-- Seconds [47:32] of a time value. -/
def t96Hi (t : T96) : Nat := t / secUnit / 2 ^ 32 % 2 ^ 16
/-- The fraction of a time value. -/
def t96Frac (t : T96) : Nat := t % nsUnit

end Sys2Proof.Machine
end

