-- ==== Sys2Proof/Pattern.lean ====
section
/-! DEFINITION. The Pattern: the decoded contents of the signed image, section by section (02_pattern_startup.md R49 to R52),
as far as a rule of the spec reads them. The image's bytes, its hashes and its signatures are kept as the outcome of their
checks (DESIGN CHOICE, log entry 5). -/

namespace Sys2Proof
open Machine

/-! ### CELL and TIME -/

/-- Phase placement of R27 and R28, in ns: offsets after the opening boundary, and of φ5 before the closing one. -/
structure CellSec where
  k : Nat := 4
  tick : Nat := 8
  syncPat : Bool := false
  phi1 : Nat := 1000
  phi2 : Nat := 18000
  phi3 : Nat := 20500
  phi4 : Nat := 22000
  phi5 : Nat := 6000
  digest : Nat := 0
  deriving DecidableEq, Repr

/-- One time base of the TIME section (R305, R320). `ofs` in ns, `nsPerCount` in units of 2^-32 ns. -/
structure BaseSec where
  src : Nat := 0
  ref : Nat := 0
  pi : Nat := 0
  ofs : Int := 0
  nsPerCount : Nat := 0
  deriving DecidableEq, Repr

/-! ### TASKS (R439) -/

/-- A task descriptor of R439. -/
structure TaskDesc where
  entry : Nat := 0
  save : Nat := 0
  core : Nat := 0
  prio : Nat := 0
  satmode : Bool := false
  log : Bool := false
  preempt : Bool := false
  qdepth : Nat := 0
  src : Nat := 0
  srcarg : Nat := 0
  posters : Nat := 0
  msgHold : Nat := 0
  budget : Nat := 0
  deriving DecidableEq, Repr

/-! ### MEMORY (R282, R472, R473, R477) -/

/-- Memory classes (R282). -/
inductive MemClass where
  | racked | paired | scratch | const
  deriving DecidableEq, Repr

/-- A region of memory with one class: `space` 0 to 9 is a core's local memory, 10 state memory, 11 solver work memory;
byte offsets `lo` to `hi - 1` within the space. -/
structure MemRegion where
  space : Nat
  lo : Nat
  hi : Nat
  cls : MemClass
  deriving DecidableEq, Repr

/-- A placement in usable DRAM (R477). -/
structure Place where
  base : Nat := 0
  size : Nat := 0
  deriving DecidableEq, Repr

/-- The MEMORY section. -/
structure MemSec where
  regions : List MemRegion := []
  bankPower : List (Nat × Nat) := []
  engineBanks : List Nat := []
  capture : Place := {}
  cellar : Place := {}
  partA : Place := {}
  partB : Place := {}
  hostWin : Place := {}
  patCopy : Place := {}
  rackBytes : Nat := 0
  deriving DecidableEq, Repr

/-! ### CODE (R419) -/

/-- A segment of a CODE section: local address, length, whether it is filled with zeros, and its data. -/
structure CodeSeg where
  addr : Nat
  len : Nat
  zero : Bool
  data : List Byte
  deriving DecidableEq, Repr

/-- A CODE section: its core, ENTRY, CSW0, EVB, NSEG and its segments. -/
structure CodeSec where
  core : Nat := 0
  entry : Nat := 0
  csw0 : Nat := 0
  evb : Nat := 0
  nseg : Nat := 1
  segs : List CodeSeg := []
  deriving DecidableEq, Repr

/-! ### AXES: arms, axes and auxiliary groups (03_paths_profiles.md, 06_loops.md) -/

/-- Motion limits of one axis: positions as P64, speed as V32, acceleration as A32, jerk as J32. -/
structure AxisLim where
  posMin : Int := -(2 ^ 63)
  posMax : Int := 2 ^ 63 - 1
  vLim : Nat := 2 ^ 31 - 1
  aLim : Nat := 2 ^ 31 - 1
  jLim : Nat := 2 ^ 32 - 1
  deriving DecidableEq, Repr

/-- One arm: its joints, its tool limits, its quick-stop values and its shaft values (R18, R79, R87, R89, R101, R102). The tool limits are
speed, acceleration and jerk along the path, and speed of rotation in rad/s as V32. `catchup` is the CATCHUP factor in hundredths. -/
structure ArmSec where
  first : Nat := 0
  joints : Nat := 0
  cartLim : Nat := 2 ^ 31 - 1
  cartAcc : Nat := 2 ^ 31 - 1
  cartJerk : Nat := 2 ^ 32 - 1
  rotLim : Nat := 2 ^ 31 - 1
  qsDec : Nat := 0
  qsJerk : Nat := 0
  catchup : Nat := 110
  lagMax : Nat := 2 ^ 32 - 1
  deriving DecidableEq, Repr

/-- What the Pattern gives an auxiliary axis (R86, R89, R104, R105, R107, R108, R110). `msNum / msDen` is MS_PER_UNIT. -/
structure AuxSec where
  stepper : Bool := false
  msNum : Nat := 0
  msDen : Nat := 1
  group : Nat := 0
  out : Bool := false
  sd : Nat := 0
  retIdle : Bool := false
  runCur : Nat := 0
  holdCur : Nat := 0
  encoder : Bool := false
  catchup : Nat := 110
  lagMax : Nat := 2 ^ 32 - 1
  deriving DecidableEq, Repr

/-- Quick-stop values of an auxiliary group (R89). -/
structure GroupSec where
  qsDec : Nat := 0
  qsJerk : Nat := 0
  deriving DecidableEq, Repr

/-- What the AXES section gives a loop axis beside its registers (R167, R182, R197): `fbScale` is the P64 value of one count of
its local channel, `upc` axis units per geared count as P64, `ringLoops` the loops with a declared ring word. -/
structure LoopSec where
  fbScale : Int := 0
  upc : Int := 0
  ringLoops : List Nat := []
  deriving DecidableEq, Repr

/-! ### SOLVER (R113 to R118, R126, R131) -/

/-- A resident matrix: the descriptor of R114, its entry map of R116, the initial values of its entries (stored, then
right-hand side, then damping for DLS) and the initial tuning of R114. `perLen` is the matrix's unit of length in mm, 1,000 where the Pattern expresses lengths in metres. -/
structure MatDesc where
  op : Nat := 6
  n : Nat := 1
  k : Nat := 0
  cls : Nat := 0
  qin : Nat := 0
  qf : Nat := 0
  qx : Nat := 0
  cons : List Nat := []
  mapOfs : Nat := 0
  entOfs : Nat := 0
  solOfs : Nat := 0
  dmax : Nat := 0
  map : List Nat := []
  ent : List Int := []
  tauExp : Nat := 20
  regExp : Nat := 16
  refine : Nat := 0
  maxShift : Nat := 4
  resExp : Nat := 0
  perLen : Nat := 1
  deriving DecidableEq, Repr

/-- The SOLVER section: matrices by identity, CUT_MAX per class in units of 31.25 ns, declared producers per class. -/
structure SolverSec where
  mats : Sparse MatDesc := []
  cutMax : List Nat := [1, 1]
  prods : List (List Nat) := [[], []]
  deriving DecidableEq, Repr

/-! ### GEOMETRY (05_cooperation.md) -/

/-- A capsule (R144, R253): end points and radius as D32. -/
structure Capsule where
  p0 : List Int
  p1 : List Int
  r : Int
  deriving DecidableEq, Repr

/-- A link of an arm up to a joint: the joint's frame in the frame behind the joint before, as a point in 2^-32 mm and a quaternion with
binary point 30. The joint turns about, or slides along, the z axis of its frame (DESIGN CHOICE, log entry 153). -/
structure LinkSec where
  off : List Int := [0, 0, 0]
  rot : List Int := [1073741824, 0, 0, 0]
  prismatic : Bool := false
  deriving DecidableEq, Repr

/-- The kinematics of an arm: its links base first, its tool behind the last joint, and its capsules, each in the frame behind a joint, or
of the tool for the index after the last one (R79, R145, R254). -/
structure ArmGeom where
  links : List LinkSec := []
  tool : List Int := [0, 0, 0]
  toolRot : List Int := [1073741824, 0, 0, 0]
  caps : List (Nat × Capsule) := []
  deriving DecidableEq, Repr

/-- A shared zone: its shape, the D32 numbers of the shape, and its order rank (R144). A box gives its least and greatest corner, a capsule
its end points and radius. -/
structure ZoneSec where
  capsule : Bool := false
  nums : List Int := []
  rank : Nat := 0
  deriving DecidableEq, Repr

/-- A coupled block (R154). CLOSE_TOL and CLOSE_MAX as D32 and as rotation in units of 2^-28 rad. `grasps` holds the grasp transform of
each member in ascending arm number, from the object frame to the member's tool frame: a point in 2^-32 mm and a quaternion with binary
point 30. `mass` and the rows of `inertia`, in the object frame, are in 2^-16 kg and 2^-16 kg·m² (R157; log entry 153). -/
structure BlockSec where
  members : List Nat := []
  grasps : List (List Int) := []
  mass : Int := 0
  inertia : List Int := []
  compliant : Bool := false
  tolT : Int := 0
  tolR : Int := 0
  maxT : Int := 0
  maxR : Int := 0
  closeMat : Nat := 0
  shareMat : Nat := 0
  deriving DecidableEq, Repr

/-- The GEOMETRY section: the arms' kinematics with the coordination capsules, zones, ZONE_MARGIN as D32, and blocks. -/
structure GeomSec where
  arms : Sparse ArmGeom := []
  zones : Sparse ZoneSec := []
  margin : Nat := 400
  blocks : Sparse BlockSec := []
  deriving DecidableEq, Repr

/-! ### SAFETY (08_safety_plane.md, 09_separation.md) -/

/-- Safety functions of a binding (R236): `sls` names one of SLS0 to SLS3. -/
inductive SafFunc where
  | sto | ss1 | ss2 | sos
  | sls (k : Nat)
  deriving DecidableEq, Repr

/-- A request source that the SAFETY section binds (R236): an input pair, the separation condition of an arm, a monitoring violation of a
unit. -/
inductive BindSrc where
  | pair (i : Nat)
  | sep (arm : Nat)
  | viol (unit : Nat)
  deriving DecidableEq, Repr

/-- A binding of a request source to a function and a set of units (R236). Units 0 to 7 are arms, 8 + g is group g. -/
structure SafBind where
  src : BindSrc
  func : SafFunc
  units : List Nat
  auto : Bool := false
  deriving DecidableEq, Repr

/-- Safety values of an arm or a group: speeds as V32, deceleration as A32, times in ms, fractions as U2.14; `sosWin` in
P64 units by axis, `sls` the pairs (V_lim, JF). -/
structure SafUnit where
  ss1Qs : Bool := true
  ss2Qs : Bool := true
  monLag : Nat := 40
  monDec : Nat := 1
  vTol : Nat := 50 * 65536
  vStand : Nat := 5 * 65536
  standT : Nat := 10
  ss1Tmax : Nat := 10
  ss2Tmax : Nat := 10
  sosWin : Sparse Nat := []
  sls : List (Nat × Nat) := []
  slsSto : Bool := false
  vRef : Nat := 0
  deriving DecidableEq, Repr

/-- SSM values of an arm (R270 to R277): `table` holds (v V32, S D32, T µs), distances as D32, T_DRV in 2^-16 ns, SSM_CLEAR_T
in ms. -/
structure SsmArm where
  table : List (Nat × Nat × Nat) := []
  zr : Nat := 0
  tDrv : Nat := 0
  sBand : Nat := 3200
  sHyst : Nat := 800
  clearT : Nat := 500
  stopSs2 : Bool := false
  auto : Bool := false
  deriving DecidableEq, Repr

/-- A sensor (R257): node, frame version, CAP_MAX, entry capsules; speeds as V32, distances as D32, T_MEAS_MAX in 2^-16 ns. -/
structure SensSec where
  node : Nat := 0
  ver : Nat := 1
  capMax : Nat := 0
  entries : List Capsule := []
  vH : Nat := 1600 * 65536
  vObst : Nat := 0
  c : Nat := 0
  zd : Nat := 0
  tMax : Nat := 20000000 * 65536
  deriving DecidableEq, Repr

/-- The SAFETY section. `antiv` are the pairs in ANTIV mode, `tpOf` the TP of an input, `outUnits` the units of an output,
`edOut` the output that an ED input monitors, `series` the outputs in series in one path, `arms` the kinematics of the arms with their robot capsules (R254). -/
structure SafetySec where
  antiv : List Nat := []
  tpOf : Sparse Nat := []
  outUnits : Sparse (List Nat) := []
  edOut : Sparse Nat := []
  series : List (List Nat) := []
  binds : List SafBind := []
  units : Sparse SafUnit := []
  sensors : Sparse SensSec := []
  ssm : Sparse SsmArm := []
  stopSets : List (List Nat) := []
  recoverN : Nat := 4
  tolD : Nat := 64
  degrV : Nat := 250 * 65536
  degrJf : Nat := 4915
  degrT : Nat := 60
  resetSi : Nat := 0
  arms : Sparse ArmGeom := []
  deriving DecidableEq, Repr

/-! ### RING (12_lockstitch_schedule.md, 13_lockstitch_startup_healing.md) -/

/-- A node of a port's node list: its identity, versions, owner controller with that controller's index, axes in node order, units it
serves, the offset of its record in the command area (R344), declared delays from the leader on P and on S in ns, T_PREP in ns (R349), CF_MAX
and SF_WD. A LATE entry names its spare phase (R380), and a cold-start node has a rank (R366). -/
structure NodeSec where
  type : Nat := 0
  cls : Nat := 0
  lsVer : Nat := 1
  sfVer : Nat := 0
  owner : Nat := 0
  ctl : Nat := 0
  axes : List Nat := []
  units : List Nat := []
  cmdOfs : Nat := 0
  dP : Nat := 0
  dS : Nat := 0
  tPrep : Nat := 1000
  cfMax : Nat := 2
  sfWd : Nat := 2
  late : Option (Nat × Nat) := none
  rank : Option Nat := none
  deriving DecidableEq, Repr

/-- A slot (R347): its reference instant R_s in ns, LEN_MAX, m of its multiplex factor, the owner of each phase (none: SPARE), and the sensor
that is assigned to each phase (R260). -/
structure SlotSec where
  ref : Nat := 0
  lenMax : Nat := 0
  mux : Nat := 0
  owners : List (Option Nat) := []
  sensors : List (Option Nat) := []
  deriving DecidableEq, Repr

/-- A word of the outgoing word area (R344): the word `idx` that cores place, or the value or the velocity of the set-point of an axis for
another controller (R180). -/
inductive WordSec where
  | core (idx : Nat)
  | value (axis : Nat)
  | speed (axis : Nat)
  deriving DecidableEq, Repr

/-- A pair of ring words that this controller reads (R180, R360): the address of the controller that sends them, the places of the value and
of the velocity in its word area, and the loop of an axis that they feed. -/
structure RingIn where
  src : Nat := 0
  value : Nat := 0
  speed : Nat := 0
  axis : Nat := 0
  loop : Nat := 0
  deriving DecidableEq, Repr

/-- A port of the RING section: own address, rank and controller window, ADMIT_T in ms, the declared D_loop in ns, slots and nodes by
number, the words of the outgoing word area, the words read, and R in ns with the payload length of other controllers' cycle frames. -/
structure PortSec where
  self : Nat := 0
  rank : Nat := 0
  ver : Nat := 2
  window : Nat := 0
  admitT : Nat := 1000
  dLoop : Nat := 0
  slots : Sparse SlotSec := []
  nodes : Sparse NodeSec := []
  words : List WordSec := []
  reads : List RingIn := []
  others : List (Nat × Nat) := []
  deriving DecidableEq, Repr

/-! ### CAPTURE (14_capture_cellar_book.md) -/

/-- The source of a capture channel (R392): a register field with its indices, a PPE set-point or a loop value of an axis, a
state-memory word; on the F die the position or delivered speed of a feedback channel (16 and 17 are PI), an analog input, the
safety inputs, the safety output read-backs, the trigger bus levels. -/
inductive CapSrc where
  | field (f : Fld) (i j : Nat)
  | setPos (axis : Nat)
  | setVel (axis : Nat)
  | setTrq (axis : Nat)
  | loopSp (axis : Nat)
  | loopFb (axis : Nat)
  | loopCmd (axis : Nat)
  | cmdVel (axis : Nat)
  | cmdTrq (axis : Nat)
  | fbVel (axis : Nat)
  | force (axis : Nat)
  | state (addr : Nat)
  | fbPos (ch : Nat)
  | fbSpeed (ch : Nat)
  | ai (ch : Nat)
  | si
  | so
  | bus
  deriving DecidableEq, Repr

/-- What CAPTURE gives beside registers: the source of a channel and the first bit of its slice. -/
structure CapSec where
  srcs : Sparse (CapSrc × Nat) := []
  deriving DecidableEq, Repr

/-! ### The Pattern -/


/-- The active Pattern: its sections. `regs` are the values that the Pattern gives to register fields, by key (the reset columns that
read "Pattern"), `msTables` the user microstep tables, `ethCell` the MACs that CC1 of the planes serves (R520). -/
structure Pattern where
  gen : Nat := 0
  format : Nat := 1
  toileBoot : Bool := false
  keySlot : Nat := 0
  safeSlot : Nat := 0
  cell : CellSec := {}
  bases : Sparse BaseSec := []
  arms : Sparse ArmSec := []
  lims : Sparse AxisLim := []
  aux : Sparse AuxSec := []
  groups : Sparse GroupSec := []
  loops : Sparse LoopSec := []
  solver : SolverSec := {}
  geom : GeomSec := {}
  safety : SafetySec := {}
  ring : Sparse PortSec := []
  cap : CapSec := {}
  tasks : Sparse TaskDesc := []
  mem : MemSec := {}
  code : List CodeSec := []
  msTables : Sparse (List Nat) := []
  ethCell : List Nat := []
  regs : List (Nat × Nat) := []
  deriving DecidableEq, Repr

end Sys2Proof
end

