-- ==== Sys2Proof/Machine/Parts.lean ====
section
/-! DEFINITION. The parts of the machine's state beside the register fields: memory, the cellar book, the cell cycle, the
time bases, start-up, the planes' roles, cores, dispatcher, power, host link and pins, each as plain data with its value
after reset as default. Each structure names the rules that give it. -/

namespace Sys2Proof.Machine

/-! ### Memory (17_memory.md) -/

/-- A byte memory: rising addresses, no entry equal to the 0 that an unlisted byte reads as. -/
abbrev Mem := List Host.Cell

/-! ### The cellar book (R413 to R415) -/

/-- A cellar record (R413). The payload is the list of the values that the code's rule puts into it (log entry 6). -/
structure CelRec where
  t : T96
  base : Nat
  hold : Bool
  kind : Nat
  ctrl : Nat
  writer : Nat
  seq : Nat
  code : Nat
  payload : List Int
  deriving DecidableEq, Repr

/-- The cellar: next sequence per writer, staging buffer (oldest first), records discarded and not yet reported per writer, and of
the region the bytes ever written and those the host has read past (R415). -/
structure Cellar where
  seqs : Tab Nat := ⟨0, []⟩
  staging : List CelRec := []
  discarded : Tab Nat := ⟨0, []⟩
  written : Nat := 0
  readTo : Nat := 0
  overNoted : Bool := false
  deriving DecidableEq, Repr

/-! ### Capture (R392 to R412) -/

/-- A capture channel: its previous sample and stamp (none after arming or a change), its latest recorded value. -/
structure CapCh where
  prev : Option (Int × T96) := none
  recv : Int := 0
  deriving DecidableEq, Repr

/-- A record of the capture stream (R396). -/
inductive CapRec where
  | ord (ch : Nat) (t : T96) (v : Int)
  | esc (kind arg : Nat) (t : T96)
  deriving DecidableEq, Repr

/-- A pulse to be driven on a trigger line: the instant on TB0 from which it is due, if it is a calibration pulse or an echo. -/
structure TrgOut where
  line : Nat
  due : Option T96 := none
  deriving DecidableEq, Repr

/-- The capture engine. `bT` is the opening boundary on the plan's base, `tRef` the reference of R397, `hold` the fast records
held until φ5 and `flushed` that this φ5 has passed; `written`, `readTo` and `marks` count bytes ever written: all, those the
host has read past, and the offsets of ANCHOR and ARM records; `lastT` is the time of the latest record but TRIGGER and PAD; `quiet` is
the end of each trigger's holdoff. Of the bus, per line: the latest calibration pulse as its sender and leading edge, the latest pulse
stamped and the latest one driven, each as its leading edge and its width in ns, and the lines held active; and the pulses to drive, the
requested and the running calibration and its number. -/
structure CapSt where
  ch : Tab CapCh := ⟨{}, []⟩
  armReq : Bool := false
  stopReq : Bool := false
  postUntil : T96 := 0
  postDone : Bool := false
  bT : T96 := 0
  tRef : T96 := 0
  armAge : Nat := 0
  hold : List CapRec := []
  flushed : Bool := false
  written : Nat := 0
  readTo : Nat := 0
  overNoted : Bool := false
  marks : List Nat := []
  lastT : T96 := 0
  quiet : Tab T96 := ⟨0, []⟩
  lead : Tab (Option (Nat × T96)) := ⟨none, []⟩
  seen : Tab (Option (T96 × Nat)) := ⟨none, []⟩
  driven : Tab (Option (T96 × Nat)) := ⟨none, []⟩
  outs : List TrgOut := []
  levels : Nat := 0
  calReq : Bool := false
  calAt : Option T96 := none
  calRuns : Nat := 0
  calFirst : Bool := false
  deriving DecidableEq, Repr

/-! ### Time (11_time_bases.md) -/

/-- The argument of a TIME_STEP: an absolute T96, or a signed offset in units of 2^-16 ns (R316). -/
inductive StepArg where
  | abs (t : T96)
  | off (d : Int)
  deriving DecidableEq, Repr

/-- The nominal increment of one REFCLK period of 40 ns, in 2^-32 ns (R309). -/
def nomInc : Int := 171798691840

/-- One time base. `acc` counts units of 2^-32 ns, as at the latest REFCLK step, and of a PULSE base now; `inc` is the total increment of the
REFCLK period that runs, of which `incSlew` is slew, and `srem` the slew that remains after it, in the same unit (R307, R314); `age` the time
in holdover in 2^-16 ns; `nextStep` is a step that waits behind an announced one (R343); `anchor` (2^-32 ns), `pos` and `furthest` (counts) are those of a PULSE base (R320 to R322);
`stepSent` says that a sync frame announced the pending step (R316), `stepNow` that the base was stepped at this boundary. -/
structure BaseSt where
  acc : Int := 0
  inc : Int := 0
  incSlew : Int := 0
  srem : Int := 0
  pendInit : Option T96 := none
  pendStep : Option StepArg := none
  nextStep : Option StepArg := none
  clampNoted : Bool := false
  farNoted : Bool := false
  slewStaged : Bool := false
  slewPend : Bool := false
  holdRate : Int := 0
  trigHold : Bool := false
  goodRun : Nat := 0
  age : Nat := 0
  anchor : Int := 0
  pos : Int := 0
  furthest : Int := 0
  rho : Int := 0
  stepSent : Bool := false
  stepNow : Bool := false
  deriving DecidableEq, Repr

/-- TB3 as VKEEP rises: from zero, at the nominal increment (R309, R310). -/
def tb3Start : BaseSt := { inc := nomInc }

/-- A stamp of the IEEE 1588 queue (R326). -/
structure PtpStamp where
  seqId : Nat
  msg : Nat
  egress : Bool
  onTb3 : Bool
  t : T96
  deriving DecidableEq, Repr

/-- A pulse of a timed event output: its two edges on the base, and whether it is active low, as POL has it (R327). -/
structure TevPulse where
  first : T96
  second : T96
  low : Bool
  deriving DecidableEq, Repr

/-- The run-time schedule of a timed event output (R327 to R330): its next instant, whether it waits for its base, and its latest pulse. -/
structure TevSt where
  next : Option T96 := none
  waiting : Bool := false
  pulse : Option TevPulse := none
  deriving DecidableEq, Repr

/-- The time unit: TR in units of 2^-16 ns, `sub` what of the running REFCLK period has passed, in 2^-48 of it, bases, event outputs, stamp
queues. -/
structure TimeSt where
  tr : T96 := 0
  sub : Nat := 0
  trRun : Bool := false
  bases : Tab BaseSt := ⟨{}, []⟩
  tev : Tab TevSt := ⟨{}, []⟩
  ptpq : Tab (List PtpStamp) := ⟨[], []⟩
  mapSec : Nat := 0
  deriving DecidableEq, Repr

/-! ### The cell cycle (01_cell_cycle.md) -/

/-- A 32-bit word that the cores of the planes place in the word area of a port's cycle frame (R287, R344): its place, and what each plane
placed there. -/
structure CoreWord where
  port : Nat
  idx : Nat
  a : Option Nat := none
  b : Option Nat := none
  deriving DecidableEq, Repr

/-- The placed boundaries: the one that opened the cycle, the one that closes it, and the one that closes the next cycle
once decided (R33). All are T96 values on TB0. `idleLen` says that the
decided cycles have the length of IDLE, `toHold` that the first cycle of the ascent to HOLD runs (R497, R502). `left` are the axes whose work of the running phase stays unfinished
(R41), `words` the words of cores for its frames (R344). `bases` are the bases at the boundary that opened the cycle, `rates` their rates against TB0 over the cycle before, in 2^-24. -/
structure CycSt where
  running : Bool := false
  openAt : T96 := 0
  closeAt : T96 := 0
  nextAt : Option T96 := none
  restart : Bool := false
  idleLen : Bool := false
  toHold : Bool := false
  left : List (Plane × Nat) := []
  rackDone : Bool := false
  rackOk : Bool := true
  announced : Option Nat := none
  started : Bool := false
  words : List CoreWord := []
  bases : Tab T96 := ⟨0, []⟩
  rates : Tab Nat := ⟨16777216, []⟩
  deriving DecidableEq, Repr

/-- SYNC_IN tracking (R42 to R48). `acq` waits for the first edge; `r` and `p` are in units of 2^-32 ns; `cnt` is the phase
of the boundary that opened the cycle; `prevSync` the latest sync boundary; `hold` the cycles in which edges are ignored;
`bigRun` the cycles since the first edge of a run with a large error. -/
structure SyncSt where
  acq : Bool := false
  tracking : Bool := false
  r : Int := 0
  p : Int := 0
  cnt : Nat := 0
  prevSync : T96 := 0
  hold : Nat := 0
  missCnt : Nat := 0
  missArmed : Bool := false
  small : Nat := 0
  bigRun : Option Nat := none
  edges : List T96 := []
  deriving DecidableEq, Repr

/-! ### Cores (15_cores_datapath.md) -/

/-- An activation record (R440). -/
structure Act where
  t : T96 := 0
  base : Nat := 0
  src : Nat := 0
  arg : Nat := 0
  late : Bool := false
  host : Bool := false
  nostamp : Bool := false
  deriving DecidableEq, Repr

/-- A TSK_POST store that waits for room in another core's queue (R450). -/
structure StalledPost where
  task : Nat
  act : Act
  since : T96
  deriving DecidableEq, Repr

/-- A posted store to the DRAM window that DRAM has not yet written (R422). -/
structure Posted where
  addr : Nat
  bytes : List Byte
  deriving DecidableEq, Repr

/-- One FD32 core: the registers of R418 and R419, and its dispatch and interrupt state. `depth` is the nesting depth (R456),
`claims` the sources claimed and not delivered with their levels, `entryWin` the source delivered since the latest instruction
(R458), `fence` a FENCE that waits (R422), `step` that a halted core may run one instruction for the
debug port (R522). -/
structure Core where
  g : Tab Word := ⟨0, []⟩
  a : Tab Acc := ⟨0, []⟩
  p : Tab Word := ⟨0, []⟩
  m : Tab Word := ⟨0, []⟩
  pc : Word := 0
  csw : Word := 0
  epc : Word := 0
  ecsw : Word := 0
  ecause : Word := 0
  eaddr : Word := 0
  evb : Word := 0
  hscnt : Word := 0
  loaded : Bool := false
  started : Bool := false
  halted : Bool := false
  step : Bool := false
  asleep : Bool := false
  parked : Bool := false
  posted : List Posted := []
  depth : Nat := 0
  claims : List (Nat × Nat) := []
  entryWin : Option (Nat × Nat) := none
  curTask : Option Nat := none
  curAct : Act := {}
  intTask : Option Nat := none
  intAct : Act := {}
  postArg : Word := 0
  stall : Option StalledPost := none
  fence : Bool := false
  deriving DecidableEq, Repr

/-! ### Dispatcher (16_dispatch_interrupts.md) -/

/-- The configuration a timer took when it was armed, and its next instant (R453). -/
structure TimerSt where
  base : Nat := 0
  periodic : Bool := false
  t0 : T96 := 0
  per : Nat := 0
  next : T96 := 0
  count : Nat := 0
  deriving DecidableEq, Repr

/-- Task queues, held messages, saved activations and timers of one plane. -/
structure TaskSt where
  q : Tab (List Act) := ⟨[], []⟩
  held : Tab (List Act) := ⟨[], []⟩
  saved : Tab (Option Act) := ⟨none, []⟩
  timers : Tab TimerSt := ⟨{}, []⟩
  noTarget : List Nat := []
  deriving DecidableEq, Repr

/-! ### Plane memory (17_memory.md) -/

/-- Bank power states (R473). -/
inductive BankPwr where
  | on | ret | off
  deriving DecidableEq, Repr

/-- Bank power of one plane's state memory: state, pending requests and the banks being filled (R473, R474). -/
structure PlaneMem where
  bank : Tab BankPwr := ⟨.on, []⟩
  bankReq : Tab (Option BankPwr) := ⟨none, []⟩
  filling : List Nat := []
  deriving DecidableEq, Repr

/-- The memories of one plane by byte offset in each: local memory of each core, and state memory. Solver work memory is held
as the structures that R113 gives it (`SlvSt.mats`). -/
structure PlaneMems where
  loc : Tab Mem := ⟨[], []⟩
  state : Mem := []
  deriving DecidableEq, Repr

/-- Every byte memory of the part: both planes and the DRAM (R465), and the boot flash (R58). Of the flash, the complement of
each byte is held, so that an unlisted byte is an erased one. -/
structure Mems where
  a : PlaneMems := {}
  b : PlaneMems := {}
  dram : Mem := []
  flash : Mem := []
  deriving DecidableEq, Repr

/-- A fused key slot (R53): the SM3 hash of a public key, when programmed, and the revoke fuse. -/
structure KeySlot where
  hash : Option Nat := none
  revoked : Bool := false
  deriving DecidableEq, Repr

/-- The fuses: four key slots (R53). -/
structure Vault where
  slots : Tab KeySlot := ⟨{}, []⟩
  deriving DecidableEq, Repr

end Sys2Proof.Machine
end

