-- ==== Sys2Proof/Machine/PartsHost.lean ====
section
/-! DEFINITION. The state of the host link (19_host_link.md): command rings, reply ring, watchdog, Ethernet, debug. -/

namespace Sys2Proof.Machine

/-- A mailbox command header (R508) with the ring it lies in: `u` is queue U, else queue B. `reserved` holds its last word. -/
structure MbxHdr where
  u : Bool := false
  code : Nat := 0
  len : Nat := 0
  tag : Nat := 0
  seq : Nat := 0
  reserved : Nat := 0
  deriving DecidableEq, Repr

/-- A reply (R510). -/
structure Reply where
  code : Nat
  tag : Nat
  status : Nat
  index : Nat
  seq : Nat
  t : T96
  base : Nat
  deriving DecidableEq, Repr

/-- An Ethernet frame taken by a MAC (R520): its MAC, its length, and whether CC1 of the planes (CELL) or the host owns it. -/
structure EthFrame where
  mac : Nat
  len : Nat
  cell : Bool
  deriving DecidableEq, Repr

/-- A plane reply whose comparison failed: the plane that held the token, its reply, and the reply of the other plane (R288). -/
structure Disputed where
  plane : Plane
  own : Reply
  other : Reply
  deriving DecidableEq, Repr

/-- A debug halt or step request kept per core is in the core; the host link keeps the rest: undelivered headers oldest
first, the expected SEQ of each ring once one was seen, replies in the ring, plane replies of the token holder that wait for their
comparison with those of the shadow beside them, those whose comparison failed, replies of long commands that wait for room,
whether a HOST_TIMEOUT is in force, when WIN_WRITE_REFUSED was last raised, the latest nonce, received frames, host
register writes held until the closing boundary (R280). -/
structure HostSt where
  ringB : List MbxHdr := []
  ringU : List MbxHdr := []
  expB : Option Nat := none
  expU : Option Nat := none
  replies : List Reply := []
  waiting : List Reply := []
  waitingShadow : List Reply := []
  disputed : List Disputed := []
  late : List Reply := []
  deliverCnt : Nat := 0
  deliverBytes : Nat := 0
  timedOut : Bool := false
  winRefusedAt : Option T96 := none
  nonce : Nat := 0
  nonceGiven : Bool := false
  linkUp : Bool := false
  frames : List EthFrame := []
  held : List (Nat × Nat) := []
  deriving DecidableEq, Repr

/-! ### Operands of commands -/

/-- Who writes or reads a register: the host, or a core of a plane. -/
inductive Actor where
  | host
  | core (p : Plane) (c : Nat)
  deriving DecidableEq, Repr

/-- How a STOP, QSTOP, RESUME or ABORT comes: as a mailbox command, or as a write of the arm's command register (R91). -/
inductive Via where
  | mbx (h : MbxHdr)
  | reg (who : Actor)
  deriving DecidableEq, Repr

/-- The ICU register that ICU_SRC_WRITE writes (R462): a source's LEVEL and TARGET, or a core's THRESH. -/
inductive IcuReg where
  | src (s : Fin 512)
  | thresh (c : Fin 10)
  deriving DecidableEq, Repr

/-- What the vendor debug port asks of the part (R522). It reaches cores and memories of both planes, not the safety channels. -/
inductive DebugOp where
  | halt (p : Plane) (core : Nat)
  | step (p : Plane) (core : Nat)
  | read (p : Plane) (core addr len : Nat)
  | write (p : Plane) (core addr : Nat) (bytes : List Byte)
  deriving DecidableEq, Repr

/-- An unlock token (R522): its 96 bytes, and the public key x ‖ y of the slot that it names, which the token does not carry (DESIGN
CHOICE, log entry 166). -/
structure DbgToken where
  bytes : List Byte
  key : List Byte
  deriving DecidableEq, Repr

/-- What ECC finds in a read. -/
inductive Ecc where
  | clean | single | double
  deriving DecidableEq, Repr

end Sys2Proof.Machine
end

