-- ==== Sys2Proof/Machine/PartsBoot.lean ====
section
/-! DEFINITION. The state of the security engine and of start-up (02_pattern_startup.md, 20_package_electrical.md): flash
slots, the Pattern under write, presence and the power-up pins. -/

namespace Sys2Proof.Machine

/-- An entry of the section table (R49); DIGEST as a number, first byte most significant. -/
structure SecEntry where
  kind : Nat
  inst : Nat
  sver : Nat
  ofs : Nat
  len : Nat
  digest : Nat
  deriving DecidableEq, Repr

/-- A Pattern image (R49): its bytes, what its section bodies mean, whose layouts the spec does not give, and the codes of the checks of
R65 over those contents that fail beside the ones the model computes (DESIGN CHOICE, log entry 5). -/
structure Image where
  bytes : List Byte := []
  fails : List Nat := []
  pat : Pattern := {}
  deriving DecidableEq, Repr

/-- State of a slot by its record's COMMIT (R59), coded as PAT_SLOT. -/
inductive SlotState where
  | erased | committed | withdrawn | uncommitted
  deriving DecidableEq, Repr

/-- A flash slot: its record's state and GEN, and the image behind it. -/
structure FlashSlot where
  state : SlotState := .erased
  gen : Nat := 0xFFFFFFFF
  img : Option Image := none
  deriving DecidableEq, Repr

/-- Step of a Pattern write (R60): erasing the slot, programming a chunk, waiting for the next chunk, programming the record,
reading back, programming COMMIT. -/
inductive WriteStep where
  | erase | program | wait | record | readBack | commit
  deriving DecidableEq, Repr

/-- A Pattern write in progress (R61, R516): its slot, its image, the next IMG_OFS, the chunk under way with its window offset,
length and LAST flag, and the header of the command that waits for its reply. -/
structure PatWrite where
  slot : Nat
  img : Image
  step : WriteStep
  next : Nat
  winOfs : Nat
  len : Nat
  last : Bool
  reply : Option Reply
  deriving DecidableEq, Repr

/-- A FLASH_READ in progress (R514). -/
structure FlashRead where
  ofs : Nat
  len : Nat
  winOfs : Nat
  reply : Reply
  deriving DecidableEq, Repr

/-- JTAG instructions (R521). -/
inductive JtagInstr where
  | idcode | bypass | samplePreload | extest | clamp | highz
  deriving DecidableEq, Repr

/-- Start-up and security. `slotA`, `slotB` are flash slots 0 and 1; `active` the active slot with the digests of its CELL, RING
and SAFETY sections; `keepRing` says that the ring stays sewn through the activation (R67), `keepExit`
that the start-up leaves KEEP (R500); `retried` the planes whose LOAD and TASTE were repeated (R71), `stopped` a stop of R71.
`fromReset` says that no TASTE has ended since the
reset. `presAt` is the TR instant at which both presence pins reached their asserted levels. `inReset`, `pwrEn`, `vcoreEn` and `pgood`
are the pins of R532, `porPend` a loss of VKEEP not yet reported. -/
structure BootSt where
  slotA : FlashSlot := {}
  slotB : FlashSlot := {}
  write : Option PatWrite := none
  reads : List FlashRead := []
  active : Option Nat := none
  digCell : Nat := 0
  digRing : Nat := 0
  digSafety : Nat := 0
  keepRing : Bool := false
  keepExit : Bool := false
  retried : List Plane := []
  stopped : Bool := false
  presAt : Option T96 := none
  fromReset : Bool := true
  toileReq : Option Bool := none
  inReset : Bool := true
  pwrEn : Bool := true
  vcoreEn : Bool := true
  pgood : Bool := false
  porPend : Bool := true
  jtag : JtagInstr := .idcode
  deriving DecidableEq, Repr

end Sys2Proof.Machine
end

