-- ==== Sys2Proof/Machine/PartsMotion.lean ====
section
/-! DEFINITION. The state of the motion units of a plane: path engine (03_paths_profiles.md), cooperation
(05_cooperation.md) and solver (04_solver.md), each as plain data with its value after reset as default. -/

namespace Sys2Proof.Machine

/-! ### Segments (R78) -/

/-- A path segment record, decoded: positions as P64, quaternions with binary point 30, derivatives as D32. `resOk` says
that every reserved field is zero; `zones` is the zone set of R146, formed at look-ahead entry. -/
structure Seg where
  typ : Nat := 0
  flags : Nat := 0
  tbase : Nat := 0
  segId : Nat := 0
  vmax : Int := 0
  amax : Int := 0
  jmax : Int := 0
  blendR : Int := 0
  dwellT : Nat := 0
  resOk : Bool := true
  joints : List Int := []
  via : List Int := []
  endP : List Int := []
  quat : List Int := []
  d1 : List Int := []
  d2 : List Int := []
  zones : List Nat := []
  deriving DecidableEq, Repr

/-- Sources of a stop (R91, R138). -/
inductive StopCause where
  | stop | qstop | abort | fault | ss1 | ss2 | starve
  deriving DecidableEq, Repr

/-- A stop request: its cause, and the ramps that it selects, programmed or quick-stop or, where two requests meet, both (R91, R92). -/
structure StopReq where
  cause : StopCause
  prog : Bool
  quick : Bool
  deriving DecidableEq, Repr

/-- One phase of a jerk-limited profile: jerk in units of 2^-8 per s³, length in units of 2^-16 ns (R98). -/
structure Phase where
  jerk : Int
  len : Nat
  deriving DecidableEq, Repr

/-- A profile in progress: its start state (position 2^-32, speed 2^-16, acceleration 2^-12 of the axis unit), its phases
and the time that has run. -/
structure Profile where
  s0 : Int := 0
  v0 : Int := 0
  a0 : Int := 0
  phases : List Phase := []
  t : Nat := 0
  deriving DecidableEq, Repr

/-- A stop in progress: cause, whether it uses the quick-stop ramp, its limits (A32, J32) and its ramp; for a joint stop the profile of
each joint on its own time (R138). -/
structure StopRun where
  cause : StopCause
  quick : Bool
  dec : Nat
  jerk : Nat
  ramp : Profile
  joints : List (Nat × Profile) := []
  deriving DecidableEq, Repr

/-- A zone request or holding of an arm's run (R147 to R151): zones of the run, segments before its first segment, segments
of it that the path has not passed, ticks waited, and whether every token has been granted. -/
structure ZoneRun where
  zones : List Nat
  pre : Nat
  len : Nat
  wait : Nat
  granted : Bool := false
  deriving DecidableEq, Repr

/-- The start of a segment (R79): joints; pose as a point in 2^-32 mm and, once known, a quaternion with binary point 62; the end tangent
of the segment before, with binary point 62, none before the first; the end derivatives of a SPLINE before it. -/
structure SegStart where
  q : List Int := []
  p : List Int := [0, 0, 0]
  tan : List Int := []
  der : List (List Int) := []
  deriving DecidableEq, Repr

/-- The first half of a blend (R83): its radius, and position, first and second derivative of the segment before where it begins, by a
parameter that runs by 1 over the blend; `vmax` is the path speed that R84 allows in it, in V32 of its own space. -/
structure BlendIn where
  r : Nat
  p0 : List Int
  v0 : List Int
  a0 : List Int
  vmax : Nat := 0
  deriving DecidableEq, Repr

/-- One arm. `s`, `v`, `a` are path position in units of 2^-32, path speed 2^-48, path acceleration 2^-44. `la` is the
number of segments in the look-ahead, `faultAfter` the number of segments ahead of a refused one (R80, R148), `zoneStop` the
number of segments ahead of a run whose tokens are not all held (R149). `skip` says that the blend at the end of the current
segment will not be performed (R85), `rate` is the path time per real time on TB2 in units of 2^-24 and `rateStep` its latest change (R101), `dry` that it slows before the
end of the look-ahead (R77). `share` are the zones of which it kept a block's token (R161), `violated` those of other arms in which it
stands (R152). -/
structure ArmSt where
  q : List Seg := []
  la : Nat := 0
  s : Int := 0
  v : Int := 0
  a : Int := 0
  start : SegStart := {}
  pose : List Int := [0, 0, 0]
  skip : Bool := false
  blendIn : Option BlendIn := none
  rate : Nat := 16777216
  rateStep : Int := 0
  stop : Option StopRun := none
  request : Option StopReq := none
  faultAfter : Option Nat := none
  pathFault : Bool := false
  run : Option ZoneRun := none
  zoneStop : Option Nat := none
  dry : Bool := false
  dwellLeft : Nat := 0
  resume : Bool := false
  share : List Nat := []
  violated : List Nat := []
  deriving DecidableEq, Repr

/-- An auxiliary move (R97). `fromSp` says that a REL distance counts from the set-point at the tick. -/
structure Move where
  mode : Nat := 0
  target : Int := 0
  speed : Int := 0
  v : Int := 0
  a : Int := 0
  j : Int := 0
  tbase : Nat := 0
  event : Bool := false
  fromSp : Bool := false
  deriving DecidableEq, Repr

/-- One auxiliary axis (R97 to R111). `base` is the target a REL move is added to; `same` counts cycles with an unchanged
index; `setPos` is the position of an accepted AXIS_SETPOS that waits for the boundary; `rate` is the path time per real time
on TB2 in units of 2^-24, `rateStep` its latest change. -/
structure AuxSt where
  move : Option Move := none
  newMove : Option Move := none
  base : Option Int := none
  prof : Profile := {}
  rate : Nat := 16777216
  rateStep : Int := 0
  pos : Int := 0
  vel : Int := 0
  acc : Int := 0
  goal : Int := 0
  arrived : Bool := true
  stop : Option StopRun := none
  request : Option StopReq := none
  resume : Bool := false
  eUsed : Nat := 0x4000
  idxOfs : Int := 0
  idxPrev : Int := 0
  idxStep : Int := 0
  same : Nat := 0
  setPos : Option Int := none
  coilA : Int := 0
  coilB : Int := 0
  due : Int := 0
  restore : Bool := false
  deriving DecidableEq, Repr

/-- The set-point record of one axis (R32). -/
structure AxSp where
  pos : Int := 0
  vel : Int := 0
  trq : Int := 0
  stale : Bool := false
  deriving DecidableEq, Repr

/-- A coupled block (R155 to R161). `decoup` is 0, or 1 while DECOUPLE waits for its tick, or 2 while F_INT ramps to 0;
`corr` is the closure correction of a tick per member joint, `left` the cycles of the tick that still apply it. -/
structure BlkSt where
  want : Bool := false
  decoup : Nat := 0
  corr : List Int := []
  left : Nat := 0
  wrench : List Int := []
  deriving DecidableEq, Repr

/-- The path and profile engine of one plane. Overrides and scales are by override entry: 0 to 7 arms, 8 to 23 groups. -/
structure PpeSt where
  arms : Tab ArmSt := ⟨{}, []⟩
  aux : Tab AuxSt := ⟨{}, []⟩
  sp : Tab AxSp := ⟨{}, []⟩
  spPrev : Tab AxSp := ⟨{}, []⟩
  ovr : Tab Nat := ⟨0x4000, []⟩
  scale : Tab Nat := ⟨0x4000, []⟩
  tables : Sparse (List Nat) := []
  tablesNew : Sparse (List Nat) := []
  blks : Tab BlkSt := ⟨{}, []⟩
  prox : Tab Nat := ⟨0, []⟩
  deriving DecidableEq, Repr

/-! ### Solver -/

/-- A delta record of R121 with its reserved bits. -/
structure Delta where
  mat : Nat
  row : Nat
  col : Nat
  tgt : Nat
  reserved : Nat
  value : Int
  deriving DecidableEq, Repr

/-- An iterate of R134: delivered values, whether it passed, whether it saturated. -/
structure Iter where
  x : List Int
  pass : Bool
  sat : Bool
  deriving DecidableEq, Repr

/-- The result of a batch on one matrix, in one solution buffer (R143). -/
structure SolBuf where
  stat : Nat := 0
  seq : Nat := 0
  target : T96 := 0
  vals : List Int := []
  deriving DecidableEq, Repr

/-- One resident matrix. `work` is the copy taken at the cut; `stage` counts completed stages; `iters` the iterates formed. -/
structure MatSt where
  ent : List Int := []
  work : List Int := []
  active : Bool := false
  stage : Nat := 0
  pivIdx : Option Nat := none
  sat : Bool := false
  resFail : Bool := false
  iters : List Iter := []
  final : Bool := false
  buf0 : SolBuf := {}
  buf1 : SolBuf := {}
  cur : Bool := false
  x1 : Option (List Int × T96) := none
  x2 : Option (List Int × T96) := none
  age : Nat := 0
  starved : Bool := false
  delivered : Bool := false
  deriving DecidableEq, Repr

/-- A record that waits for room in the queue (R123): the core that writes it, 10 for the PPE, its window and the record. -/
structure StalledDelta where
  core : Nat
  producer : Nat
  delta : Delta
  deriving DecidableEq, Repr

/-- The solver of one plane. `sig` are held done signals as (class, producer); `cut` says that a class had its cut, `late` that its CUT_MAX has passed; `ppeWait` are the
classes for which the PPE signals once its stalled records have entered. -/
structure SlvSt where
  q : List (Nat × Delta) := []
  lo : Tab Nat := ⟨0, []⟩
  hostHeld : List Delta := []
  hostCnt : Nat := 0
  mailHeld : List Delta := []
  stalled : List StalledDelta := []
  ppeWait : List Nat := []
  sig : List (Nat × Nat) := []
  cut : Tab Bool := ⟨false, []⟩
  late : Tab Bool := ⟨false, []⟩
  closed : Tab Bool := ⟨false, []⟩
  mats : Tab MatSt := ⟨{}, []⟩
  deriving DecidableEq, Repr

end Sys2Proof.Machine
end

