-- ==== Sys2Proof/Machine/PartsField.lean ====
section
/-! DEFINITION. The state of the loop engine of a plane (06_loops.md) and of the F die's field inputs and outputs
(07_feedback.md), each as plain data with its value after reset as default. -/

namespace Sys2Proof.Machine

/-! ### Loops (R170) -/

/-- A word from the ring or a slot: last values, whether it arrived in this cycle, whether it ever arrived. -/
structure InWord where
  fresh : Bool := false
  ever : Bool := false
  pos : Int := 0
  vel : Int := 0
  force : Int := 0
  deriving DecidableEq, Repr

/-- Loop state of one axis (R170): integrators and ring sources by loop, gearing (`gPrev`, `gAcc`, `gN`, `gP0`, `gRate`),
set-point offset (P64), the latest feedback values (none before the first), the local position accumulation with the constant
of R111, the position command of a stepper and the latest command. `gNew`, `srcNew` and `fbNew` ask for a re-base (R183,
R184, R190), `ffOnly` and `ramp` follow a fault (R187), `zeroFor` counts cycles with v_sp at 0. -/
structure LpeAx where
  integ : Tab Int := ⟨0, []⟩
  ring : Tab (Option (Int × Int)) := ⟨none, []⟩
  gPrev : Option Nat := none
  gAcc : Int := 0
  gN : Int := 0
  gP0 : Int := 0
  gRate : Int := 0
  gNew : Bool := false
  ofs : Int := 0
  srcNew : Bool := false
  fbNew : Bool := false
  pFb : Option Int := none
  vFb : Option Int := none
  force : Option Int := none
  cntPrev : Nat := 0
  locPos : Int := 0
  encOfs : Int := 0
  pSp : Int := 0
  pCmd : Int := 0
  ffOnly : Bool := false
  ramp : Option Profile := none
  zeroFor : Nat := 0
  clearPend : Bool := false
  vCmd : Int := 0
  tCmd : Int := 0
  deriving DecidableEq, Repr

/-- Filter state of an analog input (R181). -/
structure AiFilt where
  y : Int := 0
  prev : Int := 0
  ever : Bool := false
  deriving DecidableEq, Repr

/-- The loop engine of one plane; `pi` says which pulse input has delivered a value since the Pattern activation (R186). -/
structure LpeSt where
  ax : Tab LpeAx := ⟨{}, []⟩
  ai : Tab AiFilt := ⟨{}, []⟩
  pi : Tab Bool := ⟨false, []⟩
  deriving DecidableEq, Repr

/-! ### Field inputs and outputs -/

/-- One feedback channel (R193 to R212): counter, accepted levels, stamps of the newest counts, counts since a reversal,
run of counts against DIR, index gating and interval, boundary history, SSI state, and the edge that EDGE_POL skips. `conds` holds the
wire-fault conditions of a pair, one bit per class (R209); `pwOpen` is the start of a pulse pair's window of R210, `pwLast` its latest edge,
`pwOn` its time at the counting level and `pwNum` its pulses. -/
structure FbSt where
  cnt : Nat := 0
  a : Bool := false
  b : Bool := false
  z : Bool := false
  zUsed : Bool := false
  zCnt : Nat := 0
  stamps : List T96 := []
  lastUp : Bool := true
  sinceRev : Nat := 0
  dirRun : Nat := 0
  idxStart : Option Nat := none
  idxRev : Bool := false
  idxSkip : Bool := true
  hist : List (Nat × T96) := []
  speedAbs : Nat := 0
  skipEdge : Bool := false
  lastCounted : Bool := false
  ssiPrev : Option Nat := none
  ssiLow : Nat := 0
  ssiBad : Bool := false
  conds : Tab Nat := ⟨0, []⟩
  pwOpen : Option T96 := none
  pwLast : T96 := 0
  pwOn : Nat := 0
  pwNum : Nat := 0
  deriving DecidableEq, Repr

/-- One analog input (R214): saturation of the previous sample, sum and number of samples of the window, faulty mark, and the
newest conversion with its own faulty mark (R394). -/
structure AiSt where
  satPrev : Bool := false
  last : Int := 0
  lastBad : Bool := false
  sum : Int := 0
  num : Nat := 0
  bad : Bool := false
  mean : Int := 0
  deriving DecidableEq, Repr

/-- One pulse divider (R215): remainder, backlog, output state 0 to 3, last edge, Z pulse still to come; consecutive edges with a wrong
read-back and the latest of them (R217). -/
structure PoSt where
  acc : Int := 0
  backlog : Int := 0
  out : Nat := 0
  lastEdge : T96 := 0
  zDue : Bool := false
  z : Bool := false
  badRun : Nat := 0
  badAt : T96 := 0
  deriving DecidableEq, Repr

/-- The stage power of a ring stepper: PD_NOTICE came since it last had power, and STAGE_ON read 0 after it (R109, R110). -/
structure StageSt where
  notice : Bool := false
  off : Bool := false
  deriving DecidableEq, Repr

/-- Field I/O of the F die: channels 0 to 15 are FB, 16 and 17 are PI; `slot` and `word` are what the ring delivered for an
axis and for a loop (axis × 4 + loop), `wordIn` the words that arrived after the latest φ2 start (R180); `stage` is by axis; `sdBacklog` are the runs of
step pulses carried into a later cycle, signed and oldest first, `sdOut` the runs of the cycle, `sdDown` the direction of the latest
pulse (R108). -/
structure FieldSt where
  fb : Tab FbSt := ⟨{}, []⟩
  ai : Tab AiSt := ⟨{}, []⟩
  po : Tab PoSt := ⟨{}, []⟩
  slot : Tab InWord := ⟨{}, []⟩
  word : Tab InWord := ⟨{}, []⟩
  wordIn : Tab InWord := ⟨{}, []⟩
  sdBacklog : Tab (List Int) := ⟨[], []⟩
  sdOut : Tab (List Int) := ⟨[], []⟩
  sdDown : Tab Bool := ⟨false, []⟩
  stage : Tab StageSt := ⟨{}, []⟩
  deriving DecidableEq, Repr

end Sys2Proof.Machine
end

