-- ==== Sys2Proof/Machine/PartsPlane.lean ====
section
/-! DEFINITION. The state of the planes' roles (10_planes_racking.md) and of pace and power (18_pace_power.md) beside their
registers, each as plain data with its value after reset as default. -/

namespace Sys2Proof.Machine

/-- Tasting (R289 to R291): whether a mismatch called for it, whether it has begun, the φ5 starts since, and the verdicts (none until
judged). -/
structure Tasting where
  on : Bool := false
  begun : Bool := false
  cyc : Nat := 0
  a : Option Bool := none
  b : Option Bool := none
  deriving DecidableEq, Repr

/-- What the arbiter reads of a plane at a boundary (R292): its racking generation, its close mark and its role claim of the
cycle; and its rejoin: failed attempts, a wait of 1 s, no line left to copy, cycles of its tasting alone (R290, R298, R299). -/
structure PlaneRole where
  gen : Nat := 0
  mark : Bool := false
  claim : Option Plane := none
  fails : Nat := 0
  retry : Bool := false
  joinReady : Bool := false
  tasteCyc : Nat := 0
  deriving DecidableEq, Repr

/-- The role arbiter and the comparator. `sinceMis` counts boundaries since the cycle of the latest mismatch, `revertNs` and `riddleNs` carry
the part of a second or minute, `swap` the cycles of a riddling swap, `deferred` that R302's wait was noted. -/
structure RedSt where
  a : PlaneRole := {}
  b : PlaneRole := {}
  taste : Tasting := {}
  sinceMis : Nat := 17
  rackFail : Bool := false
  bothFail : Bool := false
  reload : Bool := false
  linkLost : Bool := false
  revertNs : Nat := 0
  riddleNs : Nat := 0
  swap : Nat := 0
  deferred : Bool := false
  deriving DecidableEq, Repr

/-- Pace and power (18_pace_power.md). Windows of 10 µs count the governor's intervals: `since` the latest change of VCMD,
`sinceUp` its latest raise, `high` the windows with a margin above 35 %, `acked` since the regulator acknowledged VCMD, `good`
with PACE at 1.00 or more, `raised` the TR instant of the raise before a ladder step. `lowPrev` says that the previous window met R490,
`thinPrev` that its margin was below 5 %. `target` is the accepted request, `busyTo` the state that an upward step in progress
arrives in, `later` a request that waits, `deep` the lowest state since the latest HOLD,
`wakeNote` the wakes whose record waits for the C die, `slept` the banks that SLEEP took from ON to RET, `chanOff` that SLEEP
switched channel A off. -/
structure PwrSt where
  paceFault : Bool := false
  lowPrev : Bool := false
  thinPrev : Bool := false
  good : Nat := 0
  high : Nat := 0
  since : Nat := 0
  sinceUp : Nat := 2
  acked : Option Nat := none
  avsFails : Nat := 0
  avsPending : Bool := false
  tjWarned : Bool := false
  tjHighed : Bool := false
  target : Option Nat := none
  busyTo : Option Nat := none
  later : Option Nat := none
  raised : Option T96 := none
  deep : Nat := 0
  wakeNote : List Nat := []
  slept : List (Plane × Nat) := []
  chanOff : Bool := false
  deriving DecidableEq, Repr

end Sys2Proof.Machine
end

