-- ==== Sys2Proof/Machine/PartsRing.lean ====
section
/-! DEFINITION. Frames of Lockstitch as their fields, and the state of a port (12_lockstitch_schedule.md,
13_lockstitch_startup_healing.md): its nodes as the controller sees them and as the rules drive them, and its slots. -/

namespace Sys2Proof.Machine

/-- The two paths of a port (R333). -/
inductive Path where
  | P | S
  deriving DecidableEq, Repr

/-- How a frame ended on the lane (R338): END_GOOD or END_ABORT. -/
inductive FrameEnd where
  | good | aborted
  deriving DecidableEq, Repr

/-- What a receiver sees of a frame beside the low nine bits of SRC and the payload (R338): the other header fields, HCRC, the FCS and the
end delimiter. `srcHigh` are the reserved bits of SRC. -/
structure RxHead where
  type : Nat
  ver : Nat := 1
  flags : Nat := 0
  srcHigh : Nat := 0
  win : Nat := 0
  len : Nat := 0
  cyc : Nat := 0
  hcrc : Nat := 0
  fcs : Nat := 0
  fin : FrameEnd := .good
  deriving DecidableEq, Repr

/-- A frame that this controller sends (R338): its header fields and its payload bytes. LEN, HCRC and FCS follow from them. -/
structure TxFrame where
  type : Nat
  ver : Nat
  flags : Nat
  src : Nat
  win : Nat
  cyc : Nat
  pay : List Nat
  fin : FrameEnd := .good
  deriving DecidableEq, Repr

/-- What a sync frame says (R341). `len` is LEN_NS and LEN_FRAC in 2^-16 ns; MODE bits: `mode` of the announced cycle, `next` of the one
after; `src` its sender; `err` is how much later than the declared delays predict it arrived, in 0.2 ns. -/
structure SyncFrame where
  tBnd : T96
  cycnt : Nat
  len : Nat
  mode : Nat
  next : Nat
  rank : Nat
  sched : Nat
  step : Option T96
  src : Nat
  err : Int
  deriving DecidableEq, Repr

/-- A sync frame as it arrives: header, sender, payload bytes, arrival error in 0.2 ns. -/
structure SyncRx where
  head : RxHead
  src : Nat
  pay : List Nat
  err : Int
  deriving DecidableEq, Repr

/-- A copy of a cycle frame as it arrives on a path (R344). -/
structure CycleRx where
  head : RxHead
  path : Path
  pay : List Nat
  deriving DecidableEq, Repr

/-- The header and the CRC of a permission sub-frame beside SEQ (R354); T_STAMP as its 12 bytes. -/
structure PermHead where
  sfType : Nat
  ver : Nat
  num : Nat := 0
  status : Nat := 0
  stamp : List Nat
  crc : Nat
  deriving DecidableEq, Repr

/-- A tack frame beside RANK and SCHED (R358). -/
structure TackRx where
  head : RxHead
  path : Path
  src : Nat
  lsVer : Nat
  res : Nat := 0
  ident : Nat
  deriving DecidableEq, Repr

/-- A claim frame beside its sender and TRY (R358): `slot` is the field SLOT with the claimed slot and phase. -/
structure ClaimRx where
  head : RxHead
  path : Path
  slot : Nat
  lsVer : Nat
  sched : Nat
  ident : Nat
  deriving DecidableEq, Repr

/-- An identity record (R371); `res` are its reserved bytes. -/
structure Ident where
  type : Nat
  cls : Nat
  addr : Nat
  lsVer : Nat
  sfVer : Nat
  res : Nat := 0
  serial : Nat
  fwRev : Nat
  deriving DecidableEq, Repr

/-- A drive status record (R348). -/
structure DriveRec where
  pos : Int
  vel : Int
  trq : Int
  stat : Nat
  force : Int
  deriving DecidableEq, Repr

/-- A message in a slot frame: its channel, its offset in the ring buffer (R440), its bytes. -/
structure RingMsg where
  ch : Nat
  ofs : Nat
  bytes : List Nat := []
  deriving DecidableEq, Repr

/-- The payload of a slot frame as the node list splits it (R348): an identity record, or the bytes of the safety sub-frames, process records
in node axis order, and messages. -/
inductive SlotPayload where
  | ident (r : Ident)
  | process (subs : List (List Nat)) (recs : List DriveRec) (msgs : List RingMsg)
  deriving DecidableEq, Repr

/-- The permission sub-frame of one channel that a node accepted last (R356): its SEQ, its map, cycles since. -/
structure Permit where
  seq : Option Nat := none
  map : List Nat := []
  age : Nat := 0
  deriving DecidableEq, Repr

/-- A node: its state in the controller (LSn_NINFO), its latest identity record and the length of the run of identical ones,
`live` that its latest process record showed torque (STO_ACTIVE 0), its empty and returned due phases, its last CF_MISS, the copies of this cycle, its corrections in 1/16 ns as sent and as measured;
and the node itself: integration, command record taken, record applied, misses in a row, permissions, claims, and by axis
its copy of the microstep table selected (R107). -/
structure NodeSt where
  state : Nat := 1
  late : Bool := false
  reason : Nat := 0
  id : Option Ident := none
  idRun : Nat := 0
  errP : Option Int := none
  errS : Option Int := none
  corrIn : Int := 0
  corrOut : Int := 0
  /-- The leader has measured the node (R373). -/
  measured : Bool := false
  measIn : Int := 0
  measOut : Int := 0
  emptyRun : Nat := 0
  backRun : Nat := 0
  /-- It has been admitted before (R379). -/
  known : Bool := false
  /-- It lies in a run that was raised as PARTITION (R389). -/
  parted : Bool := false
  cfMiss : Bool := false
  live : Bool := false
  gotP : Bool := false
  gotS : Bool := false
  missP : Nat := 0
  missS : Nat := 0
  integ : Bool := false
  /-- The sync frames of each path while it integrates (R369). -/
  lastP : Option SyncFrame := none
  lastS : Option SyncFrame := none
  /-- Arrival errors of the sync copies of this cycle, in 0.2 ns (R373). -/
  syncP : Option Int := none
  syncS : Option Int := none
  /-- Its corrections of D_P(L→x), D_P(x→L) and D_S(L→x) in 1/16 ns, and those that it adds at the boundary (R373). -/
  adjIn : Int := 0
  adjOut : Int := 0
  adjS : Int := 0
  adjNext : Option (Int × Int) := none
  taken : Option (List Int) := none
  applied : List Int := []
  misses : Nat := 0
  stopped : Bool := false
  permA : Permit := {}
  permB : Permit := {}
  safDiff : Bool := false
  /-- A claimant (R381, R382): its attempt, the due phases that it still waits, its undisturbed claims in a row, whether it holds its phase,
  whether it was disturbed in this cycle, and its silence after attempt 15. -/
  claimTry : Nat := 0
  claimWait : Nat := 0
  claimHit : Bool := false
  claimRun : Nat := 0
  holds : Bool := false
  claimMute : Bool := false
  /-- The node feeds the transmitter of a path with idle pairs: it wraps (R383). -/
  feedP : Bool := false
  feedS : Bool := false
  tables : Sparse (List Nat) := []
  deriving DecidableEq, Repr

/-- A slot in this cycle: the payload first accepted, whether it was empty in its latest due cycle, the claimants heard in it and whether a
claim in it was corrupted. -/
structure SlotSt where
  first : Option (List Nat) := none
  was : Bool := true
  claims : List Nat := []
  claimBad : Bool := false
  deriving DecidableEq, Repr

/-- One port. `loopP` and `loopS` are the measured D_loop in ns (R336), `leader` the address of the leader, `feedP` and `feedS` that the
controller feeds the transmitter of a path with idle pairs (R383), `relayP` and `relayS` how the latest frame that it repeated ended (R340).
`outP` and `outS` are the latest cycle frame sent on each path (R335, R344), `tackOut` and `syncOut` the latest tack and sync frame, `permsA`
and `permsB` the nodes that the latest permission sub-frames of each channel permit, `permSeq` and `permT` their SEQ and T_STAMP (R354, R355),
`overDelay` that a measured D_loop lies above its declared value (R336),
`sewnIn` the boundaries until announced sewn takes effect, `hush` those until an integrated port transmits (R369), `codes` the codes raised in this cycle (R363), `run` the cycles for
which the unwrap condition held, `lastP` and `lastS` the latest sync frame of each path while integrating. -/
structure PortSt where
  nodes : Tab NodeSt := ⟨{}, []⟩
  slots : Tab SlotSt := ⟨{}, []⟩
  lockP : Bool := false
  lockS : Bool := false
  repeating : Bool := false
  feedP : Bool := false
  feedS : Bool := false
  relayP : Option FrameEnd := none
  relayS : Option FrameEnd := none
  silent : Bool := false
  mismatch : Bool := false
  tackP : Bool := false
  tackS : Bool := false
  loopP : Nat := 0
  loopS : Nat := 0
  openWait : Bool := false
  leader : Nat := 0
  firstSync : T96 := 0
  sewnIn : Option Nat := none
  hush : Option Nat := none
  lastP : Option SyncFrame := none
  lastS : Option SyncFrame := none
  missP : Nat := 0
  missS : Nat := 0
  muted : Bool := false
  goodSync : Nat := 0
  lift : Bool := false
  cutOff : Bool := false
  outP : Option TxFrame := none
  outS : Option TxFrame := none
  tackOut : Option TxFrame := none
  syncOut : Option TxFrame := none
  permsA : List Nat := []
  permsB : List Nat := []
  permSeq : Nat := 0
  permT : T96 := 0
  overDelay : Bool := false
  run : Nat := 0
  codes : List Nat := []
  deriving DecidableEq, Repr

/-- The ring controller: four ports (R364). -/
structure RingSt where
  ports : Tab PortSt := ⟨{}, []⟩
  deriving DecidableEq, Repr

end Sys2Proof.Machine
end

