-- ==== Sys2Proof/Machine/PartsSafety.lean ====
section
/-! DEFINITION. The state of the safety plane (08_safety_plane.md) and of separation monitoring (09_separation.md): two
channels, each with its own inputs and decisions, and the shared safety I/O, with the values after reset as defaults. -/

namespace Sys2Proof.Machine

/-- The two safety channels (R219). -/
inductive Chan where
  | a | b
  deriving DecidableEq, Repr

/-! ### Person sets (R258 to R266) -/

/-- A person capsule of a set. -/
structure PerCap where
  cap : Capsule
  track : Nat
  cls : Nat
  deriving DecidableEq, Repr

/-- A set of person capsules: the complete one, with the instant at which its last part was accepted. -/
structure PerSet where
  seq : Nat := 0
  tMeas : T96 := 0
  ok : Bool := false
  caps : List PerCap := []
  acc : T96 := 0
  deriving DecidableEq, Repr

/-- An accepted part of a set: the header values that every part of a set shares, and its capsules (R261). -/
structure PerPart where
  tMeas : T96
  npart : Nat
  status : Nat
  caps : List PerCap
  deriving DecidableEq, Repr

/-- An incomplete set: its sequence and the accepted parts by index. -/
structure PerAsm where
  seq : Nat
  parts : Sparse PerPart := []
  deriving DecidableEq, Repr

/-- Condition of a sensor at a latch (R263). -/
inductive SensCond where
  | valid | stale | unseen
  deriving DecidableEq, Repr

/-- One sensor in one channel. `building` are the incomplete sets, `done` the SEQs of completed ones that are not later than the last,
`newest` is the newest complete set, `older` the one before, `good` the last one with SENS_OK = 1 and `goodOld` the one before, `latched` the
set in use, `wasRej` that the previous part was rejected, `anyAcc` that a part was ever accepted. -/
structure SensSt where
  building : List PerAsm := []
  done : List Nat := []
  newest : Option PerSet := none
  older : Option PerSet := none
  good : PerSet := {}
  goodOld : PerSet := {}
  latched : PerSet := {}
  seqLast : Nat := 0
  cond : SensCond := .unseen
  recover : Nat := 0
  crcCnt : Nat := 0
  otherCnt : Nat := 0
  wasRej : Bool := false
  anyAcc : Bool := false
  deriving DecidableEq, Repr

/-! ### Units (arms and groups) -/

/-- What asks for a function (R236, R242 and the rules of this chapter). -/
inductive SafSrc where
  | boot
  | pair (i : Nat)
  | host
  | ssm
  | sep (arm : Nat)
  | viol (u : Nat)
  | intrusion
  | ramp | sosViol | slsViol | posStale
  | expired | second
  | output (n : Nat)
  | lock (n : Nat)
  | vfield | edPath | handover | planes | selftest | ladder
  deriving DecidableEq, Repr

/-- A demand on a unit: its source, its function, whether its release needs a restart request, whether it demands now, and whether it arose
since the latest decision (R250). -/
structure SafAct where
  src : SafSrc
  func : SafFunc
  manual : Bool
  active : Bool
  new : Bool := false
  deriving DecidableEq, Repr

/-- A monitored stop (R238): whether it is an SS1, and the ramps that its functions select, quick-stop and programmed (R237); `t`
counts safety cycles. `soft` holds v0 and t of an SS2 that acts beside the SS1. -/
structure StopMon where
  ss1 : Bool
  quick : Bool
  prog : Bool
  v0 : Int
  t : Nat := 0
  soft : Option (Int × Nat) := none
  deriving DecidableEq, Repr

/-- A monitored speed limit (R240): capsule speed, joint fraction, and the envelope toward it while one runs. -/
structure LimMon where
  v : Nat
  jf : Nat
  env : Option (Int × Nat) := none
  deriving DecidableEq, Repr

/-- One arm or group in one channel. `still` counts the latches in a row that found v_mon below V_STAND (R238), `degr` says that the limit of
degraded mode is in force (R245, R246). -/
structure UnitSt where
  acts : List SafAct := [{ src := .boot, func := .sto, manual := true, active := false }]
  sto : Bool := true
  stop : Option StopMon := none
  sos : Option (List Int) := none
  lim : Option LimMon := none
  vmon : Int := 0
  still : Nat := 0
  degr : Bool := false
  scale : Nat := 0
  func : Nat := 6
  deriving DecidableEq, Repr

/-- The safe position of a joint or axis in one channel (R241, R255): the newest delivered value, the value of the previous
latch, and the count of consecutive missing cycles. `fresh` and `missed` collect what arrived since the latch. -/
structure SafPos where
  pos : Int := 0
  stamp : T96 := 0
  prev : Int := 0
  prevStamp : T96 := 0
  vel : Int := 0
  known : Bool := false
  fresh : Bool := false
  missed : Bool := false
  missCnt : Nat := 0
  deriving DecidableEq, Repr

/-- Robot capsules of an arm in one channel with the velocities of their end points (V32) (R255, R256). -/
structure ArmCaps where
  caps : List Capsule := []
  vels : List (List Int × List Int) := []
  stamp : T96 := 0
  tPos : Nat := 0
  deriving DecidableEq, Repr

/-- What SSM found for an arm at the latest latch (R267 to R277): the separation of every pair with its sensor and track, the least separation with its S_p and pair, the scale in 64ths,
the stop request, whether every pair met the clearance condition at it, the intrusion, and the tracks that caused the stop and the intrusion
(R278). -/
structure SsmRes where
  seps : List (Nat × Nat × Int) := []
  sep : Option Int := none
  sp : Int := 0
  track : Nat := 0
  sensor : Nat := 0
  scale : Nat := 0
  stop : Bool := false
  clearOk : Bool := false
  intrusion : Bool := false
  stopTrack : Nat := 0
  intrTrack : Nat := 0
  deriving DecidableEq, Repr

/-- The latest sub-frame of a safety I/O node (R354): input levels, test-pulse status, output read-back, and the boundary at which the inputs
were sampled. -/
structure SafIoIn where
  levels : Nat := 0
  pulses : Nat := 0
  readback : Nat := 0
  stamp : T96 := 0
  deriving DecidableEq, Repr

/-- One safety channel: whether it is active, its filtered and raw input levels, latched pairs and their progress, the reads
of ED (dropped) with the safety cycles since, its sensors, positions and units. By system node ID: `sfSeq` is the SEQ of the latest 0x31 or
0x41 sub-frame, `sfStat` its STATUS, `io` the latest 0x41 sub-frame (R354). -/
structure ChanSt where
  ok : Bool := true
  raw : Nat := 0
  lvl : Nat := 0
  disc : Nat := 0
  discSeen : Nat := 0
  ed : Nat := 0
  edCnt : Tab Nat := ⟨0, []⟩
  sens : Tab SensSt := ⟨{}, []⟩
  pos : Tab SafPos := ⟨{}, []⟩
  caps : Tab ArmCaps := ⟨{}, []⟩
  ssm : Tab SsmRes := ⟨{}, []⟩
  units : Tab UnitSt := ⟨{}, []⟩
  sfSeq : Sparse Nat := []
  sfStat : Sparse Nat := []
  io : Sparse SafIoIn := []
  deriving DecidableEq, Repr

/-- What a channel publishes for the comparison (R223): decision bits and scales by unit, and every separation distance with its arm, sensor
and track. -/
structure Published where
  bits : List Nat := []
  scales : List Nat := []
  seps : List (Nat × Nat × Nat × Int) := []
  deriving DecidableEq, Repr

/-- The safety plane. `startAt` and `startTb0` are the stamps of the latest safety-cycle start on TB3 and TB0 (R37), `soCodes` the codes of
each output's present fault (R231), `edUnits` the units that a lockout of an ED input holds (R234), `viol` the units of which a monitor found
a violation in the latest cycle (R236). `missTp` counts a TP's pulses that an input failed to see, `foreign` the inputs that see another TP, with that TP,
`tpBad` the TPs whose read-back differed, `soAbsent` the safety cycles for which an output's fault has been absent, `edJudged`
the ED inputs judged since their output switched on, `refused` the outputs whose switch-on was refused, `restart` the units whose restart request
waits for the next decision, `selftest` a self-test in progress, `msDiv` safety cycles in the running ms. -/
structure SafSt where
  a : ChanSt := {}
  b : ChanSt := {}
  pubA : Published := {}
  pubB : Published := {}
  missRun : Nat := 0
  selftest : Bool := false
  handoverOpen : Bool := false
  missTp : Tab Nat := ⟨0, []⟩
  foreign : List (Nat × Nat) := []
  tpBad : List Nat := []
  soAbsent : Tab Nat := ⟨0, []⟩
  edJudged : List Nat := []
  refused : List Nat := []
  vfieldBad : Bool := false
  planesGone : Bool := false
  restart : List Nat := []
  expired : Bool := false
  msDiv : Nat := 0
  staleSens : List Nat := []
  startAt : T96 := 0
  startTb0 : T96 := 0
  soCodes : List (Nat × Nat) := []
  edUnits : Sparse (List Nat) := []
  viol : List Nat := []
  deriving DecidableEq, Repr

end Sys2Proof.Machine
end

