-- ==== Sys2Proof/Machine/Dev.lean ====
section
/-! DEFINITION. The device: every register, unit, queue and pin of the part but the command queue, the fuses and the byte
memories, which `State` holds beside it. Every field's default is its value after reset. -/

namespace Sys2Proof.Machine

/-- What exists once per compute plane (R2). `recs` are the cellar records that the plane formed since the latest comparison, as
code and payload (R281, R287). -/
structure PlaneDev where
  recs : List (Nat × List Int) := []
  cores : Tab Core := ⟨{}, []⟩
  task : TaskSt := {}
  mem : PlaneMem := {}
  slv : SlvSt := {}
  ppe : PpeSt := {}
  lpe : LpeSt := {}
  deriving DecidableEq, Repr

/-- A consistent set that waits for its block's boundary (R11): block number, plane, and the staged values by key. -/
structure ApplySet where
  blk : Blk
  plane : Plane
  vals : List (Nat × Nat)
  deriving DecidableEq, Repr

/-- The racking set of one plane at an instant (R284): its units, its register fields, its pending sets, its memories. -/
structure RackSide where
  lpe : LpeSt := {}
  ppe : PpeSt := {}
  task : TaskSt := {}
  mats : Tab MatSt := ⟨{}, []⟩
  regs : Sparse Nat := []
  sets : List ApplySet := []
  mem : PlaneMems := {}
  deriving DecidableEq, Repr

/-- The racking of a cycle (R285): the plane it copies from, whether the other plane joins with it (R298), both planes' racking
sets at the φ5 start, that it ended well, and the bytes that the receiving plane wrote since it ended, as space, first offset and
length. -/
structure RackRun where
  src : Plane
  join : Bool
  here : RackSide
  there : RackSide
  ok : Bool := false
  written : List (Nat × Nat × Nat) := []
  deriving DecidableEq, Repr

/-- The device. `regs` holds the live register fields by key and `staging` the staging copies (R9); a key that is not listed
holds the field's reset value. `free` counts the free values taken and `cycNo` the boundaries reached; free values are drawn by these two counters,
those that both planes form by the second (log entry 1). -/
structure Dev where
  regs : Sparse Nat := []
  staging : Sparse Nat := []
  applySets : List ApplySet := []
  pat : Pattern := {}
  time : TimeSt := {}
  cyc : CycSt := {}
  sync : SyncSt := {}
  cellar : Cellar := {}
  cap : CapSt := {}
  host : HostSt := {}
  boot : BootSt := {}
  field : FieldSt := {}
  saf : SafSt := {}
  red : RedSt := {}
  rack : Option RackRun := none
  pwr : PwrSt := {}
  ring : RingSt := {}
  planeA : PlaneDev := {}
  planeB : PlaneDev := {}
  free : Nat := 0
  cycNo : Nat := 0
  deriving DecidableEq, Repr

/-- The part: every byte memory and the device. A command's meaning changes these two; the queue and the fuses stand beside
them in `State`. -/
structure Part where
  mems : Mems := {}
  dev : Dev := {}
  deriving DecidableEq, Repr

/-- Applies a change of the device alone. -/
def Part.onDev (f : Dev → Dev) (s : Part) : Part := { s with dev := f s.dev }

end Sys2Proof.Machine
end

