-- ==== Sys2Proof/Machine/Ops.lean ====
section
/-! DEFINITION. The named operations over the device: registers, the clock of the cell, interrupt sources, the cellar book
and the raising of a code (00_scope.md R8 to R24, 14_capture_cellar_book.md R413 to R415, 16_dispatch_interrupts.md R454). -/

namespace Sys2Proof.Machine

/-! ### Register fields -/

/-- The live value of a field: its register file entry, or its reset value. Shared blocks have one home. -/
def Dev.rdAt (d : Dev) (f : Fld) (p : Plane) (i j : Nat) : Nat := (Sparse.find d.regs (f.key p i j)).getD f.rst

/-- Writes the live value of a field, cut to its width. -/
def Dev.wrAt (d : Dev) (f : Fld) (p : Plane) (i j v : Nat) : Dev :=
  { d with regs := Sparse.put d.regs (f.key p i j) (mask f.width v) }

/-- Field `f` of index `i` of a shared block. -/
def Dev.rd (d : Dev) (f : Fld) (i : Nat := 0) : Nat := d.rdAt f .A i 0

/-- Field `f` of index `i` of plane `p`. -/
def Dev.rdP (d : Dev) (p : Plane) (f : Fld) (i : Nat := 0) : Nat := d.rdAt f p i 0

/-- Sets field `f` of index `i` of a shared block. -/
def Dev.wr (d : Dev) (f : Fld) (v : Nat) (i : Nat := 0) : Dev := d.wrAt f .A i 0 v

/-- Sets field `f` of index `i` of plane `p`. -/
def Dev.wrP (d : Dev) (p : Plane) (f : Fld) (v : Nat) (i : Nat := 0) : Dev := d.wrAt f p i 0 v

/-- Sets a field of both planes, as a host write does (R21). -/
def Dev.wrBoth (d : Dev) (f : Fld) (v : Nat) (i : Nat := 0) : Dev := (d.wrP .A f v i).wrP .B f v i

/-- Increments a field, held at its greatest value. -/
def Dev.incSat (d : Dev) (f : Fld) (i : Nat := 0) : Dev := d.wr f (satU f.width (d.rd f i + 1)) i

/-- Increments a field with wrap (serial arithmetic). -/
def Dev.incWrap (d : Dev) (f : Fld) (i : Nat := 0) : Dev := d.wr f (d.rd f i + 1) i

/-- The staging copy of a staged field (R9): equal to the reset value until something is written. -/
def Dev.staged (d : Dev) (f : Fld) (p : Plane) (i j : Nat) : Nat := (Sparse.find d.staging (f.key p i j)).getD f.rst

/-- A staged field has a staging copy of its own: the Pattern gave it a value or someone wrote it. -/
def Dev.inStaging (d : Dev) (f : Fld) (p : Plane) (i j : Nat) : Bool := (Sparse.find d.staging (f.key p i j)).isSome

/-- Writes the staging copy of a staged field. -/
def Dev.stage (d : Dev) (f : Fld) (p : Plane) (i j v : Nat) : Dev :=
  { d with staging := Sparse.put d.staging (f.key p i j) (mask f.width v) }

/-! ### Planes -/

/-- The part of plane `p`. -/
def Dev.pl (d : Dev) : Plane → PlaneDev
  | .A => d.planeA
  | .B => d.planeB

/-- Replaces the part of plane `p`. -/
def Dev.setPl (d : Dev) (p : Plane) (x : PlaneDev) : Dev :=
  match p with
  | .A => { d with planeA := x }
  | .B => { d with planeB := x }

/-- Passes the part of plane `p` through `f`. -/
def Dev.updPl (d : Dev) (p : Plane) (f : PlaneDev → PlaneDev) : Dev := d.setPl p (f (d.pl p))

/-- The plane that holds the token (R281). -/
def Dev.active (d : Dev) : Plane := Plane.ofNum (d.rd .RED_ROLE_ACTIVE)

/-- Applies a change for plane A, then for plane B: both planes work on the same inputs (R21, R279). -/
def bothPlanes (f : Plane → Dev → Dev) (d : Dev) : Dev := f .B (f .A d)

/-- State of a batch: SLV_STATUS.CYC or TICK. -/
def Dev.batchState (d : Dev) (p : Plane) (cls : Nat) : Nat :=
  if cls = 0 then d.rdP p .SLV_STATUS_CYC else d.rdP p .SLV_STATUS_TICK

/-- The power state is below RUN: the PPE plans nothing and the solver only takes its cuts (R496, R497). -/
def Dev.holding (d : Dev) : Bool := decide (1 ≤ d.rd .SYS_LADDER_STATE)

/-! ### Time of the cell -/

/-- A REFCLK period as the time unit divides it to interpolate: 2^48 parts. -/
def subPeriod : Nat := 2 ^ 48

/-- The value of time base `b` in units of 2^-32 ns: its accumulator, interpolated at its total increment (R307). -/
def Dev.baseAcc (d : Dev) (b : Nat) : Int :=
  (d.time.bases.get b).acc + (d.time.bases.get b).inc * d.time.sub / subPeriod

/-- The value of time base `b` in units of 2^-16 ns. -/
def Dev.base (d : Dev) (b : Nat) : T96 := (d.baseAcc b).toNat / 65536

/-- Base states of TBn_STAT: 0 INVALID, 1 VALID, 2 HOLDOVER. -/
def Dev.baseState (d : Dev) (b : Nat) : Nat := d.rd .TB_STAT_STATE b

/-- T_cell in units of 2^-16 ns (R25). -/
def Dev.tCell (d : Dev) : Nat := d.rd .SYS_CYCLE_K * 31250 * nsUnit

/-- T_idle: the largest multiple of T_cell that does not exceed 1 ms (R497). -/
def Dev.tIdle (d : Dev) : Nat := max 1 (32 / d.rd .SYS_CYCLE_K) * d.tCell

/-- The length of the running cycle in units of 2^-16 ns. -/
def Dev.cycLen (d : Dev) : Nat := d.cyc.closeAt - d.cyc.openAt

/-- The length of the cycle after the running one, once decided (R33), else T_cell. -/
def Dev.nextLen (d : Dev) : Nat :=
  match d.cyc.nextAt with
  | some t => t - d.cyc.closeAt
  | none => d.tCell

/-- An instant to a resolution, in 2^-16 ns: its latest multiple (R324; DESIGN CHOICE, log entry 195). -/
def toGrid (u : Nat) (t : T96) : T96 := t / u * u

/-- An instant to 0.2 ns (R324; DESIGN CHOICE, log entry 195). -/
def toFifth (t : T96) : T96 := t * 5 / nsUnit * nsUnit / 5

/-- The instant now for stamps of faults, dispatches, role changes and cellar records: TB0 once it is valid, before that TR, with the base
code of the stamp (R7, R70), to 1.25 ns (R324). -/
def Dev.stamp (d : Dev) : T96 × Nat :=
  if d.baseState 0 = 0 then (toGrid (5 * nsUnit / 4) d.time.tr, 8) else (toGrid (5 * nsUnit / 4) (d.base 0), 0)

/-- The stamp of what happens at the boundary that opens the running cycle: its placed value (R150, R324). -/
def Dev.tickStamp (d : Dev) : T96 × Nat := if d.baseState 0 = 0 then d.stamp else (d.cyc.openAt, 0)

/-! ### Interrupt sources -/

/-- An event of source `n` in plane `p` sets PEND, or MERGED when PEND is 1 already (R454). -/
def icuRaise (p : Plane) (n : Nat) (d : Dev) : Dev :=
  if d.rdP p .ICU_SRC_PEND n = 1 then d.wrP p .ICU_SRC_MERGED 1 n else d.wrP p .ICU_SRC_PEND 1 n

/-- An event of a source in both planes. -/
def icuBoth (n : Nat) (d : Dev) : Dev := bothPlanes (fun p => icuRaise p n) d

/-- An event of a host vector sets its pending bit (R513). -/
def hostVector (v : Nat) (d : Dev) : Dev := d.wr .HST_IRQ_PEND (setBit (d.rd .HST_IRQ_PEND) v true)

/-! ### The cellar book -/

/-- Records that the 256 KiB staging buffer holds (R415). -/
def cellarRoom : Nat := 8192

/-- Removes the newest record that may be discarded for a fault: a notification or an event. -/
def dropOne : List CelRec → Option (CelRec × List CelRec)
  | [] => none
  | r :: t =>
    match dropOne t with
    | some (x, t') => some (x, r :: t')
    | none => if r.kind = 0 then none else some (r, t)

/-- Hands one record to the staging buffer under the discard rule of R415. -/
def Cellar.push (c : Cellar) (r : CelRec) : Cellar :=
  if c.staging.length < cellarRoom then { c with staging := c.staging ++ [r] }
  else if r.kind = 0 then
    match dropOne c.staging with
    | some (x, t) => { c with staging := t ++ [r], discarded := c.discarded.upd x.writer (· + 1) }
    | none => { c with discarded := c.discarded.upd r.writer (· + 1) }
  else { c with discarded := c.discarded.upd r.writer (· + 1) }

/-- Writes one record stamped `t` on base `b`: takes the writer's next SEQ (R413, R414). -/
def recordAt (t : T96) (b : Nat) (code kind writer : Nat) (payload : List Int) (d : Dev) : Dev :=
  let r : CelRec :=
    { t := t, base := b, hold := decide (b < 8) && decide (d.baseState b = 2), kind := kind,
      ctrl := d.rd .CAP_TBUS_CTL_INDEX, writer := writer, seq := d.cellar.seqs.get writer % 2 ^ 32, code := code,
      payload := payload }
  let d1 : Dev := if d.cellar.staging.length < cellarRoom then d else d.wr .CEL_LOSS (satU 32 (d.rd .CEL_LOSS + 1))
  { d1 with cellar := { (d.cellar.push r) with seqs := d.cellar.seqs.upd writer (· + 1) } }

/-- Writes one record stamped now. -/
def record (code kind writer : Nat) (payload : List Int) (d : Dev) : Dev :=
  recordAt d.stamp.1 d.stamp.2 code kind writer payload d

/-! ### Raising a code (R23) -/

/-- Writers of the cellar book (R413). -/
def wShared : Nat := 0
def wPlane : Nat := 1
def wSafA : Nat := 2
def wSafB : Nat := 3
def wField : Nat := 4
def wRing : Nat := 5
def wCap : Nat := 6
def wSec : Nat := 7
def wHost : Nat := 8

/-- What a fault adds to its record: SYS_STATE.LAST_FAULT, and the host vector of faults. -/
def noteFault (c : Code) (d : Dev) : Dev :=
  match c.kind with
  | .fault => hostVector 2 (d.wr .SYS_STATE_LAST_FAULT c.num)
  | _ => d

/-- A unit outside the planes raises a code: its record, its interrupt source in both planes, the fault summary. -/
def raise (c : Code) (writer : Nat) (payload : List Int) (d : Dev) : Dev :=
  let d1 := noteFault c (record c.num c.kind.num writer payload d)
  match c.irq with
  | some n => icuBoth n d1
  | none => d1

/-- The same with a payload of more than 12 bytes: a continuation record of KIND 3 with the same CODE and T follows (R413). -/
def raiseLong (c : Code) (writer : Nat) (payload more : List Int) (d : Dev) : Dev :=
  recordAt d.stamp.1 d.stamp.2 c.num 3 writer more (raise c writer payload d)

/-- A plane forms a record: the comparator takes it (R287). -/
def formRec (p : Plane) (code : Nat) (payload : List Int) (d : Dev) : Dev :=
  d.updPl p (fun x => { x with recs := x.recs ++ [(code, payload)] })

/-- A record of plane `p` stamped `t` on base `b`: written by the token holder, compared from both (R281). -/
def recordP (p : Plane) (t : T96) (b : Nat) (code kind : Nat) (payload : List Int) (d : Dev) : Dev :=
  let d1 := formRec p code payload d
  if d1.active = p then recordAt t b code kind wPlane payload d1 else d1

/-- A unit of plane `p` raises a code: the source in its own plane, the record only from the token holder (R281). -/
def raiseP (p : Plane) (c : Code) (payload : List Int) (d0 : Dev) : Dev :=
  let d := formRec p c.num payload d0
  let d1 := if d.active = p then noteFault c (record c.num c.kind.num wPlane payload d) else d
  match c.irq with
  | some n => icuRaise p n d1
  | none => d1

/-- The memory of plane `p` raises a code: the record whichever plane it is, since such an error is the part's and no result of
the plane (R470, R475; DEDUCED, log entry 24); the source in that plane. -/
def raiseMem (p : Plane) (c : Code) (payload : List Int) (d : Dev) : Dev :=
  let d1 := noteFault c (record c.num c.kind.num wShared payload d)
  match c.irq with
  | some n => icuRaise p n d1
  | none => d1

/-- A safety channel or the safety I/O raises a code: as `raise`, with SAF_STATE.LAST_FAULT for a fault. -/
def raiseSaf (c : Code) (writer : Nat) (payload : List Int) (d : Dev) : Dev :=
  let d1 := raise c writer payload d
  match c.kind with
  | .fault => d1.wr .SAF_STATE_LAST_FAULT c.num
  | _ => d1

/-! ### Start-up stage (02_pattern_startup.md R70) -/

/-- A stage change: both STAGE fields, and event STAGE with the old and the new code, written by writer 7 without a source. -/
def setStage (s : Nat) (d : Dev) : Dev :=
  let old := d.rd .SYS_STATE_STAGE
  if old = s then d
  else record Code.STAGE.num Code.STAGE.kind.num wSec [old, s] ((d.wr .SYS_STATE_STAGE s).wr .PAT_STATUS_STAGE s)

/-! ### Free values -/

/-- Takes a fresh index for free values: the counter advances, so that no later event meets the same index (log entry 1). -/
def Dev.takeFree (d : Dev) : Nat × Dev := (d.free, { d with free := d.free + 1 })

end Sys2Proof.Machine
end

