-- ==== Sys2Proof/Machine/Feedback.lean ====
section
/-! DEFINITION. Position and speed feedback of the F die (07_feedback.md): counting, index, SSI, wire faults, analog inputs
and pulse divider outputs. Channels 16 and 17 are PI0 and PI1 and raise no interrupt source (R193, R218). -/

namespace Sys2Proof.Machine

/-- Passes the field I/O through `f`. -/
def Dev.updField (d : Dev) (f : FieldSt → FieldSt) : Dev := { d with field := f d.field }

/-- Feedback channel `n`. -/
def Dev.fb (d : Dev) (n : Nat) : FbSt := d.field.fb.get n

/-- Passes feedback channel `n` through `f`. -/
def Dev.updFb (d : Dev) (n : Nat) (f : FbSt → FbSt) : Dev := d.updField (fun x => { x with fb := x.fb.upd n f })

/-- Passes pulse divider `o` through `f`. -/
def Dev.updPo (d : Dev) (o : Nat) (f : PoSt → PoSt) : Dev := d.updField (fun x => { x with po := x.po.upd o f })

/-- A channel raises a code: sources 192 + 4 × n on, none for PI0 and PI1 (R218). -/
def raiseFb (c : Code) (n : Nat) (payload : List Int) (d : Dev) : Dev :=
  raise (if n < 16 then c.shift (4 * n) else c.quiet) wField ((n : Int) :: payload) d

/-- A channel raises an interrupt source only. -/
def irqFb (src n : Nat) (d : Dev) : Dev := if n < 16 then icuBoth (src + 4 * n) d else d

/-! ### References and wire faults (R209 to R212) -/

/-- The channel's reference is lost: raised once at the set (R212). -/
def loseRef (n : Nat) (d : Dev) : Dev :=
  if d.rd .FB_STAT_REF_LOST n = 1 then d else raiseFb .REF_LOST n [] (d.wr .FB_STAT_REF_LOST 1 n)

/-- Pairs of a channel: 0 is A, 1 is B, 2 is Z. -/
def wireFld (pair : Nat) : Fld := if pair = 0 then .FB_WIRE_A else if pair = 1 then .FB_WIRE_B else .FB_WIRE_Z

/-- The class of a pair: 0 none, 1 open, 2 line-to-line, 3 to supply, 4 to ground, 5 reversed, 6 clock fault. -/
def Dev.wire (d : Dev) (n pair : Nat) : Nat := d.rd (wireFld pair) n

/-- The code of a wire-fault class (R209). -/
def wireCode (cls : Nat) : Code :=
  match cls with
  | 1 => .FB_OPEN
  | 2 => .FB_SHORT_LL
  | 3 => .FB_SHORT_HI
  | 4 => .FB_SHORT_LO
  | 5 => .FB_REVERSED
  | _ => .SSI_CLK

/-- Pairs that the channel's mode needs (R211). -/
def Dev.neededPairs (d : Dev) (n : Nat) : List Nat :=
  match d.rd .FB_CFG_MODE n with
  | 1 | 3 => [0, 1]
  | 2 => [0, 2]
  | _ => []

/-- A needed pair has a wire fault. -/
def Dev.wireBad (d : Dev) (n : Nat) : Bool := (d.neededPairs n).any (fun q => d.wire n q != 0)

/-- Order of the classes: the one highest in the table of R209 is reported. -/
def wireRank (cls : Nat) : Nat :=
  match cls with
  | 3 => 6
  | 4 => 5
  | 2 => 4
  | 1 => 3
  | 5 => 2
  | 6 => 1
  | _ => 0

/-- The class that is reported of the conditions of a pair: the one highest in the table of R209, 0 for none. -/
def topClass (conds : Nat) : Nat :=
  [3, 4, 2, 1, 5, 6].foldl (fun top c => if top = 0 && bit conds c then c else top) 0

/-- A condition of a pair holds. -/
def Dev.hasCond (d : Dev) (n pair cls : Nat) : Bool := bit ((d.fb n).conds.get pair) cls

/-- A class is reported anew: its code with channel and pair, WIRE_CNT, source 192 + 4 × n, and REF_LOST where the pair is needed (R211). -/
def wireSets (n pair cls : Nat) (d : Dev) : Dev :=
  let d1 := raiseFb (wireCode cls) n [pair] ((d.wr (wireFld pair) cls n).wr .FB_WIRE_WIRE_CNT
    (satU 16 (d.rd .FB_WIRE_WIRE_CNT n + 1)) n)
  if (d.neededPairs n).contains pair && d.rd .FB_CFG_MODE n ≠ 2 then loseRef n d1 else d1

/-- A condition of a pair sets its class (R209, R211); it is reported unless a higher one holds. -/
def wireFault (n pair cls : Nat) (d : Dev) : Dev :=
  if wireRank cls = 0 then d
  else
    let d1 := d.updFb n (fun x => { x with conds := x.conds.upd pair (fun c => setBit c cls true) })
    if wireRank cls ≤ wireRank (d.wire n pair) then d1 else wireSets n pair cls d1

/-- A class clears after 10 ms without its condition (R209): the highest of those that still hold is reported then. After a Z fault the next
interval is not checked (R201). -/
def wireClear (n pair cls : Nat) (d : Dev) : Dev :=
  let d1 := d.updFb n (fun x => { x with conds := x.conds.upd pair (fun c => setBit c cls false) })
  if d.wire n pair ≠ cls || wireRank cls = 0 then d1
  else
    match topClass ((d1.fb n).conds.get pair) with
    | 0 =>
      let d2 := d1.wr (wireFld pair) 0 n
      if pair = 2 then d2.updFb n (fun x => { x with idxSkip := true, zCnt := 0 }) else d2
    | c => wireSets n pair c d1

/-- A short on an output pair of a pulse divider (R217). -/
def poShort (o : Nat) (d : Dev) : Dev := if d.rd .PO_STAT_SHORT o = 1 then d else raise .PO_SHORT wField [o] (d.wr .PO_STAT_SHORT 1 o)

/-- A write of CLR_REF: REF_LOST clears while every needed pair is free of wire faults (R212). -/
def clearRef (n : Nat) (d : Dev) : Dev := if d.wireBad n then d else d.wr .FB_STAT_REF_LOST 0 n

/-- A write of CLR_CNT (FBn_CMD). -/
def clearFbCounters (n : Nat) (d : Dev) : Dev :=
  ((d.wr .FB_ERRCNT_LINE_CNT 0 n).wr .FB_ERRCNT_QUAD_CNT 0 n).wr .FB_WIRE_WIRE_CNT 0 n

/-- A write of IDX_ARM (R199): a second one while ARMED has no further effect. -/
def armIndex (n : Nat) (d : Dev) : Dev := d.wr .FB_STAT_ARMED 1 n

/-! ### Counting (R194 to R202) -/

/-- Counter values are 48 bits. -/
def cnt48 (i : Int) : Nat := unsigned 48 i

/-- The signed difference of two counter values modulo 2^48 (R197). -/
def cntDiff (a b : Nat) : Int := signed 48 (unsigned 48 ((a : Int) - b))

/-- The position of a quadrature state in the upward sequence 00, 10, 11, 01 (A leads B counts up: log entry 9). -/
def quadPos (a b : Bool) : Nat := if a then (if b then 2 else 1) else (if b then 3 else 0)

/-- The IDX_VAL of a channel, sign-extended to 48 bits. -/
def Dev.idxVal (d : Dev) (n : Nat) : Nat := unsigned 48 (signed 32 (d.rd .FB_IDXVAL_IDX_VAL n))

/-- The line-count check of the interval that an index event closes (R201). -/
def lineCheck (n : Nat) (lat : Nat) (d : Dev) : Dev :=
  let x := d.fb n
  let lines := d.rd .FB_LINES n
  let nominal : Int := if d.rd .FB_CFG_MODE n = 3 then lines else 4 * lines
  match x.idxStart with
  | none => d
  | some st =>
    if lines = 0 || x.idxSkip || x.idxRev || absI (absI (cntDiff lat st) - nominal) ≤ d.rd .FB_LINES_LTOL n then d
    else
      let d1 := raiseFb .LINE_COUNT n [cntDiff lat st] ((d.wr .FB_STAT_LINE_ERR 1 n).wr .FB_ERRCNT_LINE_CNT
        (satU 16 (d.rd .FB_ERRCNT_LINE_CNT n + 1)) n)
      if d.rd .FB_CFG_LINE_FATAL n = 1 then loseRef n d1 else d1

/-- An index event at a count: latch, check, action by IDX_MODE, interrupt (R198, R199, R201). `after` is the counter as it
would stand after the count. -/
def indexEvent (n after : Nat) (d : Dev) : Dev :=
  let d1 := lineCheck n after (((d.wr .FB_IDXLAT_LO (after % 2 ^ 32) n).wr .FB_IDXLAT_HI (after / 2 ^ 32) n).wr
    .FB_STAT_IDX_SEEN 1 n)
  let once := decide (d.rd .FB_CFG_IDX_MODE n = 1)
  let armed := decide (d.rd .FB_STAT_ARMED n = 1)
  let v := if !once || armed then d.idxVal n else after
  let d2 := d1.updFb n (fun x => { x with
    cnt := v, idxStart := some v, idxRev := false, idxSkip := false, zUsed := true })
  if once && armed then
    raiseFb .INDEX_SET n [] (((d2.wr .FB_STAT_ARMED 0 n).wr .FB_STAT_IDX_DONE 1 n).wr .FB_STAT_REF_LOST 0 n)
  else if d.rd .FB_CFG_IDX_IRQ n = 1 then irqFb 195 n d2
  else d2

/-- DIR follows after DIR_HYST consecutive counts in the new direction (R202). -/
def dirStep (n : Nat) (up : Bool) (d : Dev) : Dev :=
  let x := d.fb n
  if decide (d.rd .FB_STAT_DIR n = 0) = up then d.updFb n (fun y => { y with dirRun := 0 })
  else if x.dirRun + 1 < d.rd .FB_TIM_DIR_HYST n then d.updFb n (fun y => { y with dirRun := y.dirRun + 1 })
  else
    let d1 := ((d.updFb n (fun y => { y with dirRun := 0 })).wr .FB_STAT_DIR (b2n (!up)) n).wr .FB_STAT_DIRCHG 1 n
    if d.rd .FB_CFG_DIR_IRQ n = 1 then irqFb 194 n d1 else d1

/-- One accepted count of a channel in direction `up` at pin stamp `t`; `gated` says that the index condition of the mode
holds at this count (R198). Answers whether an index event occurred. -/
def countStep (n : Nat) (up gated : Bool) (t : T96) (d : Dev) : Dev × Bool :=
  let x := d.fb n
  let after := cnt48 ((x.cnt : Int) + (if up then 1 else -1))
  let rev := x.lastUp != up
  let zc := if x.z then x.zCnt + 1 else 0
  let d1 := d.updFb n (fun y => { y with
    cnt := after, stamps := (t :: y.stamps).take 5, lastUp := up, sinceRev := if rev then 1 else y.sinceRev + 1
    idxRev := y.idxRev || rev, zCnt := zc })
  let d2 := dirStep n up d1
  let lines := d.rd .FB_LINES n
  let limit := if lines = 0 then 1024 else 2 * lines
  let d3 := if d.rd .FB_CFG_Z_USE n = 1 && limit < zc && !d.hasCond n 2 5 then wireFault n 2 5 d2 else d2
  if d.rd .FB_CFG_Z_USE n = 1 && gated && x.z && !x.zUsed && d.wire n 2 = 0 then (indexEvent n after d3, true)
  else (d3, false)

/-- An illegal quadrature transition (R196). -/
def quadError (n : Nat) (d : Dev) : Dev :=
  loseRef n (raiseFb .QUAD_ERR n [] ((d.wr .FB_STAT_QUAD_ERR 1 n).wr .FB_ERRCNT_QUAD_CNT
    (satU 16 (d.rd .FB_ERRCNT_QUAD_CNT n + 1)) n))

/-- 10 ms, the window of R210. -/
def pulseWindow : Nat := 10000000 * nsUnit

/-- The resting level of a pulse pair over windows of 10 ms from its first edge on (R210, log entry 147): an edge of the pulse line at
`t`, before which it stood at `high`, counting or not. A window with at least 16 pulses in which the line spent more than 75 % of the time at its
counting level reverses the pair. -/
def pulseRest (n : Nat) (high counting : Bool) (t : T96) (d : Dev) : Dev :=
  let x := d.fb n
  match x.pwOpen with
  | none => d.updFb n (fun y => { y with pwOpen := some t, pwLast := t, pwOn := 0, pwNum := b2n counting })
  | some w =>
    let at_ := high == decide (d.rd .FB_CFG_EDGE_POL n = 0)
    if t < w + pulseWindow then
      d.updFb n (fun y => { y with
        pwLast := t, pwOn := if at_ then y.pwOn + (t - y.pwLast) else y.pwOn, pwNum := y.pwNum + b2n counting })
    else
      let on := if at_ then x.pwOn + (w + pulseWindow - x.pwLast) else x.pwOn
      let d1 := d.updFb n (fun y => { y with pwOpen := some t, pwLast := t, pwOn := 0, pwNum := b2n counting })
      if 16 ≤ x.pwNum && 3 * pulseWindow < 4 * on && !d.hasCond n 0 5 then wireFault n 0 5 d1 else d1

/-- The pin stamp of a change that a sample at `t` accepts: the filter delay is taken off (R194). -/
def Dev.pinStamp (d : Dev) (n : Nat) (t : T96) : T96 := t - (d.rd .FB_CFG_FILT n + 1) * 5 * nsUnit

/-- A change of level is accepted once `seen` consecutive samples have shown it (R194). -/
def Dev.filtered (d : Dev) (n seen : Nat) : Bool := decide (d.rd .FB_CFG_FILT n + 1 ≤ seen)

/-- Accepted levels of a channel change at pin stamp `t` (R194, R196). Answers the counts (−1, 0 or 1) and whether an index
event occurred. -/
def acceptLevels (n : Nat) (a b z : Bool) (t : T96) (d : Dev) : Dev × Int × Bool :=
  let x := d.fb n
  let d1 := d.updFb n (fun y => { y with a := a, b := b, z := z, zUsed := y.zUsed && z, zCnt := if z then y.zCnt else 0 })
  match d.rd .FB_CFG_MODE n with
  | 1 =>
    let s := (quadPos a b + 4 - quadPos x.a x.b) % 4
    if s = 0 then (d1, 0, false)
    else if s = 2 then (quadError n d1, 0, false)
    else
      let up := decide (s = 1)
      let r := countStep n up (a && b) t d1
      (r.1, if up then 1 else -1, r.2)
  | 3 =>
    if a = x.a then (d1, 0, false)
    else
      let counting := a == decide (d.rd .FB_CFG_EDGE_POL n = 0)
      let d2 := pulseRest n x.a counting t d1
      if !counting then (d2.updFb n (fun y => { y with lastCounted := false }), 0, false)
      else if x.skipEdge then (d2.updFb n (fun y => { y with skipEdge := false, lastCounted := false }), 0, false)
      else
        let r := countStep n b true t d2
        (r.1.updFb n (fun y => { y with lastCounted := true }), if b then 1 else -1, r.2)
  | _ => (d1, 0, false)

/-! ### Pulse dividers (R215 to R217) -/

/-- Shows the state of a pulse divider. -/
def showPo (o : Nat) (d : Dev) : Dev :=
  let b := (d.field.po.get o).backlog
  (d.wr .PO_STAT_BACKLOG (unsigned 16 (satS 16 b)) o).wr .PO_STAT_LAG (b2n (decide (b ≠ 0))) o

/-- A source count of a pulse divider: exact division; with the backlog at 65,535 a further count in its direction is dropped whole
(R215, R217). -/
def poCount (o : Nat) (c : Int) (d : Dev) : Dev :=
  let x := d.field.po.get o
  let den : Int := d.rd .PO_DEN o
  let by_ := c * signed 32 (d.rd .PO_NUM o)
  if (65535 ≤ x.backlog && decide (0 < by_)) || (x.backlog ≤ -65535 && decide (by_ < 0)) then
    if d.rd .PO_STAT_OVR o = 1 then d else raise .PO_OVERRUN wField [o] (d.wr .PO_STAT_OVR 1 o)
  else
    let acc := x.acc + by_
    let q := if den = 0 then 0 else acc / den
    showPo o (d.updPo o (fun y => { y with acc := acc - q * den, backlog := x.backlog + q }))

/-- Every running divider that follows channel `n` takes a count, and an index event with ZOUT; a wire fault on the
source's needed pairs holds it (R215, R217). Toile mode does not stop the count: the backlog that it builds steps out once toile mode ends
(DESIGN CHOICE, log entry 181). -/
def poFollow (n : Nat) (c : Int) (idx : Bool) (d : Dev) : Dev :=
  if d.wireBad n then d
  else forN 4 (fun o d =>
    if d.rd .PO_CFG_SRC o = n && d.rd .PO_CFG_EN o = 1 then
      let d1 := if c = 0 then d else poCount o c d
      if idx && d.rd .PO_CFG_ZOUT o = 1 then d1.updPo o (fun y => { y with zDue := true }) else d1
    else d) d

/-- The read-back of an output edge at `t` (R217): SHORT sets at the third wrong one in a row, as an SSI clock fault does, and clears at a
right one 10 ms after the last wrong one (log entry 148). -/
def poReadback (o : Nat) (bad : Bool) (t : T96) (d : Dev) : Dev :=
  let x := d.field.po.get o
  if bad then
    let d1 := d.updPo o (fun y => { y with badRun := y.badRun + 1, badAt := t })
    if 3 ≤ x.badRun + 1 then poShort o d1 else d1
  else
    let d1 := d.updPo o (fun y => { y with badRun := 0 })
    if x.badAt + pulseWindow ≤ t then d1.wr .PO_STAT_SHORT 0 o else d1

/-- The output of a divider may step (R215 to R217): it runs, backlog waits, NUM does not hold it, MIN_SEP has passed since its last edge, and
no wire fault of its source holds it. -/
def Dev.poMoves (d : Dev) (o : Nat) (t : T96) : Bool :=
  let x := d.field.po.get o
  d.rd .PO_CFG_EN o == 1 && x.backlog != 0 && d.rd .PO_NUM o != 0 && decide (x.lastEdge + d.rd .PO_CFG_MIN_SEP o * 5 * nsUnit ≤ t) &&
  d.rd .PAT_STATUS_TOILE == 0 && !d.wireBad (d.rd .PO_CFG_SRC o)

/-- The output of a divider steps one quadrature state toward zero backlog, MIN_SEP after its last edge (R215). `bad` says that the read-back
of the edge differs from the driven level. -/
def poStep (o : Nat) (t : T96) (bad : Bool) (d : Dev) : Dev :=
  if !d.poMoves o t then d
  else
    let up := decide (0 < (d.field.po.get o).backlog)
    poReadback o bad t (showPo o (d.updPo o (fun y => { y with
      backlog := if up then y.backlog - 1 else y.backlog + 1
      out := (y.out + (if up then 1 else 3)) % 4, lastEdge := t, z := y.zDue, zDue := false })))

/-! ### SSI (R206, R207) -/

/-- Binary value of a Gray code of `w` bits. -/
def grayToBin (g : Nat) : Nat → Nat
  | 0 => g
  | w + 1 => Nat.xor g (grayToBin (g / 2) w)

/-- Parity bit that a transfer must show: 1 even, 2 odd. -/
def parityOk (mode value : Nat) (bits : Nat) (p : Bool) : Bool :=
  let odd := ((List.range bits).foldl (fun acc i => acc != bit value i) false)
  match mode with
  | 1 => p == odd
  | 2 => p != odd
  | _ => true

/-! ### Samples and speed at a boundary (R193, R197, R203 to R205) -/

/-- S27.4 speed of a count difference over a time in 2^-16 ns, saturated (R204). -/
def speedS27 (dc : Int) (dt : Nat) : Int := if dt = 0 then 0 else satS 32 (rdiv (dc * 16 * secUnit) dt)

/-- Period speed at a boundary, and whether the window speed stands in for it (R203). -/
def periodSpeed (d : Dev) (n : Nat) (tb : T96) : Int × Bool :=
  let x := d.fb n
  let old := match x.stamps.head? with
    | some t => decide (d.rd .FB_TIM_ZERO_T n * 1000000 * nsUnit < tb - t)
    | none => true
  if x.sinceRev < 4 then (0, true)
  else if old then (0, false)
  else
    let s (i : Nat) : T96 := x.stamps.getD i 0
    let dir : Int := if d.rd .FB_STAT_DIR n = 0 then 1 else -1
    let second := tb - s 3
    let span := if x.stamps.length < 5 then second else max (s 0 - s 4) second
    (speedS27 (4 * dir) span, false)

/-- The boundary sample of a channel: position, both speeds, the chosen one, and its faulty mark. -/
def fbSample (n : Nat) (tb : T96) (d : Dev) : Dev :=
  let mode := d.rd .FB_CFG_MODE n
  if mode = 0 || (mode = 2 && d.rd .FB_CFG_SSI_BITS n = 0) then
    (((d.wr .FB_POS_LO 0 n).wr .FB_POS_HI 0 n).wr .FB_SPEED 0 n).wr .FB_STAT_FAULTY 1 n
  else
    let x := d.fb n
    let w := d.rd .FB_CFG_WIN n + 1
    let win := match (x.hist.take w).getLast? with
      | some h => speedS27 (cntDiff x.cnt h.1) (tb - h.2)
      | none => 0
    let per := periodSpeed d n tb
    let vHi := d.rd .FB_SPDSEL_V_HI n * 4096 * 16
    let vLo := d.rd .FB_SPDSEL_V_LO n * 4096 * 16
    let meth : Nat :=
      if mode = 2 then 1
      else if vHi ≤ x.speedAbs then 1
      else if x.speedAbs ≤ vLo then 0
      else d.rd .FB_STAT_SPD_METH n
    let fall := decide (meth = 0) && per.2
    let v := if meth = 1 || fall then win else per.1
    let bad := decide (d.rd .FB_STAT_REF_LOST n = 1) || d.wireBad n || (decide (mode = 2) && x.ssiBad)
    let d1 := d.updFb n (fun y => { y with hist := ((y.cnt, tb) :: y.hist).take 17, speedAbs := v.natAbs })
    let put (f : Fld) (k : Nat) (d : Dev) : Dev := d.wr f k n
    put .FB_STAT_FAULTY (b2n bad) (put .FB_STAT_FALLBACK (b2n fall) (put .FB_STAT_SPD_METH meth
      (put .FB_SWIN (unsigned 32 win) (put .FB_SPER (unsigned 32 per.1) (put .FB_SPEED (unsigned 32 v)
        (put .FB_POS_HI (x.cnt / 2 ^ 32) (put .FB_POS_LO (x.cnt % 2 ^ 32) d1)))))))

/-- What a channel delivers at the boundary instant; an SSI channel delivers when its transfer ends (R208). -/
def fbBoundary (n : Nat) (tb : T96) (d : Dev) : Dev :=
  if d.rd .FB_CFG_MODE n = 2 && d.rd .FB_CFG_SSI_BITS n ≠ 0 then d else fbSample n tb d

/-- The counter and speed of the latest boundary sample, and whether it was faulty. -/
def Dev.fbPos (d : Dev) (n : Nat) : Nat := d.rd .FB_POS_LO n + 2 ^ 32 * d.rd .FB_POS_HI n
def Dev.fbSpeed (d : Dev) (n : Nat) : Int := signed 32 (d.rd .FB_SPEED n)
def Dev.fbBad (d : Dev) (n : Nat) : Bool := decide (d.rd .FB_STAT_FAULTY n = 1)

/-- What an SSI transfer gives (R207): `lowBefore` is the data line low before the first clock edge, `first` the first sampled bit,
`raw` the position bits, `par` the parity bit and `closing` the level after the last bit. -/
def ssiTake (n : Nat) (lowBefore first : Bool) (raw : Nat) (par closing : Bool) (d : Dev) : Dev :=
  let bits := d.rd .FB_CFG_SSI_BITS n
  if d.rd .FB_CFG_MODE n ≠ 2 || bits = 0 then d
  else
    let x := d.fb n
    let low := if lowBefore then x.ssiLow + 1 else 0
    let d0 := d.updFb n (fun y => { y with ssiLow := low })
    let d1 := if 3 ≤ low && !d.hasCond n 0 5 then wireFault n 0 5 d0 else d0
    let value := mask bits (if d.rd .FB_CFG_SSI_CODE n = 1 then grayToBin (mask bits raw) bits else raw)
    if lowBefore || !first || !(parityOk (d.rd .FB_CFG_SSI_PAR n) (mask bits raw) bits par) || closing then
      let d2 := raiseFb .SSI_ERR n [] (((d1.updFb n (fun y => { y with ssiBad := true })).wr .FB_STAT_SSI_ERR 1 n).wr
        .FB_ERRCNT_QUAD_CNT (satU 16 (d.rd .FB_ERRCNT_QUAD_CNT n + 1)) n)
      if d.rd .FB_CFG_SSI_EXT n = 1 then loseRef n d2 else d2
    else if d.rd .FB_CFG_SSI_EXT n = 1 then
      d1.updFb n (fun y => { y with
        ssiBad := false, ssiPrev := some value
        cnt := match y.ssiPrev with
          | some v => cnt48 ((y.cnt : Int) + signed bits (unsigned bits ((value : Int) - v)))
          | none => value })
    else d1.updFb n (fun y => { y with ssiBad := false, ssiPrev := some value, cnt := value })

/-- An SSI transfer ends: its value or failure is taken, and the sample of the boundary that started it is delivered (R206 to R208). -/
def ssiTransfer (n : Nat) (lowBefore first : Bool) (raw : Nat) (par closing : Bool) (d : Dev) : Dev :=
  if d.rd .FB_CFG_MODE n ≠ 2 || d.rd .FB_CFG_SSI_BITS n = 0 then d
  else fbSample n d.cyc.openAt (ssiTake n lowBefore first raw par closing d)

/-! ### Analog inputs (R214) -/

/-- One conversion of an analog input: its signed code and whether its common mode is out of range. -/
def aiSample (c : Nat) (code : Int) (cm : Bool) (d : Dev) : Dev :=
  let v := satS 16 code
  let x := d.field.ai.get c
  let sat := decide (v = -32768) || decide (v = 32767)
  let range := sat && x.satPrev
  let d1 := d.updField (fun f => { f with ai := f.ai.upd c (fun y => { y with
    satPrev := sat, last := v, lastBad := range || cm, sum := y.sum + v, num := y.num + 1, bad := y.bad || range || cm }) })
  let d2 := if range && d.rd .AI_STAT_RANGE c = 0 then raise .AI_RANGE wField [c] d1 else d1
  let d3 := if cm && d.rd .AI_STAT_CM c = 0 then raise .AI_CM wField [c] d2 else d2
  (d3.wr .AI_STAT_RANGE (b2n range) c).wr .AI_STAT_CM (b2n cm) c

/-- The mean delivered with a boundary, over the samples since the previous one. -/
def aiBoundary (c : Nat) (d : Dev) : Dev :=
  let x := d.field.ai.get c
  let m := if x.num = 0 then x.mean else rdiv x.sum x.num
  ((d.updField (fun f => { f with ai := f.ai.upd c (fun y => { y with sum := 0, num := 0, bad := false, mean := m }) })).wr
    .AI_STAT_FAULTY (b2n x.bad) c).wr .AI_STAT_RAW (unsigned 16 m) c

/-! ### Staged sets of the FBI block (07_feedback.md) -/

/-- The first item that APPLY refuses: channel n, 32 + n for POn. Pattern limits bound SSI_DLY and SSI_HALF (R208). -/
def fbiRefused (d : Dev) : Option Nat :=
  let st (f : Fld) (i : Nat) : Nat := d.staged f .A i 0
  let patVal (f : Fld) (i : Nat) : Nat := ((d.pat.regs.find? (fun e => e.1 == f.key .A i 0)).map (·.2)).getD 0
  match (List.range 18).find? (fun n =>
      decide (st .FB_SPDSEL_V_HI n ≤ st .FB_SPDSEL_V_LO n) ||
      st .FB_TIM_DIR_HYST n == 0 || st .FB_TIM_ZERO_T n == 0 ||
      d.rd .FB_CFG_MODE n == 2 && decide (st .FB_TIM_SSI_HALF n < 10) ||
      decide (patVal .FB_TIM_SSI_HALF n < st .FB_TIM_SSI_HALF n) || decide (patVal .FB_TIM_SSI_DLY n < st .FB_TIM_SSI_DLY n)) with
  | some n => some n
  | none =>
    ((List.range 4).find? (fun o => decide (17 < st .PO_CFG_SRC o) || st .PO_DEN o == 0 ||
      decide (2 ^ 31 ≤ st .PO_DEN o) || decide (st .PO_CFG_MIN_SEP o < 5))).map (· + 32)

/-- What becoming live means beside the fields: a new EDGE_POL may skip an edge (R196), a new WIN restarts the window
(R204), new LINES or LTOL leave the next interval unchecked (R201), a new ratio clears the remainder (R216). -/
def fbiLive (old new : Dev) : Dev :=
  let ch (f : Fld) (i : Nat) : Bool := old.rd f i != new.rd f i
  let d1 := forN 18 (fun n d =>
    let d1 := if ch .FB_CFG_EDGE_POL n then d.updFb n (fun y => { y with skipEdge := !y.skipEdge && y.lastCounted }) else d
    let d2 := if ch .FB_CFG_WIN n then d1.updFb n (fun y => { y with hist := [] }) else d1
    if ch .FB_LINES n || ch .FB_LINES_LTOL n then d2.updFb n (fun y => { y with idxSkip := true }) else d2) new
  forN 4 (fun o d =>
    let d2 := if ch .PO_NUM o || ch .PO_DEN o then d.updPo o (fun y => { y with acc := 0 }) else d
    if d2.rd .PO_CFG_EN o = 0 then d2.updPo o (fun y => { y with out := 0, z := false }) else d2) d1

/-- A Pattern activation (R201, R204, R205, R216): what becomes live with it acts as by APPLY, every channel begins to deliver samples anew on
the period method, an SSI channel on its only one, and the first index interval is not checked. -/
def fieldLoad (old d : Dev) : Dev :=
  forN 18 (fun n d => (d.updFb n (fun x => { x with hist := [], speedAbs := 0, idxSkip := true })).wr .FB_STAT_SPD_METH
    (b2n (d.rd .FB_CFG_MODE n == 2)) n) (fbiLive old d)

end Sys2Proof.Machine
end

