-- ==== Sys2Proof/Machine/Mailbox.lean ====
section
/-! DEFINITION. The mailbox (19_host_link.md R508 to R514): the checks of a command, its delivery and its reply. Every
mailbox command of the table is executed through `mailbox` or `mailboxP`. -/

namespace Sys2Proof.Machine

/-- One row of the command set: code, queue U, plane command, first version, and the least and greatest LEN. -/
structure CmdRow where
  code : Nat
  u : Bool
  plane : Bool
  ver : Nat
  lo : Nat
  hi : Nat

/-- The command set of 19_host_link.md. LEN of a command that names one arm, group, axis, block or state is 8, as that of STOP; where nothing
gives the payload's length any multiple of 8 is accepted (DEDUCED, log entry 205). -/
def cmdTable : List CmdRow :=
  [⟨0x10, false, true, 1, 136, 2056⟩, ⟨0x11, false, true, 1, 0, 4096⟩, ⟨0x12, false, true, 1, 520, 520⟩,
   ⟨0x13, false, true, 1, 8, 512⟩, ⟨0x14, false, true, 2, 0, 4096⟩, ⟨0x15, false, true, 1, 0, 4096⟩,
   ⟨0x16, false, true, 2, 8, 8⟩, ⟨0x17, false, true, 2, 8, 8⟩, ⟨0x18, false, true, 2, 8, 8⟩,
   ⟨0x101, true, true, 1, 8, 8⟩, ⟨0x102, true, true, 1, 8, 8⟩, ⟨0x103, true, true, 1, 8, 8⟩,
   ⟨0x104, true, true, 1, 8, 8⟩, ⟨0x105, true, true, 1, 8, 8⟩, ⟨0x106, true, false, 1, 8, 8⟩,
   ⟨0x110, false, false, 1, 0, 4096⟩, ⟨0x111, true, false, 1, 0, 0⟩, ⟨0x112, true, false, 2, 0, 0⟩,
   ⟨0x113, false, false, 1, 0, 4096⟩, ⟨0x120, true, false, 1, 0, 4096⟩, ⟨0x121, true, false, 1, 0, 4096⟩,
   ⟨0x122, true, false, 3, 0, 4096⟩, ⟨0x123, true, false, 3, 0, 4096⟩, ⟨0x124, true, false, 1, 96, 96⟩,
   ⟨0x125, true, false, 1, 0, 0⟩, ⟨0x130, false, false, 3, 16, 4096⟩]

/-- The row of a command code. -/
def cmdRow (code : Nat) : Option CmdRow := cmdTable.find? (fun r => r.code == code)

/-- LEN fits the payload rule of the code: a multiple of 8 in the row's range, and whole records for SEG_APPEND (R508). -/
def lenOk (r : CmdRow) (len : Nat) : Bool :=
  len % 8 == 0 && decide (r.lo ≤ len) && decide (len ≤ r.hi) && (r.code != 0x10 || (len - 8) % 128 == 0)

/-- A cell cycle runs: TB0 is valid and the power state is RUN, HOLD or IDLE (R510). -/
def Dev.cycleRuns (d : Dev) : Bool := decide (d.baseState 0 ≠ 0) && decide (d.rd .SYS_LADDER_STATE ≤ 2)

/-- The checks of R510 in their order; `none` when the command may be delivered. -/
def mbxCheck (h : MbxHdr) (d : Dev) : Option Code :=
  match cmdRow h.code with
  | none => some .MBX_FORMAT
  | some r =>
    if !lenOk r h.len || h.reserved != 0 || (if h.u then d.host.expU else d.host.expB).any (fun e => e != h.seq) then
      some .MBX_FORMAT
    else if d.rd .HST_PROTO_ACT < r.ver then some .MBX_VERSION
    else if r.u != h.u then some .MBX_QUEUE
    else if r.plane && !d.cycleRuns then some .MBX_NOT_READY
    else none

/-- Size of a command in its ring. -/
def MbxHdr.size (h : MbxHdr) : Nat := 16 + h.len

/-- Bytes of the reply ring that the host has not read. -/
def Dev.replyUsed (d : Dev) : Nat := (d.rd .HST_RPL_WP + 2 ^ 19 - d.rd .HST_RPL_RP) % 2 ^ 19

/-- There is room for one more reply beside those that wait (R511). -/
def Dev.replyRoom (d : Dev) : Bool := decide (d.replyUsed + 32 * (d.host.waiting.length + d.host.disputed.length + d.host.late.length) + 32 < 2 ^ 19)

/-- Bytes of a command ring. -/
def ringBytes (u : Bool) : Nat := if u then 0x40000 else 0x100000

/-- Bytes of a command ring between RP and WP. -/
def Dev.ringLevel (d : Dev) (u : Bool) : Nat :=
  let wp := d.rd (if u then .HST_CMDU_WP else .HST_CMDB_WP)
  let rp := d.rd (if u then .HST_CMDU_RP else .HST_CMDB_RP)
  (wp % ringBytes u + ringBytes u - rp % ringBytes u) % ringBytes u

/-- A command is the next of its ring: nothing waits there, or it stands at the front and lies wholly between RP and WP; a plane command of
queue B also waits for those of queue U (R509, R512, R513). -/
def Dev.inTurn (d : Dev) (h : MbxHdr) : Bool :=
  let plane (x : MbxHdr) : Bool := (cmdRow x.code).any (·.plane)
  (match if h.u then d.host.ringU else d.host.ringB with
    | [] => true
    | x :: _ => x == h && decide (h.size ≤ d.ringLevel h.u)) && (h.u || !plane h || !d.host.ringU.any plane)

/-- The controller reads a command now: its reply has room (R511), and it is its turn. -/
def Dev.reads (d : Dev) (h : MbxHdr) : Bool := d.replyRoom && d.inTurn h

/-- A header with CODE 0 at the read pointer takes it to the start of the ring (R508). -/
def skipHead (u : Bool) (d : Dev) : Dev :=
  match if u then d.host.ringU else d.host.ringB with
  | x :: t =>
    if x.code ≠ 0 then d
    else if u then { d with host := { d.host with ringU := t } }.wr .HST_CMDU_RP 0
    else { d with host := { d.host with ringB := t } }.wr .HST_CMDB_RP 0
  | [] => d

/-- Takes a delivered command off its ring: RP passes it, the expected SEQ is one above its own, vector 1 (R509, R524). -/
def passCommand (h : MbxHdr) (d : Dev) : Dev :=
  let drop (l : List MbxHdr) : List MbxHdr := match l with
    | [] => []
    | x :: t => if x = h then t else x :: t
  let exp := some ((h.seq + 1) % 2 ^ 32)
  let d1 : Dev :=
    if h.u then { d with host := { d.host with ringU := drop d.host.ringU, expU := exp } }
    else { d with host := { d.host with ringB := drop d.host.ringB, expB := exp } }
  let d2 := if h.u then d1.wr .HST_CMDU_RP ((d1.rd .HST_CMDU_RP + h.size) % ringBytes true)
    else d1.wr .HST_CMDB_RP ((d1.rd .HST_CMDB_RP + h.size) % ringBytes false)
  hostVector 1 (skipHead h.u d2)

/-- The reply to a command, with T at the delivery instant (R510). -/
def mkReply (h : MbxHdr) (status index : Nat) (d : Dev) : Reply :=
  { code := h.code, tag := h.tag, status := status, index := index, seq := h.seq, t := d.stamp.1, base := d.stamp.2 }

/-- A reply enters the reply ring: WP passes it, vector 0 (R511, R524). -/
def releaseReply (r : Reply) (d : Dev) : Dev :=
  hostVector 0 (({ d with host := { d.host with replies := d.host.replies ++ [r] } }).wr .HST_RPL_WP (d.rd .HST_RPL_WP + 32))

/-- A refused command: its reply carries the code, which is raised, and RP passes it (R510). -/
def refuseCommand (h : MbxHdr) (c : Code) (d : Dev) : Dev :=
  let d1 := raise c wShared [h.code, h.tag] d
  releaseReply (mkReply h c.num 0 d1) (passCommand h d1)

/-- A shared command is executed by its owning unit (R514): `exe` answers the state, the STATUS and the INDEX. While the
reply ring is full, or other commands are before it in its ring, nothing is delivered (R511, R514). -/
def mailbox (h : MbxHdr) (exe : Dev → Dev × Nat × Nat) (d : Dev) : Dev :=
  if !d.reads h then d
  else
    match mbxCheck h d with
    | some c => refuseCommand h c d
    | none =>
      let r := exe d
      releaseReply (mkReply h r.2.1 r.2.2 d) (passCommand h r.1)

/-- A reply of a long command: it waits while the reply ring is full (R511). -/
def lateReply (r : Reply) (d : Dev) : Dev :=
  if d.replyUsed + 32 < 2 ^ 19 then releaseReply r d else { d with host := { d.host with late := d.host.late ++ [r] } }

/-- A long shared command (R514): it is taken at once and its reply follows when it completes; `exe` answers the state and, where the
command ends at once, STATUS and INDEX. -/
def mailboxLong (h : MbxHdr) (exe : Reply → Dev → Dev × Option (Nat × Nat)) (d : Dev) : Dev :=
  if !d.reads h then d
  else
    match mbxCheck h d with
    | some c => refuseCommand h c d
    | none =>
      let r := exe (mkReply h 0 0 d) d
      match r.2 with
      | some (st, ix) => releaseReply (mkReply h st ix d) (passCommand h r.1)
      | none => passCommand h r.1

/-- The command is delivered by `mailbox`. -/
def delivers (h : MbxHdr) (d : Dev) : Bool := d.reads h && (mbxCheck h d).isNone

/-- The reply that the shadow forms to the same command (R281): what the command answers in a part whose token that plane holds. -/
def shadowReply (h : MbxHdr) (exe : Dev → Dev × Nat × Nat) (d : Dev) : Reply :=
  let r := exe (d.wr .RED_ROLE_ACTIVE d.active.other.num)
  mkReply h r.2.1 r.2.2 d

/-- A plane command is delivered to both planes at a φ4 start (R512) when it need not wait for room (R513); both planes form its reply,
and the token holder's is held for the comparator (R281, R287). At most 64 commands and 32 KiB are delivered at one φ4 start. -/
def mailboxP (h : MbxHdr) (room : Bool) (exe : Dev → Dev × Nat × Nat) (d : Dev) : Dev :=
  if !d.reads h then d
  else
    match mbxCheck h d with
    | some c => refuseCommand h c d
    | none =>
      if !room || decide (64 ≤ d.host.deliverCnt) || decide (32768 < d.host.deliverBytes + h.len) then d
      else
        let r := exe d
        let d1 := passCommand h r.1
        { d1 with host := { d1.host with
            waiting := d1.host.waiting ++ [mkReply h r.2.1 r.2.2 d]
            waitingShadow := d1.host.waitingShadow ++ [shadowReply h exe d]
            deliverCnt := d1.host.deliverCnt + 1
            deliverBytes := d1.host.deliverBytes + h.len } }

/-- Releases the plane replies that wait, but for those at the positions `bad`, whose comparison failed (R287, R288). -/
def releaseWaiting (bad : List Nat) (d : Dev) : Dev :=
  let ix := (List.range d.host.waiting.length).zip (d.host.waiting.zip d.host.waitingShadow)
  forL ((ix.filter (fun e => !bad.contains e.1)).map (·.2.1)) releaseReply { d with host := { d.host with
    waiting := [], waitingShadow := []
    disputed := d.host.disputed ++ (ix.filter (fun e => bad.contains e.1)).map (fun e => ⟨d.active, e.2.1, e.2.2⟩) } }

/-- After the verdict of tasting the held replies are sent from the plane that holds the token (R288). -/
def releaseDisputed (d : Dev) : Dev :=
  if d.red.taste.on then d
  else forL (d.host.disputed.map (fun x => if x.plane = d.active then x.own else x.other)) releaseReply
    { d with host := { d.host with disputed := [] } }

end Sys2Proof.Machine
end

