-- ==== Sys2Proof/Machine/Flags.lean ====
section
/-! DEFINITION. CSW and the flag computations of the FD32 datapath (15_cores_datapath.md R419, R423 to R425): which flag an
overflow sets, and what the result becomes, by SATMODE and the S bit. -/

namespace Sys2Proof.Machine

/-! ### CSW (R419) -/

/-- Bit positions of CSW. -/
def cswSatmode : Nat := 0
def cswIe : Nat := 1
def cswWlx : Nat := 2
def cswExc : Nat := 3
def cswV : Nat := 4
def cswSat : Nat := 5
def cswAov : Nat := 6
def cswDz : Nat := 7

/-- Bit `i` of a word. -/
def wbit (w : Word) (i : Nat) : Bool := w.getLsbD i

/-- A word with bit `i` set or cleared. -/
def wset (w : Word) (i : Nat) (v : Bool) : Word :=
  if v then w ||| BitVec.ofNat 32 (2 ^ i) else w &&& ~~~(BitVec.ofNat 32 (2 ^ i))

/-- CSW.LEVEL, bits [11:8]. -/
def cswLevel (w : Word) : Nat := w.toNat / 256 % 16

/-- CSW with LEVEL replaced. -/
def cswSetLevel (w : Word) (l : Nat) : Word := (w &&& 0xFFFFF0FF) ||| BitVec.ofNat 32 (l % 16 * 256)

/-- A write of CSW by MTS (R419): SATMODE, IE and WLX take the value, a 1 clears V, SAT, AOV and DZ, EXC and LEVEL stay, and
the reserved bits read 0. -/
def cswWrite (old v : Word) : Word := (v &&& 0x7) ||| (old &&& 0xF08) ||| (old &&& ~~~v &&& 0xF0)

/-! ### Flag effects of a result -/

/-- The flags that an operation sets. A flag is only ever set by an operation; MTS clears it. -/
structure FlagOut where
  v : Bool := false
  sat : Bool := false
  aov : Bool := false
  dz : Bool := false
  deriving DecidableEq, Repr

/-- CSW after an operation. -/
def cswFlags (w : Word) (f : FlagOut) : Word :=
  w ||| (if f.v then 0x10 else 0) ||| (if f.sat then 0x20 else 0) ||| (if f.aov then 0x40 else 0) ||| (if f.dz then 0x80 else 0)

/-- Saturation applies: SATMODE 1 with S = 1 (R424). -/
def clips (csw : Word) (s : Bool) : Bool := wbit csw cswSatmode && s

/-- Overflow of a result in a g register (R424): `x` is the exact result. -/
def over32 (csw : Word) (s : Bool) (x : Int) : Word × FlagOut :=
  if x = satS 32 x then (BitVec.ofInt 32 x, {})
  else if clips csw s then (BitVec.ofInt 32 (satS 32 x), { sat := true })
  else (BitVec.ofInt 32 x, { v := true })

/-- Overflow of an accumulator (R424): exact in 72 bits, beyond them a wrap with AOV; clipped to 64 bits in SATMODE 1 with
S = 1. -/
def overAcc (csw : Word) (s : Bool) (x : Int) : Acc × FlagOut :=
  if clips csw s then
    (if x = satS 64 x then (BitVec.ofInt 72 x, {}) else (BitVec.ofInt 72 (satS 64 x), { sat := true }))
  else if x = satS 72 x then (BitVec.ofInt 72 x, {})
  else (BitVec.ofInt 72 x, { aov := true })

/-- A shift right of an accumulator value, with the two roundings of R425: toward minus infinity, or to nearest with ties away
from zero. -/
def roundShift (x : Int) (sh : Nat) (rnd : Bool) : Int := if rnd then rdiv x (2 ^ sh : Nat) else x / (2 ^ sh : Nat)

/-- An accumulator store (R424, R425): saturated to `w` bits, with SAT when it saturates. -/
def accStore (w : Nat) (x : Int) : Int × FlagOut := (satS w x, { sat := decide (x ≠ satS w x) })

/-- Division of R423: quotient toward zero, remainder with the sign of the dividend; by zero the quotient of the rule, the
dividend as remainder, and DZ. `s` governs −2^31 by −1 (R424). -/
def divide (csw : Word) (s : Bool) (a b : Word) : Word × FlagOut :=
  if b = 0 then (if 0 ≤ a.toInt then 0x7FFFFFFF else 0x80000000, { dz := true })
  else over32 csw s (Int.tdiv a.toInt b.toInt)

/-- Remainder of R423. -/
def remainder (a b : Word) : Word × FlagOut :=
  if b = 0 then (a, { dz := true }) else (BitVec.ofInt 32 (Int.tmod a.toInt b.toInt), {})

/-- Unsigned division: its dividend is always 0 or more, so by zero it gives 2^31 − 1 (R423; DEDUCED, log entry 20). -/
def divideU (a b : Word) : Word × FlagOut :=
  if b = 0 then (0x7FFFFFFF, { dz := true }) else (BitVec.ofNat 32 (a.toNat / b.toNat), {})

/-- Unsigned remainder. -/
def remainderU (a b : Word) : Word × FlagOut :=
  if b = 0 then (a, { dz := true }) else (BitVec.ofNat 32 (a.toNat % b.toNat), {})

/-- Shift amounts are gb[5:0] (R423). -/
def shiftAmt (b : Word) : Nat := b.toNat % 64

/-- SHL: 32 to 63 gives 0; the exact result governs overflow (R423, R424). -/
def shiftLeft (csw : Word) (s : Bool) (a b : Word) : Word × FlagOut := over32 csw s (a.toInt * 2 ^ shiftAmt b)

/-- SHR: logical; 32 to 63 gives 0. -/
def shiftRight (a b : Word) : Word := BitVec.ofNat 32 (a.toNat / 2 ^ shiftAmt b)

/-- SAR: 32 to 63 fills with the sign. -/
def shiftArith (a b : Word) : Word := BitVec.ofInt 32 (a.toInt / (2 ^ shiftAmt b : Nat))

/-- Redundant sign bits: the run of bits from `top - 1` downward that equal bit `top` (R430). -/
def signRun (f : Nat → Bool) (top : Nat) : Nat → Nat
  | 0 => 0
  | k + 1 => if f k = f top then signRun f top k + 1 else 0

/-- EXP(v) of R430, 0 to 31. -/
def expW (v : Word) : Nat := signRun v.getLsbD 31 31

/-- The run of EXPA, 0 to 71. -/
def expA (v : Acc) : Nat := signRun v.getLsbD 71 71

end Sys2Proof.Machine
end

