-- ==== Sys2Proof/Machine/Operands.lean ====
section
/-! DEFINITION. The operands of the FD32 instructions: the registers of a core (15_cores_datapath.md R418), the system
registers (R419) and the address forms (R420). -/

namespace Sys2Proof.Machine

/-- Core `c` of plane `p`. -/
def Dev.core (d : Dev) (p : Plane) (c : Nat) : Core := (d.pl p).cores.get c

/-- Replaces core `c` of plane `p`. -/
def Dev.setCore (d : Dev) (p : Plane) (c : Nat) (k : Core) : Dev := d.updPl p (fun x => { x with cores := x.cores.set c k })

/-- Passes core `c` of plane `p` through `f`. -/
def Dev.updCore (d : Dev) (p : Plane) (c : Nat) (f : Core → Core) : Dev := d.setCore p c (f (d.core p c))

/-- General register `i`: g0 reads as zero (R418). -/
def Core.rg (k : Core) (i : Nat) : Word := if i = 0 then 0 else k.g.get i

/-- Writes general register `i`: a write to g0 is discarded (R418). -/
def Core.wg (k : Core) (i : Nat) (v : Word) : Core := if i = 0 then k else { k with g := k.g.set i v }

/-- Accumulators, pointers and offset registers. -/
def Core.ra (k : Core) (i : Nat) : Acc := k.a.get i
def Core.wa (k : Core) (i : Nat) (v : Acc) : Core := { k with a := k.a.set i v }
def Core.rp (k : Core) (i : Nat) : Word := k.p.get i
def Core.wp (k : Core) (i : Nat) (v : Word) : Core := { k with p := k.p.set i v }
def Core.rm (k : Core) (i : Nat) : Word := k.m.get i
def Core.wm (k : Core) (i : Nat) (v : Word) : Core := { k with m := k.m.set i v }

/-- Records the flags of an operation in CSW. -/
def Core.flag (k : Core) (f : FlagOut) : Core := { k with csw := cswFlags k.csw f }

/-- The register pair g(i), g(i + 1) as a 64-bit value, the lower word in g(i) (R420). -/
def Core.rpair (k : Core) (i : Nat) : Nat := (k.rg i).toNat + 2 ^ 32 * (k.rg (i + 1)).toNat

/-- Writes the register pair g(i), g(i + 1). -/
def Core.wpair (k : Core) (i v : Nat) : Core := (k.wg i (BitVec.ofNat 32 v)).wg (i + 1) (BitVec.ofNat 32 (v / 2 ^ 32))

/-- CORE_ID of core `c` of plane `p`. -/
def coreId (p : Plane) (c : Nat) : Word := BitVec.ofNat 32 (c % 16 + 16 * p.num)

/-- System register `n` but HSCNT, in the order of R429. -/
def Core.sys (k : Core) (p : Plane) (c n : Nat) : Word :=
  match n with
  | 0 => k.csw
  | 1 => k.epc
  | 2 => k.ecsw
  | 3 => k.ecause
  | 4 => k.eaddr
  | 5 => k.evb
  | 6 => coreId p c
  | _ => k.hscnt

/-- MTS (R419): CSW by its access codes, EPC, ECSW, EVB with bits [7:0] kept 0; a write to any other is ignored. -/
def Core.setSys (k : Core) (n : Nat) (v : Word) : Core :=
  match n with
  | 0 => { k with csw := cswWrite k.csw v }
  | 1 => { k with epc := v }
  | 2 => { k with ecsw := v }
  | 5 => { k with evb := v &&& 0xFFFFFF00 }
  | _ => k

/-- A 32-bit sign extension of an immediate. -/
def imm16 (i : BitVec 16) : Word := i.signExtend 32

/-- The target of a relative branch or jump: `off` instructions from the instruction (R429). -/
def relTarget (pc : Word) (off : Int) : Word := pc + BitVec.ofInt 32 (4 * off)

/-- Bytes that SIZE selects (R420). -/
def sizeBytes (size : Nat) : Nat := 2 ^ (size % 4)

/-- The address of a load or store (R420): p + DISP, or p. -/
def Core.addr (k : Core) (pi : Nat) (pm : Bool) (disp : BitVec 11) : Word :=
  if pm then k.rp pi else k.rp pi + disp.signExtend 32

/-- The pointer after a load or store that completed (R420, R421): p + m with PM = 1. -/
def Core.postMod (k : Core) (pi mi : Nat) (pm : Bool) : Core := if pm then k.wp pi (k.rp pi + k.rm mi) else k

/-- A load or store breaks a rule of its form (R420): PM = 1 with a DISP, or SIZE 64 with an odd register. -/
def badAccess (g : Nat) (pm : Bool) (size : Nat) (disp : BitVec 11) : Bool :=
  (pm && disp != 0) || (size % 4 == 3 && g % 2 == 1)

/-- What a loaded value of SIZE bytes becomes in a register (R420): SX extends the sign of 8 and 16 bits. -/
def extend (size : Nat) (sx : Bool) (v : Nat) : Word :=
  match size % 4 with
  | 0 => if sx then (BitVec.ofNat 8 v).signExtend 32 else BitVec.ofNat 32 (v % 256)
  | 1 => if sx then (BitVec.ofNat 16 v).signExtend 32 else BitVec.ofNat 32 (v % 65536)
  | _ => BitVec.ofNat 32 v

/-- Writes a loaded value to a register or, with SIZE 64, a register pair. -/
def Core.loadTo (k : Core) (g size : Nat) (sx : Bool) (v : Nat) : Core :=
  if size % 4 = 3 then k.wpair g v else k.wg g (extend size sx v)

/-- The value that a store takes from a register or a register pair. -/
def Core.storeVal (k : Core) (g size : Nat) : Nat := if size % 4 = 3 then k.rpair g else (k.rg g).toNat

end Sys2Proof.Machine
end

