-- ==== Sys2Proof/Machine/Geometry.lean ====
section
/-! DEFINITION. Fixed-point geometry: vectors, rotations, poses, forward kinematics, Jacobians and distances of capsules and boxes, for
paths (03_paths_profiles.md), cooperation (05_cooperation.md) and separation (09_separation.md). A length is in 2^-32 mm, a rotation a
quaternion with binary point 62, an angle inside a computation in 2^-62 rad; a result is rounded once where a rule gives an exact value,
and the series of sine and cosine are carried past the last place (log entry 153). -/

namespace Sys2Proof.Machine

/-! ### Vectors -/

def dot3 (a b : List Int) : Int := (List.zipWith (· * ·) a b).foldl (· + ·) 0
def sub3 (a b : List Int) : List Int := List.zipWith (· - ·) a b
def add3 (a b : List Int) : List Int := List.zipWith (· + ·) a b
def neg3 (a : List Int) : List Int := a.map (fun x => -x)

/-- The vector scaled by `n / m`. -/
def scale3 (n m : Int) (a : List Int) : List Int := a.map (fun x => rdiv (x * n) m)

/-- The vector product. -/
def cross3 (a b : List Int) : List Int :=
  let x (i : Nat) : Int := a.getD i 0
  let y (i : Nat) : Int := b.getD i 0
  [x 1 * y 2 - x 2 * y 1, x 2 * y 0 - x 0 * y 2, x 0 * y 1 - x 1 * y 0]

/-- Square root, rounded down, of a number of any size. -/
def root (n : Nat) : Nat := isqrtFrom n (Nat.log2 n / 2 + 1) 0

/-- Length of a vector, rounded down. -/
def len3 (a : List Int) : Nat := root (dot3 a a).toNat

/-- One, and π/2, with binary point 62. -/
def one62 : Int := 2 ^ 62
def halfPi : Int := 7244019458077122842

/-- The direction of a vector, with binary point 62; zero for the zero vector. -/
def unit3 (a : List Int) : List Int :=
  let n := root ((dot3 a a).toNat * 2 ^ 128)
  if n = 0 then a.map (fun _ => 0) else a.map (fun x => rdiv (x * 2 ^ 126) n)

/-! ### Angles -/

/-- The tails of the series of sine and cosine: `1 - x²/(a (a+1)) (1 - …)` from `a` on. -/
def trigTail (x2 a : Int) : Nat → Int
  | 0 => one62
  | n + 1 => one62 - rdiv (x2 * trigTail x2 (a + 2) n) (one62 * a * (a + 1))

/-- An angle brought between -π and π. -/
def wrapPi (x : Int) : Int := (x + 2 * halfPi) % (4 * halfPi) - 2 * halfPi

/-- Sine and cosine of an angle. -/
def sin62 (x : Int) : Int :=
  let y := wrapPi x
  rdiv (y * trigTail (rdiv (y * y) one62) 2 18) one62
def cos62 (x : Int) : Int :=
  let y := wrapPi x
  trigTail (rdiv (y * y) one62) 1 18

/-- The greatest angle of the first quadrant, down to 2^-46 rad, whose tangent is at most `y / x`. -/
def angleFrom (y x : Int) : Nat → Int → Int
  | 0, a => a
  | k + 1, a =>
    let b := a + 2 ^ (k + 16)
    angleFrom y x k (if b ≤ halfPi ∧ x * sin62 b ≤ y * cos62 b then b else a)

/-- The angle of the vector (`x`, `y`), between -π and π. -/
def atan2 (y x : Int) : Int :=
  let up (y : Int) : Int := if 0 ≤ x then angleFrom y x 47 0 else halfPi + angleFrom (-x) y 47 0
  if 0 ≤ y then up y else -(up (-y))

/-! ### Rotations -/

def qOne : List Int := [one62, 0, 0, 0]

/-- A quaternion brought to norm 1. -/
def qNorm (q : List Int) : List Int :=
  let n := root ((dot3 q q).toNat * 2 ^ 64)
  if n = 0 then qOne else q.map (fun x => rdiv (x * 2 ^ 94) n)

/-- A quaternion with binary point 30, as records and sections hold it. -/
def qOf30 (q : List Int) : List Int := if q.length = 4 then qNorm (q.map (· * 2 ^ 32)) else qOne

def qConj (q : List Int) : List Int := q.headD 0 :: neg3 (q.drop 1)

def qMul (a b : List Int) : List Int :=
  let u := a.drop 1
  let v := b.drop 1
  let w := a.headD 0
  let z := b.headD 0
  ((w * z - dot3 u v) :: add3 (add3 (v.map (· * w)) (u.map (· * z))) (cross3 u v)).map (fun x => rdiv x one62)

/-- A vector turned by a rotation, rounded once. -/
def qRot (q v : List Int) : List Int :=
  let u := q.drop 1
  let t := cross3 u v
  let s := add3 (t.map (· * q.headD 0)) (cross3 u t)
  (v.zip s).map (fun e => rdiv (e.1 * one62 * one62 + 2 * e.2) (one62 * one62))

/-- The rotation by an angle of P64 format about the z axis. -/
def qTurn (x : Int) : List Int := [cos62 (x * 2 ^ 29), 0, 0, sin62 (x * 2 ^ 29)]

/-- The rotation as axis times angle, in 2^-32 rad, with an angle of at most π. -/
def rotVec (q : List Int) : List Int :=
  let q := if q.headD 0 < 0 then neg3 q else q
  let u := q.drop 1
  let n := len3 u
  if n = 0 then [0, 0, 0] else
    let ang := 2 * atan2 n (q.headD 0)
    u.map (fun x => rdiv (x * ang) (n * 2 ^ 30))

/-- Half the angle between two orientations, and the second one on the nearer side. -/
def slerpArc (a b : List Int) : Int × List Int :=
  let c := rdiv (dot3 a b) one62
  let b' := if c < 0 then neg3 b else b
  (atan2 (root (one62 * one62 - c * c).toNat) (absI c), b')

/-- Spherical linear interpolation at `x / len` (R79). -/
def slerp (a b : List Int) (x len : Int) : List Int :=
  let (w, b') := slerpArc a b
  let s := sin62 w
  if len ≤ 0 then b'
  else if s < 2 ^ 30 then qNorm (add3 a (scale3 x len (sub3 b' a)))
  else
    let f := sin62 (w - rdiv (w * x) len)
    let g := sin62 (rdiv (w * x) len)
    qNorm ((a.zip b').map (fun e => rdiv (e.1 * f + e.2 * g) s))

/-! ### Poses: a point and a rotation, as one list of seven numbers -/

def ptOf (p : List Int) : List Int := p.take 3
def rotOf (p : List Int) : List Int := if p.length = 7 then p.drop 3 else qOne
def poseOne : List Int := [0, 0, 0] ++ qOne

/-- A pose given in another one. -/
def poseMul (a b : List Int) : List Int := add3 (ptOf a) (qRot (rotOf a) (ptOf b)) ++ qMul (rotOf a) (rotOf b)

def poseInv (a : List Int) : List Int := neg3 (qRot (qConj (rotOf a)) (ptOf a)) ++ qConj (rotOf a)

/-- The six rows of the difference of two poses, `a` less `b`: translation in 2^-32 mm, rotation in 2^-32 rad. -/
def poseDiff (a b : List Int) : List Int := sub3 (ptOf a) (ptOf b) ++ rotVec (qMul (rotOf a) (qConj (rotOf b)))

/-! ### Kinematics -/

/-- The frames of an arm at joint positions: one behind each joint, base first. -/
def framesFrom (base : List Int) : List LinkSec → List Int → List (List Int)
  | l :: ls, x :: xs =>
    let f := poseMul base (l.off ++ qOf30 l.rot)
    let g := poseMul f (if l.prismatic then [0, 0, x] ++ qOne else [0, 0, 0] ++ qTurn x)
    g :: framesFrom g ls xs
  | _, _ => []

end Sys2Proof.Machine

namespace Sys2Proof
open Machine

/-- The frames of an arm, the tool frame last (R79, R145, R255). -/
def ArmGeom.frames (g : ArmGeom) (joints : List Int) : List (List Int) :=
  let fs := framesFrom poseOne g.links joints
  fs ++ [poseMul (fs.getLastD poseOne) (g.tool ++ qOf30 g.toolRot)]

/-- The tool's pose. -/
def ArmGeom.toolPose (g : ArmGeom) (joints : List Int) : List Int := (g.frames joints).getLastD poseOne

/-- The columns of an arm's Jacobian for a point that moves with the frame behind joint `upTo`: translation in 2^-32 mm and rotation in
2^-32 rad for each unit of a joint. -/
def ArmGeom.jacobian (g : ArmGeom) (joints pt : List Int) (upTo : Nat) : List (List Int) :=
  ((g.links.zip (g.frames joints)).zip (List.range g.links.length)).map fun e =>
    let f := e.1.2
    let z := qRot (rotOf f) [0, 0, one62]
    if upTo < e.2 then [0, 0, 0, 0, 0, 0]
    else if e.1.1.prismatic then z.map (fun x => rdiv x (2 ^ 30)) ++ [0, 0, 0]
    else (cross3 z (sub3 pt (ptOf f))).map (fun x => rdiv x one62) ++ z.map (fun x => rdiv x (2 ^ 30))

/-- The Jacobian of the tool. -/
def ArmGeom.toolJac (g : ArmGeom) (joints : List Int) : List (List Int) :=
  g.jacobian joints (ptOf (g.toolPose joints)) g.links.length

/-- The sum of columns times joint values (P64): what joint rates give. -/
def jacTimes (cols : List (List Int)) (x : List Int) : List Int :=
  (List.range 6).map (fun r => rdiv ((cols.zip x).foldl (fun (acc : Int) e => acc + e.1.getD r 0 * e.2) 0) (2 ^ 32))

/-- One step of an exact elimination: a row less its pivot row, over the pivot before. -/
def reduceRow (p : List Int) (d : Int) (r : List Int) : List Int :=
  (p.tail.zip r.tail).map (fun e => (e.2 * p.headD 0 - r.headD 0 * e.1) / d)

/-- The solution of a positive definite system, given as rows with the right-hand side last: numerators and their one denominator. -/
def solvePos : Nat → Int → List (List Int) → List Int × Int
  | 0, d, _ => ([], d)
  | _ + 1, d, [] => ([], d)
  | k + 1, d, p :: t =>
    let r := solvePos k (p.headD 0) (t.map (reduceRow p d))
    (((p.getLastD 0 * r.2 - dot3 (p.tail.take r.1.length) r.1) / p.headD 1) :: r.1, r.2)

/-- The joint increments (P64) by which a point with Jacobian columns `cols` moves by `e`, in the units of `poseDiff`: damped least squares,
where a radian counts as 1,024 mm and the damping is 1 mm (DESIGN CHOICE, log entry 188). -/
def followTwist (cols : List (List Int)) (e : List Int) : List Int :=
  let w (l : List Int) (r : Nat) : Int := l.getD r 0 * (if r < 3 then 1 else 1024)
  let row (r : Nat) : List Int :=
    (List.range 6).map (fun s => (cols.map (fun c => w c r * w c s)).sum + (if r = s then 2 ^ 64 else 0)) ++ [w e r]
  let y := solvePos 6 1 ((List.range 6).map row)
  cols.map (fun c => rdiv (((List.range 6).map (fun r => w c r * y.1.getD r 0)).sum * 2 ^ 32) y.2)

/-- The joints of an arm moved by increments. -/
def addJoints (q dq : List Int) : List Int := (List.range q.length).map (fun i => q.getD i 0 + dq.getD i 0)

/-- Steps toward the joints at which the tool stands at a pose. -/
def ArmGeom.jointsFrom (g : ArmGeom) (pose : List Int) : Nat → List Int → List Int
  | 0, q => q
  | k + 1, q =>
    let e := poseDiff pose (g.toolPose q)
    if e.all (fun x => decide (x.natAbs ≤ 256)) then q else g.jointsFrom pose k (addJoints q (followTwist (g.toolJac q) e))

/-- The joints of an arm whose tool stands at a pose, near given joints. The arm gets them as the increments of the solver cycle by cycle;
what looks ahead of these follows the same increments (DEDUCED, log entry 188). -/
def ArmGeom.jointsFor (g : ArmGeom) (near pose : List Int) : List Int := g.jointsFrom pose 16 near

/-- How far a point of the arm can lie from joint `j` where its joints reach the magnitudes `q`: the lengths of the links behind it with
the extension of those that slide, and the farthest capsule point from its frame (R146). -/
def ArmGeom.reach (g : ArmGeom) (q : List Nat) (j : Nat) : Nat :=
  let ext := (g.caps.map (fun c => max (len3 c.2.p0) (len3 c.2.p1) * 2 ^ 28)).foldl max 0
  (((g.links.zip (List.range g.links.length)).drop (j + 1)).map (fun l =>
    len3 l.1.off + (if l.1.prismatic then q.getD l.2 0 else 0))).sum + len3 g.tool + ext

/-- The greater magnitude of each joint in two positions. -/
def maxJoints (a b : List Int) : List Nat := List.zipWith (fun x y => max x.natAbs y.natAbs) a b

/-- A bound on the movement of every capsule point while the joints go from `a` to `b`, in 2^-32 mm (R146). -/
def ArmGeom.travel (g : ArmGeom) (a b : List Int) : Nat :=
  (((g.links.zip (a.zip b)).zip (List.range g.links.length)).map (fun e =>
    let dx := (e.1.2.1 - e.1.2.2).natAbs
    if e.1.1.prismatic then dx else dx * g.reach (maxJoints a b) e.2 / 2 ^ 32)).sum

/-- The capsules of an arm at joint positions, in 2^-32 mm, each with the joint that its frame lies behind. -/
def ArmGeom.capsules (g : ArmGeom) (joints : List Int) : List (Nat × Capsule) :=
  let fs := g.frames joints
  g.caps.map fun c =>
    let f := fs.getD c.1 poseOne
    let at' (p : List Int) : List Int := ptOf (poseMul f (p.map (· * 2 ^ 28)))
    (c.1, { p0 := at' c.2.p0, p1 := at' c.2.p1, r := c.2.r * 2 ^ 28 })

/-! ### Coupled blocks (R154) -/

/-- The grasp transform of member `k` of a block, in ascending arm number (R154). -/
def BlockSec.grasp (s : BlockSec) (k : Nat) : List Int :=
  let g := s.grasps.getD k []
  g.take 3 ++ qOf30 (g.drop 3)

/-- The object frame as a member's tool frame implies it (R156). -/
def BlockSec.object (s : BlockSec) (k : Nat) (tool : List Int) : List Int := poseMul tool (poseInv (s.grasp k))

end Sys2Proof

namespace Sys2Proof.Machine

/-! ### Closest points of two segments (R267, R268) -/

/-- A candidate of closest points: fractions along both segments, and the vector between them scaled by both denominators. -/
structure Closest where
  sn : Int
  sd : Int
  tn : Int
  td : Int
  w : List Int
  den : Int
  deriving DecidableEq, Repr

/-- The candidate at given fractions. -/
def closestAt (r h : Capsule) (sn sd tn td : Int) : Closest :=
  let d1 := sub3 r.p1 r.p0
  let d2 := sub3 h.p1 h.p0
  let w := (List.range 3).map (fun i =>
    (h.p0.getD i 0 - r.p0.getD i 0) * sd * td + tn * sd * d2.getD i 0 - sn * td * d1.getD i 0)
  ⟨sn, sd, tn, td, w, sd * td⟩

/-- A fraction clamped to 0 to 1; a zero denominator gives 0. -/
def clampFrac (n d : Int) : Int × Int := if d ≤ 0 then (0, 1) else if n < 0 then (0, 1) else if d < n then (1, 1) else (n, d)

/-- The candidates of which one gives the least distance: both segments free, and each end point against the other segment. -/
def candidates (r h : Capsule) : List Closest :=
  let d1 := sub3 r.p1 r.p0
  let d2 := sub3 h.p1 h.p0
  let o := sub3 r.p0 h.p0
  let a := dot3 d1 d1
  let e := dot3 d2 d2
  let b := dot3 d1 d2
  let c := dot3 d1 o
  let f := dot3 d2 o
  let den := a * e - b * b
  let sn := b * f - c * e
  let tn := a * f - b * c
  let free := if 0 < den && 0 ≤ sn && sn ≤ den && 0 ≤ tn && tn ≤ den then [closestAt r h sn den tn den] else []
  let edge (sn sd : Int) (q : Int × Int) : Closest := closestAt r h sn sd q.1 q.2
  let edgeT (tn td : Int) (q : Int × Int) : Closest := closestAt r h q.1 q.2 tn td
  free ++ [edge 0 1 (clampFrac f e), edge 1 1 (clampFrac (b + f) e), edgeT 0 1 (clampFrac (-c) a),
    edgeT 1 1 (clampFrac (b - c) a)]

/-- Square of the distance of a candidate against another, by cross-multiplication. -/
def Closest.lt (x y : Closest) : Bool := decide (dot3 x.w x.w * (y.den * y.den) < dot3 y.w y.w * (x.den * x.den))
def Closest.same (x y : Closest) : Bool := !x.lt y && !y.lt x

/-- A candidate of least distance. -/
def closest (r h : Capsule) : Closest :=
  let cs := candidates r h
  cs.foldl (fun w y => if y.lt w then y else w) (cs.headD ⟨0, 1, 0, 1, [], 1⟩)

/-- Distance of the segments of a candidate, rounded down. -/
def Closest.dist (x : Closest) : Nat := root ((dot3 x.w x.w).toNat / (x.den * x.den).toNat)

/-- Distance between two capsules, rounded down; not above 0 where they intersect. -/
def capGap (r h : Capsule) : Int := (closest r h).dist - r.r - h.r

/-! ### A capsule and a box (R144, R145) -/

/-- How far a coordinate, with binary point 40 more, lies outside an interval. -/
def outside (x lo hi : Int) : Int := if x < lo * 2 ^ 40 then x - lo * 2 ^ 40 else if hi * 2 ^ 40 < x then x - hi * 2 ^ 40 else 0

/-- The vector from a box to the point at `n / 2^40` of a capsule's segment, with binary point 40 more. -/
def boxVec (lo hi : List Int) (c : Capsule) (n : Int) : List Int :=
  (List.range 3).map (fun i =>
    outside (c.p0.getD i 0 * 2 ^ 40 + n * (c.p1.getD i 0 - c.p0.getD i 0)) (lo.getD i 0) (hi.getD i 0))

/-- The point of the segment up to which its distance from a box falls: the square of that distance is convex. -/
def boxFrom (lo hi : List Int) (c : Capsule) : Nat → Int → Int
  | 0, n => n
  | k + 1, n =>
    let m := n + 2 ^ k
    boxFrom lo hi c k (if m ≤ 2 ^ 40 ∧ dot3 (boxVec lo hi c m) (sub3 c.p1 c.p0) ≤ 0 then m else n)

/-- Distance between a capsule and a box, rounded down. -/
def boxGap (lo hi : List Int) (c : Capsule) : Int := (len3 (boxVec lo hi c (boxFrom lo hi c 41 0)) : Int) / 2 ^ 40 - c.r

/-- The capsule's distance from a zone is at most the margin (R145), in 2^-32 mm. -/
def zoneHit (z : ZoneSec) (margin : Int) (c : Capsule) : Bool :=
  let v (i n : Nat) : List Int := ((z.nums.drop i).take n).map (· * 2 ^ 28)
  decide ((if z.capsule then capGap c { p0 := v 0 3, p1 := v 3 3, r := (z.nums.getD 6 0) * 2 ^ 28 } else boxGap (v 0 3) (v 3 3) c) ≤ margin)

end Sys2Proof.Machine
end

