-- ==== Sys2Proof/Machine/Curves.lean ====
section
/-! DEFINITION. The curves of path segments and of the blends between them (03_paths_profiles.md R79, R83, R84), and the samples of a
segment's zone set (05_cooperation.md R146). -/

namespace Sys2Proof.Machine

/-! ### Quintics -/

/-- A quintic in s from 0 to 1 by position, first and second derivative at both ends. -/
structure Quintic where
  p0 : List Int
  v0 : List Int
  a0 : List Int
  a1 : List Int
  v1 : List Int
  p1 : List Int

/-- The weights of the six end values in the `k`-th derivative at s = `x / m`, times `2 m^(5-k)`. -/
def quinticWeights (k : Nat) (x m : Int) : List Int :=
  match k with
  | 0 => [2 * m ^ 5 - 20 * x ^ 3 * m ^ 2 + 30 * x ^ 4 * m - 12 * x ^ 5,
      2 * x * m ^ 4 - 12 * x ^ 3 * m ^ 2 + 16 * x ^ 4 * m - 6 * x ^ 5,
      x ^ 2 * m ^ 3 - 3 * x ^ 3 * m ^ 2 + 3 * x ^ 4 * m - x ^ 5, x ^ 3 * m ^ 2 - 2 * x ^ 4 * m + x ^ 5,
      -8 * x ^ 3 * m ^ 2 + 14 * x ^ 4 * m - 6 * x ^ 5, 20 * x ^ 3 * m ^ 2 - 30 * x ^ 4 * m + 12 * x ^ 5]
  | 1 => [-60 * x ^ 2 * m ^ 2 + 120 * x ^ 3 * m - 60 * x ^ 4,
      2 * m ^ 4 - 36 * x ^ 2 * m ^ 2 + 64 * x ^ 3 * m - 30 * x ^ 4,
      2 * x * m ^ 3 - 9 * x ^ 2 * m ^ 2 + 12 * x ^ 3 * m - 5 * x ^ 4, 3 * x ^ 2 * m ^ 2 - 8 * x ^ 3 * m + 5 * x ^ 4,
      -24 * x ^ 2 * m ^ 2 + 56 * x ^ 3 * m - 30 * x ^ 4, 60 * x ^ 2 * m ^ 2 - 120 * x ^ 3 * m + 60 * x ^ 4]
  | _ => [-120 * x * m ^ 2 + 360 * x ^ 2 * m - 240 * x ^ 3, -72 * x * m ^ 2 + 192 * x ^ 2 * m - 120 * x ^ 3,
      2 * m ^ 3 - 18 * x * m ^ 2 + 36 * x ^ 2 * m - 20 * x ^ 3, 6 * x * m ^ 2 - 24 * x ^ 2 * m + 20 * x ^ 3,
      -48 * x * m ^ 2 + 168 * x ^ 2 * m - 120 * x ^ 3, 120 * x * m ^ 2 - 360 * x ^ 2 * m + 240 * x ^ 3]

/-- The `k`-th derivative of a quintic at s = `x / m`. -/
def Quintic.der (c : Quintic) (k : Nat) (x m : Int) : List Int :=
  let w := quinticWeights k x m
  (List.range c.p0.length).map (fun i =>
    rdiv ((w.zip [c.p0, c.v0, c.a0, c.a1, c.v1, c.p1]).foldl (fun (acc : Int) e => acc + e.1 * e.2.getD i 0) 0) (2 * m ^ (5 - k)))

/-- The radius of curvature of a quintic at s = `x / m`; none where it runs straight. -/
def Quintic.radius (c : Quintic) (x m : Int) : Option Nat :=
  let v := c.der 1 x m
  let a := c.der 2 x m
  let vv := dot3 v v
  let cr := root (vv * dot3 a a - dot3 v a * dot3 v a).toNat
  if cr = 0 then none else some (vv.toNat * root vv.toNat / cr)

/-- The smallest radius of curvature of a quintic (R84), over 65 points evenly spaced in s (log entry 153). -/
def Quintic.minRadius (c : Quintic) : Option Nat :=
  ((List.range 65).filterMap (fun (i : Nat) => c.radius (i : Int) 64)).foldl (fun acc r => some (acc.elim r (min r))) none

/-! ### Arcs (R79) -/

/-- A circle arc: its centre, two perpendicular radii of which the first leads to the start, the radius and the angle to the end. -/
structure Arc where
  c : List Int
  e1 : List Int
  e2 : List Int
  r : Nat
  ang : Int

/-- The circle through three points. -/
def arcBase (a b z : List Int) : Arc :=
  let u := sub3 b a
  let v := sub3 z a
  let n := cross3 u v
  let num := add3 ((cross3 n u).map (· * dot3 v v)) ((cross3 v n).map (· * dot3 u u))
  let c := add3 a (num.map (fun x => rdiv x (2 * dot3 n n)))
  let e1 := sub3 a c
  { c := c, e1 := e1, e2 := (cross3 (unit3 n) e1).map (fun x => rdiv x one62), r := len3 e1, ang := 0 }

/-- The angle of a point on the circle from the start, above 0 and at most 2π. -/
def Arc.angleOf (k : Arc) (p : List Int) : Int :=
  let w := sub3 p k.c
  let t := atan2 (dot3 w k.e2) (dot3 w k.e1)
  if t ≤ 0 then t + 4 * halfPi else t

/-- The arc from `a` over `b` to `z`. -/
def arcOf (a b z : List Int) : Arc :=
  let k := arcBase a b z
  { k with ang := k.angleOf z }

/-- Own length of the arc up to an angle. -/
def Arc.len (k : Arc) (ang : Int) : Nat := ((k.r : Int) * ang / one62).toNat

/-! ### Splines (R79) -/

/-- The quintic of a SPLINE: the start derivatives are those at the end of a SPLINE before it, else the end tangent of the segment before
it, scaled to the chord, and zero. Where there is no segment before it the rule gives no tangent, and it is a free value. -/
def splineOf (g : Seg) (f : SegStart) : Quintic :=
  let a := ptOf f.p
  let chord := sub3 g.endP a
  let t := if f.tan = [] then unit3 (Config.splineStart a g.endP) else f.tan
  { p0 := a, v0 := f.der.headD (scale3 (len3 chord) one62 t), a0 := (f.der.drop 1).headD [0, 0, 0]
    a1 := g.d2.map (· * 2 ^ 28), v1 := g.d1.map (· * 2 ^ 28), p1 := g.endP }

/-- The chords over 256 equal steps of the parameter. -/
def Quintic.chords (c : Quintic) : List Nat :=
  (List.range 256).map (fun (i : Nat) => len3 (sub3 (c.der 0 ((i : Int) + 1) 256) (c.der 0 (i : Int) 256)))

/-- The parameter, in 2^-28, at own length `x` along a list of chords: the reparameterisation by arc length. -/
def paramAt : List Nat → Nat → Nat → Int
  | [], i, _ => i * 2 ^ 20
  | k :: t, i, x => if x < k then i * 2 ^ 20 + (x * 2 ^ 20 / k : Nat) else paramAt t (i + 1) (x - k)

/-! ### Segments as curves -/

/-- Straight distance between two points in the units of their coordinates. -/
def distance (a b : List Int) : Nat :=
  root ((a.zip b).foldl (fun (acc : Int) e => acc + (e.1 - e.2) * (e.1 - e.2)) 0).toNat

/-- The angle by which a Cartesian segment turns the tool, in 2^-62 rad (R79). -/
def Seg.turn (g : Seg) (f : SegStart) : Nat := (2 * (slerpArc (rotOf f.p) (qOf30 g.quat)).1).toNat

/-- Length of the geometry of a segment in its own space (R79, R83): 2^-32 mm, or 2^-32 of the joint unit for a JOINT segment. -/
def pathLen (g : Seg) (f : SegStart) : Nat :=
  match g.typ with
  | 1 => distance f.q g.joints
  | 2 => distance (ptOf f.p) g.endP
  | 3 => let k := arcOf (ptOf f.p) g.via g.endP; k.len k.ang
  | 4 => (splineOf g f).chords.sum
  | _ => 0

/-- Length of a segment that its path position runs over. A Cartesian segment that only turns the tool runs over its angle, a radian
counting as 1 mm (DESIGN CHOICE, log entry 182). -/
def ownLen (g : Seg) (f : SegStart) : Nat :=
  let len := pathLen g f
  if len = 0 && 2 ≤ g.typ && g.typ ≤ 4 then g.turn f / 2 ^ 30 else len

/-- The point at own length `x` from the start: joints of a JOINT segment, tool point of a Cartesian one. -/
def Seg.pointAt (g : Seg) (f : SegStart) (x : Nat) : List Int :=
  match g.typ with
  | 1 => (f.q.zip g.joints).map (fun e => e.1 + rdiv ((e.2 - e.1) * x) (ownLen g f))
  | 2 => ((ptOf f.p).zip g.endP).map (fun e => e.1 + rdiv ((e.2 - e.1) * x) (ownLen g f))
  | 3 =>
    let k := arcOf (ptOf f.p) g.via g.endP
    let t := rdiv (x * one62) k.r
    add3 k.c ((add3 (k.e1.map (· * cos62 t)) (k.e2.map (· * sin62 t))).map (fun y => rdiv y one62))
  | 4 => let c := splineOf g f; c.der 0 (paramAt c.chords 0 x) (2 ^ 28)
  | _ => ptOf f.p

/-- The direction of the path at own length `x`, with binary point 62. -/
def Seg.tanAt (g : Seg) (f : SegStart) (x : Nat) : List Int :=
  match g.typ with
  | 1 => unit3 (List.zipWith (· - ·) g.joints f.q)
  | 2 => unit3 (sub3 g.endP (ptOf f.p))
  | 3 =>
    let k := arcOf (ptOf f.p) g.via g.endP
    let t := rdiv (x * one62) k.r
    unit3 (sub3 (k.e2.map (· * cos62 t)) (k.e1.map (· * sin62 t)))
  | 4 => let c := splineOf g f; unit3 (c.der 1 (paramAt c.chords 0 x) (2 ^ 28))
  | _ => f.tan

/-- The second derivative of the path by a parameter that runs by 1 over the length `k`, at own length `x`: curvature times `k²`. -/
def Seg.bendAt (g : Seg) (f : SegStart) (x k : Nat) : List Int :=
  match g.typ with
  | 3 =>
    let c := arcOf (ptOf f.p) g.via g.endP
    (sub3 c.c (g.pointAt f x)).map (fun y => rdiv (y * k * k) (c.r * c.r))
  | 4 =>
    let c := splineOf g f
    let u := paramAt c.chords 0 x
    let v := c.der 1 u (2 ^ 28)
    let a := c.der 2 u (2 ^ 28)
    let vv := dot3 v v
    (v.zip a).map (fun e => rdiv ((e.2 * vv - e.1 * dot3 v a) * k * k) (vv * vv))
  | 1 => f.q.map (fun _ => 0)
  | _ => [0, 0, 0]

/-- Orientation at own length `x` (R79): spherical interpolation on the path parameter. -/
def Seg.rotAt (g : Seg) (f : SegStart) (x len : Nat) : List Int :=
  if 2 ≤ g.typ && g.typ ≤ 4 then slerp (rotOf f.p) (qOf30 g.quat) x len else rotOf f.p

/-- The pose at the end of a segment: a JOINT segment gives it by forward kinematics. -/
def Seg.endPose (g : Seg) (geo : ArmGeom) (f : SegStart) : List Int :=
  if g.typ = 1 then geo.toolPose g.joints else if g.typ = 5 then f.p else g.endP ++ qOf30 g.quat

/-- What the next segment starts from: joints, pose, the end tangent and, behind a SPLINE, its end derivatives (R79). The joints of a
Cartesian end are those that the arm has at its pose. -/
def Seg.next (g : Seg) (geo : ArmGeom) (f : SegStart) : SegStart :=
  let e := g.endPose geo f
  let keep (t : List Int) : List Int := if t.all (· == 0) then f.tan else t
  match g.typ with
  | 1 => { q := g.joints, p := e
           tan := keep (unit3 ((jacTimes (geo.toolJac g.joints) (List.zipWith (· - ·) g.joints f.q)).take 3)) }
  | 5 => f
  | _ => { q := geo.jointsFor f.q e, p := e, tan := keep (g.tanAt f (ownLen g f))
           der := if g.typ = 4 then [g.d1.map (· * 2 ^ 28), g.d2.map (· * 2 ^ 28)] else [] }

/-! ### Blends (R83, R84) -/

/-- The first half's data of a blend of radius `r` at the end of a segment of own length `len`. -/
def blendFrom (g : Seg) (f : SegStart) (len r : Nat) : BlendIn :=
  { r := r, p0 := g.pointAt f (len - r), v0 := scale3 (2 * r) one62 (g.tanAt f (len - r)), a0 := g.bendAt f (len - r) (2 * r) }

/-- The quintic of a blend into the segment `g`, which meets position, first and second derivative at both ends. -/
def BlendIn.quintic (b : BlendIn) (g : Seg) (f : SegStart) : Quintic :=
  { p0 := b.p0, v0 := b.v0, a0 := b.a0, p1 := g.pointAt f b.r, v1 := scale3 (2 * b.r) one62 (g.tanAt f b.r)
    a1 := g.bendAt f b.r (2 * b.r) }

/-! ### The zone set of a segment (R146) -/

/-- The joints at the samples of `m` even intervals: those of a JOINT segment, and those of a Cartesian one at its poses, where `grasp`
leads from the frame of the path to the tool. -/
def Seg.sampleQ (g : Seg) (geo : ArmGeom) (grasp : List Int) (f : SegStart) (len m : Nat) : List (List Int) :=
  let at' := List.range (m + 1)
  if g.typ = 1 then at'.map (fun i : Nat => (f.q.zip g.joints).map (fun e => e.1 + rdiv ((e.2 - e.1) * (i : Int)) m))
  else if g.typ = 5 then at'.map (fun _ => f.q)
  else at'.foldl (fun acc i =>
    acc ++ [geo.jointsFor (acc.getLastD f.q) (poseMul (g.pointAt f (len * i / m) ++ g.rotAt f (len * i / m) len) grasp)]) []

/-- No capsule point moves by more than the margin between two neighbours of the samples. -/
def spaced (geo : ArmGeom) (margin : Nat) : List (List Int) → Bool
  | a :: b :: t => decide (geo.travel a b ≤ margin) && spaced geo margin (b :: t)
  | _ => true

/-- The samples that a segment needs: evenly spaced, both ends among them; none where 1,024 do not suffice. -/
def Seg.samples (g : Seg) (geo : ArmGeom) (grasp : List Int) (f : SegStart) (margin : Nat) : Option (List (List Int)) :=
  let len := ownLen g f
  let at' (m : Nat) : List (List Int) := g.sampleQ geo grasp f len m
  if margin = 0 then none
  else if g.typ = 1 then
    let m := max 1 ((geo.travel f.q g.joints + margin - 1) / margin)
    if m ≤ 1023 then some (at' m) else none
  else (((List.range 1023).map (· + 1)).find? (fun m => spaced geo margin (at' m))).map at'

/-- The zones that an arm's capsules intersect at some of its samples, with a margin. -/
def zonesHit (geo : ArmGeom) (zones : Sparse ZoneSec) (margin : Nat) (qs : List (List Int)) : List Nat :=
  let caps := qs.flatMap (fun q => (geo.capsules q).map (·.2))
  (zones.filter (fun z => caps.any (zoneHit z.2 margin))).map (·.1)

end Sys2Proof.Machine
end

