-- ==== Sys2Proof/Machine/Profile.lean ====
section
/-! DEFINITION. Jerk-limited profiles (03_paths_profiles.md R94, R98, R99) in exact integer arithmetic with one rounding of
each result (log entry 4), and the reset microstep table (R105). -/

namespace Sys2Proof.Machine

/-- Path state in the fine units in which a phase is exact: position in 2^-32 / (3 u³), speed in 2^-16 / u² and
acceleration in 2^-12 / u of the axis unit, where u is the number of 2^-16 ns in a second. -/
structure Fine where
  s : Int
  v : Int
  a : Int

/-- The state after `t` of a phase of constant jerk (R98). -/
def Fine.run (f : Fine) (jerk : Int) (t : Nat) : Fine :=
  { s := f.s + 3 * 65536 * f.v * t + 3 * 524288 * f.a * t * t + 8388608 * jerk * t * t * t
    v := f.v + 16 * f.a * t + 128 * jerk * t * t
    a := f.a + 16 * jerk * t }

/-- Runs phases for a time `t`; past the last phase the speed stays, without acceleration. -/
def Fine.runAll (f : Fine) (ps : List Phase) (t : Nat) : Fine :=
  match ps with
  | [] => if t = 0 then f else { s := f.s + 3 * 65536 * f.v * t, v := f.v, a := 0 }
  | p :: rest => if t ≤ p.len then f.run p.jerk t else Fine.runAll (f.run p.jerk p.len) rest (t - p.len)

/-- Total length of a list of phases. -/
def phasesLen (ps : List Phase) : Nat := ps.foldl (fun n p => n + p.len) 0

/-- Position, speed and acceleration of a profile at time `t` from its start. -/
def Profile.at (p : Profile) (t : Nat) : Int × Int × Int :=
  let u : Int := secUnit
  let f := (⟨3 * p.s0 * u * u * u, p.v0 * u * u, p.a0 * u⟩ : Fine).runAll p.phases t
  (rdiv f.s (3 * u * u * u), rdiv f.v (u * u), rdiv f.a u)

/-- As `Profile.at` for a profile that ends at rest: past its end it stands. -/
def Profile.stopAt (p : Profile) (t : Nat) : Int × Int × Int :=
  if phasesLen p.phases ≤ t then ((p.at (phasesLen p.phases)).1, 0, 0) else p.at t

/-- The profile has run out. -/
def Profile.over (p : Profile) : Bool := decide (phasesLen p.phases ≤ p.t)

/-- A/J as a time in 2^-16 ns (A32 over J32). -/
def timeAJ (a j : Nat) : Nat := if j = 0 then 0 else a * secUnit / (16 * j)

/-- V/A as a time in 2^-16 ns (V32 over A32). -/
def timeVA (v a : Nat) : Nat := if a = 0 then 0 else v * secUnit / (16 * a)

/-- sqrt(V/J) as a time in 2^-16 ns. -/
def timeSqrtVJ (v j : Nat) : Nat := if j = 0 then 0 else isqrt (v * secUnit * secUnit / (256 * j))

/-- The greatest `r` below 2^`k` with r³ at most `n`. -/
def icbrtFrom (n : Nat) : Nat → Nat → Nat
  | 0, r => r
  | k + 1, r => icbrtFrom n k (if (r + 2 ^ k) * (r + 2 ^ k) * (r + 2 ^ k) ≤ n then r + 2 ^ k else r)

/-- cbrt(Dist / (2 J)) as a time in 2^-16 ns (Dist in 2^-32). -/
def timeCbrt (dist j : Nat) : Nat :=
  if j = 0 then 0 else icbrtFrom (dist * secUnit * secUnit * secUnit / (2 * 16777216 * j)) 80 0

/-- Phases that take a state (speed `v0`, acceleration `a0`) to the speed `v1` with zero acceleration, with at most `a` in
magnitude: phases 1 to 3 of R98 from any state (R94, R97, R99). An acceleration above `a` is first brought down to it. The
lengths are computed from exact values, twice J times a speed standing beside the square of an acceleration. -/
def velPhases (v0 a0 v1 : Int) (a j : Nat) : List Phase :=
  if j = 0 || a = 0 then []
  else
    let sg : Int := if 2 * (j : Int) * v0 + a0 * absI a0 ≤ 2 * (j : Int) * v1 then 1 else -1
    let b := sg * a0
    let rise : Int := 2 * (j : Int) * (sg * (v1 - v0))
    let high := decide ((a : Int) < b)
    let used : Int := if high then b * b else 2 * a * a - b * b
    let capped := high || decide (used ≤ rise)
    -- the times that take the acceleration from 0 to the peak and to `b`
    let peakT : Int := if capped then timeAJ a j else isqrt ((rise + b * b).toNat * secUnit * secUnit / (512 * j * j))
    let bT : Int := rdiv (b * secUnit) (16 * j)
    let hold : Nat := if capped then (rise - used).toNat * secUnit / (32 * j * a) else 0
    [⟨if bT ≤ peakT then sg * j else -(sg * j), (peakT - bT).natAbs⟩, ⟨0, hold⟩, ⟨-(sg * j), peakT.toNat⟩]

/-- The ramp of a stop from a speed and an acceleration (R94): an acceleration is first brought to zero at rate J. -/
def stopRamp (s v a : Int) (dec jerk : Nat) : Profile :=
  { s0 := s, v0 := v, a0 := a, phases := velPhases v a 0 dec jerk, t := 0 }

/-- Distance covered while the speed goes from (`v`, `a`) to `target`. -/
def changeDist (v a target : Int) (dec jerk : Nat) : Int :=
  let ps := velPhases v a target dec jerk
  ((⟨0, v, a, ps, 0⟩ : Profile).at (phasesLen ps)).1

/-- The seven phases of a rest-to-rest move over `dist` (2^-32 units) with limits V, A, J (R98); `sg` is its direction. -/
def restPhases (dist v a j : Nat) (sg : Int) : List Phase :=
  let seven (tj ta tv : Nat) : List Phase :=
    [⟨sg * j, tj⟩, ⟨0, ta⟩, ⟨-(sg * j), tj⟩, ⟨0, tv⟩, ⟨-(sg * j), tj⟩, ⟨0, ta⟩, ⟨sg * j, tj⟩]
  let full := decide (a * a ≤ v * j)
  let tj := if full then timeAJ a j else timeSqrtVJ v j
  let ta := if full then timeVA v a - tj else 0
  -- Dist / V: 2^-32 over 2^-16 is 2^-16 seconds
  let dv := if v = 0 then 0 else dist * secUnit / (65536 * v)
  if ta + 2 * tj ≤ dv then seven tj ta (dv - (ta + 2 * tj))
  else
    -- vp := (A / 2) * (-A / J + sqrt(A*A / (J*J) + 4 * Dist / A)), as the time vp / A in 2^-16 ns
    let t0 := timeAJ a j
    let root := isqrt (t0 * t0 + (if a = 0 then 0 else 4 * dist * secUnit * secUnit / (1048576 * a)))
    let vpA := (root - t0) / 2
    if t0 ≤ vpA then seven t0 (vpA - t0) 0 else seven (timeCbrt dist j) 0 0

/-- Distance of a move that goes through the peak speed `vp` to rest. -/
def peakDist (u b : Int) (a j vp : Nat) : Int := changeDist u b vp a j + changeDist vp 0 0 a j

/-- The greatest peak speed, below `vp` + 2^`k`, whose move fits into `room`. -/
def peakFrom (u b : Int) (a j : Nat) (room : Int) : Nat → Nat → Nat
  | 0, vp => vp
  | k + 1, vp => peakFrom u b a j room k (if peakDist u b a j (vp + 2 ^ k) ≤ room then vp + 2 ^ k else vp)

/-- The phases of a move toward a target `room` ahead from a state in motion (R99): the acceleration goes at rate J to the
value that phase 2 needs, the speed to V or to the greatest speed that fits. -/
def aheadPhases (u b : Int) (room : Int) (v a j : Nat) : List Phase :=
  let vp := if peakDist u b a j v ≤ room then v else min v (peakFrom u b a j room 31 0)
  let cruise := if vp = 0 then 0 else ((room - peakDist u b a j vp).toNat * secUnit) / (65536 * vp)
  velPhases u b vp a j ++ [⟨0, cruise⟩] ++ velPhases vp 0 0 a j

/-- Turns phases to the other direction. -/
def Phase.turn (sg : Int) (p : Phase) : Phase := { p with jerk := sg * p.jerk }

/-! ### The reset microstep table: round(65,535 × sin(i × π / 512)) (R105) -/

def sineTable0 : List Nat :=
  [0, 402, 804, 1206, 1608, 2010, 2412, 2814, 3216, 3617, 4019, 4420, 4821, 5222, 5623, 6023,
   6424, 6824, 7223, 7623, 8022, 8421, 8820, 9218, 9616, 10014, 10411, 10808, 11204, 11600, 11996, 12391]

def sineTable1 : List Nat :=
  [12785, 13179, 13573, 13966, 14359, 14751, 15142, 15533, 15924, 16313, 16703, 17091, 17479, 17866, 18253, 18639,
   19024, 19408, 19792, 20175, 20557, 20939, 21319, 21699, 22078, 22456, 22834, 23210, 23586, 23960, 24334, 24707]

def sineTable2 : List Nat :=
  [25079, 25450, 25820, 26189, 26557, 26925, 27291, 27656, 28020, 28383, 28745, 29106, 29465, 29824, 30181, 30538,
   30893, 31247, 31600, 31952, 32302, 32651, 32999, 33346, 33692, 34036, 34379, 34721, 35061, 35400, 35738, 36074]

def sineTable3 : List Nat :=
  [36409, 36743, 37075, 37406, 37736, 38064, 38390, 38715, 39039, 39361, 39682, 40001, 40319, 40635, 40950, 41263,
   41575, 41885, 42194, 42500, 42806, 43109, 43411, 43712, 44011, 44308, 44603, 44897, 45189, 45479, 45768, 46055]

def sineTable4 : List Nat :=
  [46340, 46624, 46905, 47185, 47464, 47740, 48014, 48287, 48558, 48827, 49095, 49360, 49624, 49885, 50145, 50403,
   50659, 50913, 51166, 51416, 51664, 51911, 52155, 52398, 52638, 52877, 53113, 53348, 53580, 53811, 54039, 54266]

def sineTable5 : List Nat :=
  [54490, 54713, 54933, 55151, 55367, 55582, 55794, 56003, 56211, 56417, 56620, 56822, 57021, 57218, 57413, 57606,
   57797, 57985, 58171, 58356, 58537, 58717, 58895, 59070, 59243, 59414, 59582, 59749, 59913, 60075, 60234, 60391]

def sineTable6 : List Nat :=
  [60546, 60699, 60850, 60998, 61144, 61287, 61429, 61567, 61704, 61838, 61970, 62100, 62227, 62352, 62475, 62595,
   62713, 62829, 62942, 63053, 63161, 63267, 63371, 63472, 63571, 63668, 63762, 63853, 63943, 64030, 64114, 64196]

def sineTable7 : List Nat :=
  [64276, 64353, 64428, 64500, 64570, 64638, 64703, 64765, 64826, 64883, 64939, 64992, 65042, 65090, 65136, 65179,
   65219, 65258, 65293, 65327, 65357, 65386, 65412, 65435, 65456, 65475, 65491, 65504, 65515, 65524, 65530, 65534]

/-- The microstep table that every table holds at reset. -/
def sineTable : List Nat :=
  sineTable0 ++ sineTable1 ++ sineTable2 ++ sineTable3 ++ sineTable4 ++ sineTable5 ++ sineTable6 ++ sineTable7

end Sys2Proof.Machine
end

