-- ==== Sys2Proof/Machine/Paths.lean ====
section
/-! DEFINITION. Paths, profiles and microsteps (03_paths_profiles.md): the segment queue commands, stops and their ramps,
the planning of arms and auxiliary axes in φ4, and the microstep generator of φ3. Everything here belongs to one plane. -/

namespace Sys2Proof.Machine

/-! ### Reading the parts of the path engine -/

/-- Arm states (R95). -/
def stStandby : Nat := 0
def stMoving : Nat := 1
def stStopping : Nat := 2
def stHeld : Nat := 3
def stFault : Nat := 4

/-- Arm `n` of plane `p`. -/
def Dev.arm (d : Dev) (p : Plane) (n : Nat) : ArmSt := (d.pl p).ppe.arms.get n

/-- Passes the path engine of plane `p` through `f`. -/
def Dev.updPpe (d : Dev) (p : Plane) (f : PpeSt → PpeSt) : Dev := d.updPl p (fun x => { x with ppe := f x.ppe })

/-- Passes arm `n` of plane `p` through `f`. -/
def Dev.updArm (d : Dev) (p : Plane) (n : Nat) (f : ArmSt → ArmSt) : Dev :=
  d.updPpe p (fun x => { x with arms := x.arms.upd n f })

/-- Auxiliary axis `m` (64 to 127) of plane `p`. -/
def Dev.aux (d : Dev) (p : Plane) (m : Nat) : AuxSt := (d.pl p).ppe.aux.get m

/-- Passes auxiliary axis `m` of plane `p` through `f`. -/
def Dev.updAux (d : Dev) (p : Plane) (m : Nat) (f : AuxSt → AuxSt) : Dev :=
  d.updPpe p (fun x => { x with aux := x.aux.upd m f })

/-- Set-point record of axis `a` in plane `p`. -/
def Dev.spOf (d : Dev) (p : Plane) (a : Nat) : AxSp := (d.pl p).ppe.sp.get a

/-- Replaces the set-point record of axis `a` in plane `p`. -/
def Dev.setSp (d : Dev) (p : Plane) (a : Nat) (x : AxSp) : Dev :=
  d.updPpe p (fun y => { y with sp := y.sp.set a x })

/-- What the Pattern says of an arm, an axis, an auxiliary axis and a group. -/
def Dev.armSec (d : Dev) (n : Nat) : ArmSec := (Sparse.find d.pat.arms n).getD {}
def Dev.axLim (d : Dev) (a : Nat) : AxisLim := (Sparse.find d.pat.lims a).getD {}
def Dev.auxSec (d : Dev) (m : Nat) : AuxSec := (Sparse.find d.pat.aux m).getD {}
def Dev.groupSec (d : Dev) (g : Nat) : GroupSec := (Sparse.find d.pat.groups g).getD {}

/-- The axes of an arm, base to tool (R18). -/
def Dev.armAxes (d : Dev) (n : Nat) : List Nat := (List.range (d.armSec n).joints).map (· + (d.armSec n).first)

/-- An axis is in STO in plane `p` (LPE_AXa_STAT.STO). -/
def Dev.axSto (d : Dev) (p : Plane) (a : Nat) : Bool := decide (d.rdP p .LPE_AX_STAT_STO a = 1)

/-- The planes treat an axis as in STO. In toile mode they do not: the field is held in STO by the frames, and the full Pattern runs
(R68; DEDUCED, log entry 149). -/
def Dev.axHeld (d : Dev) (p : Plane) (a : Nat) : Bool := d.axSto p a && d.rd .PAT_STATUS_TOILE != 1

/-- The planes treat some axis of the arm as in STO. -/
def Dev.armHeld (d : Dev) (p : Plane) (n : Nat) : Bool := (d.armAxes n).any (d.axHeld p)

/-- Current joint set-points of an arm. -/
def Dev.armQ (d : Dev) (p : Plane) (n : Nat) : List Int := (d.armAxes n).map (fun a => (d.spOf p a).pos)

/-- STATE of an arm. -/
def Dev.armState (d : Dev) (p : Plane) (n : Nat) : Nat := d.rdP p .PPE_ARM_STAT_STATE n

/-- The coupled block of an arm in plane `p`, if it is coupled (R155). -/
def Dev.armBlock (d : Dev) (p : Plane) (n : Nat) : Option Nat :=
  if d.rdP p .PPE_ARM_COOP_COUPLED n = 1 then some (d.rdP p .PPE_ARM_COOP_BLOCK n) else none

/-- Members of a declared block in ascending arm number (R154). -/
def Dev.members (d : Dev) (b : Nat) : List Nat :=
  (List.range 8).filter ((Sparse.find d.pat.geom.blocks b).getD {}).members.contains

/-- The arms that act as one with arm `n`: its block's members when it is coupled, else itself (R158). -/
def Dev.armGroup (d : Dev) (p : Plane) (n : Nat) : List Nat :=
  match d.armBlock p n with
  | some b => d.members b
  | none => [n]

/-- The carrier of a list of members: the lowest-numbered one (R154). -/
def carrierOf (l : List Nat) (n : Nat) : Nat := l.foldl min n

/-- The kinematics of an arm (GEOMETRY). -/
def Dev.armGeo (d : Dev) (n : Nat) : ArmGeom := (Sparse.find d.pat.geom.arms n).getD {}

/-- The tool's pose at an arm's joint set-points. -/
def Dev.toolPose (d : Dev) (p : Plane) (n : Nat) : List Int := (d.armGeo n).toolPose (d.armQ p n)

/-- The block section of a block. -/
def Dev.blockSec (d : Dev) (b : Nat) : BlockSec := (Sparse.find d.pat.geom.blocks b).getD {}

/-- The frame that an arm's Cartesian path moves, at its joint set-points: the tool, or the object of its coupled block (R79, R155). -/
def Dev.framePoint (d : Dev) (p : Plane) (n : Nat) : List Int :=
  match d.armBlock p n with
  | some b => (d.blockSec b).object 0 (d.toolPose p ((d.members b).headD n))
  | none => d.toolPose p n

/-- The arms that follow the path of arm `n`, each with the transform from the path's frame to its tool (R155). -/
def Dev.followers (d : Dev) (p : Plane) (n : Nat) : List (Nat × List Int) :=
  match d.armBlock p n with
  | some b => (d.members b).zip ((List.range (d.members b).length).map (d.blockSec b).grasp)
  | none => [(n, poseOne)]

/-! ### Segment records (R75, R78) -/

/-- Word `i` of a record. -/
def wordAt (ws : List Nat) (i : Nat) : Nat := ws.getD i 0 % 2 ^ 32

/-- A signed 32-bit field of a record. -/
def intAt (ws : List Nat) (i : Nat) : Int := signed 32 (wordAt ws i)

/-- A P64 field of a record: low word first. -/
def p64At (ws : List Nat) (i : Nat) : Int := signed 64 (wordAt ws i + 2 ^ 32 * wordAt ws (i + 1))

/-- Fields of a record from a word index on. -/
def intsAt (ws : List Nat) (i n : Nat) : List Int := (List.range n).map (fun k => intAt ws (i + k))
def p64sAt (ws : List Nat) (i n : Nat) : List Int := (List.range n).map (fun k => p64At ws (i + 2 * k))

/-- Words `i` to 31 of a record are zero. -/
def zeroFrom (ws : List Nat) (i : Nat) : Bool := (List.range (32 - i)).all (fun k => wordAt ws (i + k) == 0)

/-- Decodes a record of 32 words, lowest address first, for an arm of `nj` joints (R78). -/
def Seg.ofWords (nj : Nat) (ws : List Nat) : Seg :=
  let w0 := wordAt ws 0
  let typ := w0 % 256
  let common : Bool := w0 / 256 % 256 < 4 && w0 / 2 ^ 24 == 0 && wordAt ws 7 == 0 && (typ == 5 || wordAt ws 6 == 0)
  let seg : Seg :=
    { typ := typ, flags := w0 / 256 % 256, tbase := w0 / 65536 % 256, segId := wordAt ws 1, vmax := intAt ws 2
      amax := intAt ws 3, jmax := if typ = 1 then intAt ws 4 else (wordAt ws 4 : Int), blendR := intAt ws 5
      dwellT := wordAt ws 6 }
  match typ with
  | 1 => { seg with joints := p64sAt ws 8 nj, resOk := common && zeroFrom ws (8 + 2 * nj) }
  | 2 => { seg with endP := p64sAt ws 8 3, quat := intsAt ws 14 4, resOk := common && zeroFrom ws 18 }
  | 3 => { seg with
                    via := p64sAt ws 8 3, endP := p64sAt ws 14 3, quat := intsAt ws 20 4,
                    resOk := common && zeroFrom ws 24 }
  | 4 => { seg with
                    endP := p64sAt ws 8 3, quat := intsAt ws 14 4, d1 := intsAt ws 18 3, d2 := intsAt ws 21 3,
                    resOk := common && zeroFrom ws 24 }
  | 5 => { seg with resOk := common && zeroFrom ws 8 }
  | _ => { seg with resOk := common }

/-- BLEND and EVENT flags (R78). -/
def Seg.blend (g : Seg) : Bool := bit g.flags 0
def Seg.event (g : Seg) : Bool := bit g.flags 1

/-- A quaternion's norm differs from 1 by at most 2^-12 (R75); components have binary point 30. -/
def quatOk (q : List Int) : Bool :=
  let n := q.foldl (fun (a : Int) x => a + x * x) 0
  decide ((2 ^ 30 - 2 ^ 18) ^ 2 ≤ n) && decide (n ≤ (2 ^ 30 + 2 ^ 18) ^ 2)

/-- The checks of R75 for arm `n`. -/
def segOk (d : Dev) (n : Nat) (g : Seg) : Bool :=
  decide (1 ≤ g.typ) && decide (g.typ ≤ 5) && decide (g.tbase ≤ 7) && decide (0 < g.vmax) && decide (0 < g.amax) &&
  decide (0 < g.jmax) && g.resOk &&
  (g.typ != 1 || ((d.armAxes n).zip g.joints).all
    (fun e => decide ((d.axLim e.1).posMin ≤ e.2) && decide (e.2 ≤ (d.axLim e.1).posMax))) &&
  (g.typ == 1 || g.typ == 5 || quatOk g.quat)

/-- The records before the first refused one, with the index of that one (R75). -/
def goodPrefix (d : Dev) (n : Nat) : List Seg → Nat → List Seg × Option Nat
  | [], _ => ([], none)
  | g :: t, i =>
    if segOk d n g then
      let r := goodPrefix d n t (i + 1)
      (g :: r.1, r.2)
    else ([], some i)

/-- Shows an arm's queue level (QLEVEL). -/
def showLevel (p : Plane) (n : Nat) (d : Dev) : Dev := d.wrP p .PPE_ARM_STAT_QLEVEL (d.arm p n).q.length n

/-- One plane's part of SEG_APPEND: the good records join the queue and the first refused one is reported (R73, R75). The fault of a
refused record does not stop the arm (DESIGN CHOICE, log entry 184). -/
def appendSegs (p : Plane) (n : Nat) (recs : List (List Nat)) (d : Dev) : Dev :=
  let r := goodPrefix d n (recs.map (Seg.ofWords (d.armSec n).joints)) 0
  let d1 := showLevel p n (d.updArm p n (fun a => { a with q := a.q ++ r.1 }))
  match r.2 with
  | some i => raiseP p .SEG_REFUSED [n, i] d1
  | none => d1

/-- A member other than the carrier of a coupled block takes no segments (R155). -/
def Dev.notCarrier (d : Dev) (p : Plane) (n : Nat) : Bool :=
  match d.armBlock p n with
  | some b => decide (carrierOf (d.members b) n ≠ n)
  | none => false

/-- The arm's queue of 256 records has room for `n` more (R74). -/
def segRoom (arm n : Nat) (d : Dev) : Bool := decide ((d.arm d.active arm).q.length + n ≤ 256)

/-- SEG_APPEND on both planes, with its reply's STATUS and INDEX (R75, R155). -/
def segAppend (n : Nat) (recs : List (List Nat)) (d : Dev) : Dev × Nat × Nat :=
  if d.notCarrier d.active n then (bothPlanes (fun p => raiseP p .COUPLE_REFUSED [n]) d, Code.COUPLE_REFUSED.num, 0)
  else
    let r := (goodPrefix d n (recs.map (Seg.ofWords (d.armSec n).joints)) 0).2
    (bothPlanes (fun p => appendSegs p n recs) d, if r.isSome then Code.SEG_REFUSED.num else 0, r.getD 0)

/-! ### The path ahead -/

/-- A segment of a path with its start and its length in its own space. -/
structure Leg where
  seg : Seg
  start : SegStart
  len : Nat

/-- Length of a segment in units of its path position: own length, or the parameter 1 of a JOINT segment (R79). -/
def segLen (g : Seg) (f : SegStart) : Nat := if g.typ = 1 then (if g.joints = f.q then 0 else 2 ^ 32) else ownLen g f

/-- A length of segment `g` of own length `len`, in units of its path position; and back. -/
def toPath (g : Seg) (len x : Nat) : Nat := if g.typ = 1 then (if len = 0 then 0 else x * 2 ^ 32 / len) else x
def toOwn (g : Seg) (len x : Nat) : Nat := if g.typ = 1 then x * len / 2 ^ 32 else x

/-- Three points lie within 1/16 mm of one line (R79): the smallest height of their triangle, twice its area over its longest side, is at
most 1/16 mm (DESIGN CHOICE, log entry 183). -/
def collinear (a b c : List Int) : Bool :=
  let u := sub3 (ptOf b) (ptOf a)
  let v := sub3 (ptOf c) (ptOf a)
  let w := sub3 (ptOf c) (ptOf b)
  let cr := cross3 u v
  decide (dot3 cr cr ≤ 2 ^ 56 * max (max (dot3 u u) (dot3 v v)) (dot3 w w))

/-- Segments i and i + 1 may blend (R85): same space, same base, no DWELL, a blend radius. -/
def canBlend (a b : Seg) : Bool :=
  a.blend && decide (a.blendR > 0) && (a.typ == 1) == (b.typ == 1) && a.tbase == b.tbase && b.typ != 5 && a.typ != 5

/-- The segments of a path with their starts and own lengths. -/
def withLens (geo : ArmGeom) : List Seg → SegStart → List Leg
  | [], _ => []
  | g :: t, f => ⟨g, f, ownLen g f⟩ :: withLens geo t (g.next geo f)

/-- A segment of zero length consumes no time and is no neighbour (R81, R85). -/
def Leg.hasLen (e : Leg) : Bool := if e.seg.typ = 5 then e.seg.dwellT != 0 else e.len != 0

/-- How many segments of the queue the path may enter: the look-ahead, a refused segment and a run without its tokens end it
(R76, R80, R149); an arm that stands in another one's zone and has come to rest waits there (R152). -/
def ArmSt.avail (a : ArmSt) : Nat :=
  if !a.violated.isEmpty && a.stop.isNone && a.v = 0 then 0 else min a.la (min (a.faultAfter.getD a.la) (a.zoneStop.getD a.la))

/-- The path ahead of an arm: the current segment and those after it that count as neighbours. -/
def ArmSt.ahead (a : ArmSt) (geo : ArmGeom) : List Leg :=
  match withLens geo (a.q.take a.avail) a.start with
  | [] => []
  | e :: t => e :: t.filter Leg.hasLen

/-- BLEND_R of a segment in own units: D32, or S3.28 for JOINT (R78). -/
def Seg.radius (g : Seg) : Nat := g.blendR.toNat * (if g.typ = 1 then 16 else 2 ^ 28)

/-- The blend radius between two neighbours in own units; 0 when no blend is performed (R83, R85). -/
def blendRad (x y : Leg) : Nat :=
  if canBlend x.seg y.seg then min x.seg.radius (min (pathLen x.seg x.start / 2) (pathLen y.seg y.start / 2)) else 0

/-- The neighbour that the current segment blends into, with the radius. -/
def ArmSt.partner (a : ArmSt) (geo : ArmGeom) : Option (Leg × Nat) :=
  match a.ahead geo with
  | x :: y :: _ => if a.skip || blendRad x y = 0 then none else some (y, blendRad x y)
  | _ => none

/-- Own length from the start of the path ahead to the point where the path must be at rest (R77, R85). -/
def restLen : List Leg → Nat
  | [] => 0
  | [x] => x.len
  | x :: y :: t => if blendRad x y = 0 then x.len else x.len + restLen (y :: t)

/-- The rest point is the end of the look-ahead behind a segment that asks for a blend (R77). -/
def dryEnd : List Leg → Bool
  | [] => false
  | [x] => x.seg.blend && decide (x.seg.blendR > 0)
  | x :: y :: t => blendRad x y != 0 && dryEnd (y :: t)

/-- The least limit on the path parameter of a JOINT segment over the joints that move (R79): `frac` of a joint's limit over its
distance. -/
def jointShare (d : Dev) (n : Nat) (g : Seg) (f : SegStart) (frac : Nat) (lim : AxisLim → Nat) : Nat :=
  (minOr 0 (((d.armAxes n).zip (f.q.zip g.joints)).filterMap (fun e =>
    let dq := (e.2.2 - e.2.1).natAbs
    if dq = 0 then none else some ((frac * lim (d.axLim e.1) * 65536 / dq : Nat) : Int)))).toNat

/-- The speed that VMAX gives a segment, in path units per second (R79): for JOINT the least, over the joints that move, of
VMAX × limit / distance. -/
def segSpeed (d : Dev) (n : Nat) (g : Seg) (f : SegStart) : Nat :=
  if g.typ = 1 then jointShare d n g f g.vmax.toNat (·.vLim) else g.vmax.toNat

/-- Deceleration and jerk limits of the programmed ramp, or of the quick-stop ramp, in a segment (R89), as A32 and J32. -/
def rampLimits (d : Dev) (n : Nat) (g : Seg) (f : SegStart) (quick : Bool) : Nat × Nat :=
  if g.typ = 1 then
    if quick then (jointShare d n g f 65536 (·.aLim), jointShare d n g f 65536 (·.jLim))
    else (jointShare d n g f g.amax.toNat (·.aLim), jointShare d n g f g.jmax.toNat (·.jLim))
  else if quick then ((d.armSec n).qsDec, (d.armSec n).qsJerk)
  else (g.amax.toNat, g.jmax.toNat)

/-- The path speed at which a movement of `dx` over a piece `len` of the path keeps a speed limit; none where nothing moves. -/
def pieceCap (lim len dx : Nat) : Option Nat := if dx = 0 then none else some (lim * len / dx)

/-- What bounds the path speed of a JOINT segment by the Pattern's own limits (R87): the joints, and speed and rotation of the tool. -/
def jointCap (d : Dev) (p : Plane) (n : Nat) (g : Seg) (f : SegStart) : List (Option Nat) :=
  let v := jacTimes ((d.armGeo n).toolJac (d.armQ p n)) (List.zipWith (· - ·) g.joints f.q)
  [some (jointShare d n g f 65536 (·.vLim)), pieceCap (d.armSec n).cartLim (2 ^ 32) (len3 (v.take 3)),
    pieceCap (d.armSec n).rotLim (2 ^ 32) (len3 (v.drop 3))]

/-- What bounds the path speed of a Cartesian segment at own length `x` (R79, R87, R158): for the arm, or every member of its block, the
speed of its tool, the rotation, and each joint, over a piece of 1 mm or what is left. -/
def frameCap (d : Dev) (p : Plane) (n : Nat) (g : Seg) (f : SegStart) (x len : Nat) : List (Option Nat) :=
  let dx := min (2 ^ 32) (len - x)
  let pose (y : Nat) : List Int := g.pointAt f y ++ g.rotAt f y len
  let turn := g.turn f
  (d.followers p n).flatMap fun m =>
    let a := poseMul (pose x) m.2
    let b := poseMul (pose (x + dx)) m.2
    let q := d.armQ p m.1
    [pieceCap (d.armSec m.1).cartLim dx (if m.2 = poseOne then dx else len3 (sub3 (ptOf b) (ptOf a))),
      if turn = 0 then none else some ((d.armSec m.1).rotLim * len * 2 ^ 30 / turn)] ++
    ((d.armAxes m.1).zip (((d.armGeo m.1).jointsFor q a).zip ((d.armGeo m.1).jointsFor q b))).map (fun e =>
      pieceCap (d.axLim e.1).vLim dx (e.2.2 - e.2.1).natAbs)

/-- The Pattern's own limit on the path speed of a segment at own length `x` (R87). -/
def speedCap (d : Dev) (p : Plane) (n : Nat) (g : Seg) (f : SegStart) (x len : Nat) : Nat :=
  ((if g.typ = 1 then jointCap d p n g f else frameCap d p n g f x len).filterMap id).foldl min (2 ^ 31 - 1)

/-! ### Stops (R89 to R94) -/

/-- The stronger of two causes: what the stop ends in (R91). -/
def causeRank : StopCause → Nat
  | .stop => 0
  | .qstop => 1
  | .ss2 => 2
  | .ss1 => 3
  | .abort => 4
  | .fault => 5
  | .starve => 6

/-- The stronger of two causes. -/
def strongest (a b : StopCause) : StopCause := if causeRank a < causeRank b then b else a

/-- A request for one of the two ramps. -/
def askStop (c : StopCause) (quick : Bool) : StopReq := { cause := c, prog := !quick, quick := quick }

/-- Merges two stop requests: the stronger cause, and the ramps that either selects, of which the one with the larger deceleration limit is
followed (R92). -/
def mergeReq (a b : Option StopReq) : Option StopReq :=
  match a, b with
  | none, x => x
  | x, none => x
  | some x, some y => some { cause := strongest x.cause y.cause, prog := x.prog || y.prog, quick := x.quick || y.quick }

/-- The ramp of a request with the larger deceleration limit (R92), from the limits of the programmed and the quick-stop ramp; and whether it
is the quick-stop ramp. -/
def StopReq.pick (r : StopReq) (prog quick : Nat × Nat) : (Nat × Nat) × Bool :=
  if r.quick && (!r.prog || decide (prog.1 ≤ quick.1)) then (quick, true) else (prog, false)

/-- Files a stop request of an arm for the next φ4 start (R90), for every member of its block (R158). -/
def requestStop (p : Plane) (n : Nat) (c : StopCause) (quick : Bool) (d : Dev) : Dev :=
  forL (d.armGroup p n) (fun m d => d.updArm p m (fun a => { a with request := mergeReq a.request (some (askStop c quick)) })) d

/-- Auxiliary axes of a group. -/
def Dev.groupAxes (d : Dev) (g : Nat) : List Nat :=
  (d.pat.aux.filter (fun e => e.2.group == g)).map (·.1)

/-- Files a stop request of an auxiliary axis (R89, R91). -/
def requestAux (p : Plane) (m : Nat) (c : StopCause) (quick : Bool) (d : Dev) : Dev :=
  d.updAux p m (fun a => { a with request := mergeReq a.request (some (askStop c quick)) })

/-- Files a stop request for a command's target: an arm, or 0x80 + group (19_host_link.md). -/
def requestTarget (p : Plane) (t : Nat) (c : StopCause) (quick : Bool) (d : Dev) : Dev :=
  if t < 0x80 then requestStop p t c quick d
  else forL (d.groupAxes (t - 0x80)) (fun m => requestAux p m c quick) d

/-- The consumer codes of matrices by arm: code 0x10 + a and 0x20 + a (R114). -/
def Dev.matsOfArm (d : Dev) (n : Nat) : List Nat :=
  (d.pat.solver.mats.filter (fun e => e.2.cons.any (fun c => c == 0x10 + n || c == 0x20 + n))).map (·.1)

/-- The first matrix of the arm that did not deliver FRESH at its latest flip (R139). -/
def Dev.staleMat (d : Dev) (p : Plane) (n : Nat) : Option Nat :=
  (d.matsOfArm n).find? (fun m => d.rdP p .SLV_MAT_STAT_SOLSTAT m != 1)

/-- The arm's fault counts as cleared (R93). -/
def Dev.faultCleared (d : Dev) (p : Plane) (n : Nat) : Bool :=
  (d.armAxes n).all (fun a => d.rdP p .LPE_AX_STAT_FAULT a == 0) &&
  (d.matsOfArm n).all (fun m => d.rdP p .SLV_MAT_STAT_STARVED m == 0)

/-- The arm stops under a fault or a safety request. -/
def ArmSt.hardStop (a : ArmSt) : Bool :=
  match a.stop with
  | some r => decide (2 ≤ causeRank r.cause) && r.cause != .abort
  | none => false

/-- Status of a RESUME for one arm: 0 when accepted, else the reply status with its INDEX (R93). The rule names no status for an arm that is
MOVING or stops under ABORT; it gets RESUME_STATE (DESIGN CHOICE, log entry 155). -/
def resumeStatus (p : Plane) (n : Nat) (d : Dev) : Nat × Nat :=
  let st := d.armState p n
  let a := d.arm p n
  if (st = stStopping && (a.hardStop || a.stop.any (fun r => r.cause == .abort))) ||
      (st = stFault && !(d.faultCleared p n)) || st = stMoving then (Code.RESUME_STATE.num, 0)
  else if d.armHeld p n then (Code.RESUME_STO.num, 0)
  else match d.staleMat p n with
    | some m => (Code.RESUME_SOLUTION.num, m)
    | none => (0, 0)

/-- A request that an accepted RESUME leaves standing: all but an earlier STOP or QSTOP (R91, R93). -/
def StopReq.stays (r : StopReq) : Bool := r.cause != .stop && r.cause != .qstop

/-- Accepts a RESUME of an arm: GO sets, the arm moves again at the next φ4 start (R93, R95). -/
def acceptResume (p : Plane) (n : Nat) (d : Dev) : Dev :=
  (d.updArm p n (fun a => { a with resume := true, request := a.request.filter StopReq.stays })).wrP p .PPE_ARM_STAT_GO 1 n

/-- Status of a RESUME for an auxiliary axis. While its index is lost every move of it is refused (R110), a kept one too, with the status
of a refused AUX_MOVE (DEDUCED, log entry 156). -/
def auxResumeStatus (p : Plane) (m : Nat) (d : Dev) : Nat :=
  let st := d.rdP p .PPE_AX_STAT_STATE (m - 64)
  if d.rdP p .PPE_AX_STAT_POS_LOST (m - 64) = 1 && (d.aux p m).move.isSome then Code.POS_LOST.num
  else if (st = stStopping && (d.aux p m).stop.any (fun r => decide (2 ≤ causeRank r.cause))) ||
      (st = stFault && d.rdP p .LPE_AX_STAT_FAULT m = 1) then Code.RESUME_STATE.num
  else if d.axHeld p m then Code.RESUME_STO.num
  else 0

/-- RESUME of a target in one plane. -/
def resumeTarget (p : Plane) (t : Nat) (d : Dev) : Dev :=
  if t < 0x80 then
    let g := d.armGroup p t
    if g.all (fun n => (resumeStatus p n d).1 == 0) then forL g (acceptResume p) d else d
  else
    let g := d.groupAxes (t - 0x80)
    if g.all (fun m => auxResumeStatus p m d == 0) then
      forL g (fun m d => d.updAux p m (fun a => { a with resume := true, request := a.request.filter StopReq.stays })) d
    else d

/-- Of two statuses with their INDEX the reason that R93 lists first; its codes rise in that order. -/
def firstReason (x y : Nat × Nat) : Nat × Nat := if x.1 = 0 || (y.1 ≠ 0 && y.1 < x.1) then y else x

/-- Reply STATUS and INDEX of a RESUME of a target. -/
def resumeReply (p : Plane) (t : Nat) (d : Dev) : Nat × Nat :=
  if t < 0x80 then
    ((d.armGroup p t).map (fun n => resumeStatus p n d)).foldl firstReason (0, 0)
  else (((d.groupAxes (t - 0x80)).map (fun m => auxResumeStatus p m d)).foldl (fun acc r => (firstReason (acc, 0) (r, 0)).1) 0, 0)

/-- ABORT is refused: the arm is in FAULT with its fault not cleared, or stops under a fault (R93). -/
def abortRefused (p : Plane) (t : Nat) (d : Dev) : Bool :=
  if t < 0x80 then
    (d.armGroup p t).any fun n =>
      (decide (d.armState p n = stFault) && !(d.faultCleared p n)) ||
      (d.arm p n).stop.any (fun r => r.cause == .fault || r.cause == .starve)
  else (d.groupAxes (t - 0x80)).any fun m =>
      (decide (d.rdP p .PPE_AX_STAT_STATE (m - 64) = stFault) && decide (d.rdP p .LPE_AX_STAT_FAULT m = 1)) ||
      (d.aux p m).stop.any (fun r => r.cause == .fault || r.cause == .starve)

/-- ABORT of a target in one plane: GO clears at once, the stop runs from the next φ4 start (R91, R93). -/
def abortTarget (p : Plane) (t : Nat) (d : Dev) : Dev :=
  if abortRefused p t d then d
  else
    let d1 := requestTarget p t .abort false d
    if t < 0x80 then forL (d1.armGroup p t) (fun n d => d.wrP p .PPE_ARM_STAT_GO 0 n) d1 else d1

/-- Reply STATUS and INDEX of an ABORT of a target (R93). -/
def abortReply (t : Nat) (d : Dev) : Nat × Nat := (if abortRefused d.active t d then Code.ABORT_FAULT.num else 0, 0)

/-- The target code of a unit: an arm, or 0x80 + an auxiliary group (19_host_link.md, command set). -/
def targetCode (u : Nat) : Nat := if u < 8 then u else 0x80 + (u - 8)

/-- A write of PPE_ARMn_CMD: ABORT before QSTOP before STOP before RESUME; a refused one has no effect (R93). -/
def armCommand (p : Plane) (n w : Nat) (d : Dev) : Dev :=
  if bit w 3 then abortTarget p n d
  else if bit w 1 then requestStop p n .qstop true d
  else if bit w 0 then requestStop p n .stop false d
  else if bit w 2 then resumeTarget p n d
  else d

/-! ### Auxiliary moves (R97 to R99) -/

/-- The position of an auxiliary axis moves no more: no profile runs. -/
def AuxSt.still (a : AuxSt) : Bool := decide (a.vel = 0) && decide (a.acc = 0) && a.prof.over

/-- A REL move that replaces a move which has not started yet counts from that one's target (R97). -/
def afterPending (old : Option Move) (mv : Move) : Move :=
  match old with
  | some o =>
    if mv.mode ≠ 1 then mv
    else if o.mode = 0 then { mv with mode := 0, target := o.target + mv.target }
    else if o.mode = 1 then { mv with target := o.target + mv.target, fromSp := o.fromSp }
    else { mv with fromSp := true }
  | none => mv

/-- AUX_MOVE in one plane: the new move waits for the planning-tick boundary; a local SD axis is no longer parked (R109). -/
def auxMovePlane (p : Plane) (m : Nat) (mv : Move) (d : Dev) : Dev :=
  let d1 := d.updAux p m (fun a => { a with newMove := some (afterPending a.newMove mv) })
  if (d.auxSec m).out then d1.wrP p .PPE_AX_STAT_PARKED 0 (m - 64) else d1

/-- V, A and J are positive, the mode is ABS, REL or VEL and the base exists (R97). -/
def moveOk (mv : Move) : Bool :=
  decide (0 < mv.v) && decide (0 < mv.a) && decide (0 < mv.j) && decide (mv.mode ≤ 2) && decide (mv.tbase ≤ 7)

/-- AUX_MOVE with its STATUS: refused with SEG_REFUSED (R97) or while the index is lost (R110). -/
def auxMove (m : Nat) (mv : Move) (d : Dev) : Dev × Nat × Nat :=
  if !moveOk mv then (bothPlanes (fun p => raiseP p .SEG_REFUSED [m, 0]) d, Code.SEG_REFUSED.num, 0)
  else if d.rdP d.active .PPE_AX_STAT_POS_LOST (m - 64) = 1 then (d, Code.POS_LOST.num, 0)
  else (bothPlanes (fun p => auxMovePlane p m mv) d, 0, 0)

/-- The speed limit of a move at factor e (R88), rounded once; no speed passes the axis' Pattern limit. -/
def Move.speedAt (mv : Move) (e vLim : Nat) : Nat := min (rdiv (mv.v * e) 0x4000).toNat vLim

/-- Plans a move from the current state (R88, R97 to R99). -/
def planMove (x : AuxSt) (mv : Move) (goal : Int) (e vLim : Nat) : Profile :=
  let v := mv.speedAt e vLim
  let a := mv.a.toNat
  let j := mv.j.toNat
  let start : Profile := { s0 := x.pos, v0 := x.vel, a0 := x.acc }
  let dist := goal - x.pos
  let sg : Int := if dist = 0 then (if 0 ≤ x.vel then 1 else -1) else if 0 < dist then 1 else -1
  let stop := velPhases x.vel x.acc 0 a j
  if mv.mode = 2 then
    { start with phases := velPhases x.vel x.acc (clampI (-(v : Int)) v mv.speed) a j }
  else if v = 0 then { start with phases := if x.vel = 0 && x.acc = 0 then [] else stop }
  else if x.vel = 0 && x.acc = 0 then { start with phases := restPhases dist.natAbs v a j sg }
  else
    let ds := changeDist x.vel x.acc 0 a j
    if sg * x.vel < 0 || (x.vel = 0 && sg * x.acc < 0) || dist.natAbs < sg * ds then
      let back := dist - ds
      { start with phases := stop ++ restPhases back.natAbs v a j (if 0 ≤ back then 1 else -1) }
    else
      { start with phases := (aheadPhases (sg * x.vel) (sg * x.acc) dist.natAbs v a j).map (Phase.turn sg) }

/-- The factor e of an auxiliary axis: min(OVR(group), SAF_SCALE(group)) (R88). -/
def Dev.auxE (d : Dev) (p : Plane) (m : Nat) : Nat :=
  let g := (d.auxSec m).group
  min ((d.pl p).ppe.ovr.get (8 + g)) ((d.pl p).ppe.scale.get (8 + g))

/-- Replans an auxiliary axis from its current state. -/
def replanAux (p : Plane) (m : Nat) (d : Dev) : Dev :=
  let x := d.aux p m
  match x.move with
  | none => d
  | some mv =>
    d.updAux p m (fun y => { y with prof := planMove x mv x.goal (d.auxE p m) (d.axLim m).vLim, eUsed := d.auxE p m })

/-! ### Set-points -/

/-- The record of an axis: the position for the boundary that opens the next cycle, the feed-forward for the one that closes it
(R32). -/
def setPoint (p : Plane) (a : Nat) (pos vel trq : Int) (d : Dev) : Dev :=
  d.setSp p a { pos := pos, vel := fitS 32 vel, trq := trq, stale := false }

/-- The rate of a path's base against TB0, in 2^-24: that of TB2 is the path's own `rate` (R101), the others are as measured over the
latest cycle. -/
def Dev.tbRate (d : Dev) (rate tb : Nat) : Nat := if tb = 0 then 2 ^ 24 else if tb = 2 then rate else d.cyc.rates.get tb

/-- Real time in the time of a path's base (R81, R100). -/
def pathTime (rate len : Nat) : Nat := rate * len / 2 ^ 24

/-- A value of a path on its base in real time, and back: its `k`-th time derivative scales with the k-th power of the rate (R100). -/
def scaleRate (rate k : Nat) (v : Int) : Int := rdiv (v * (rate : Int) ^ k) (2 ^ (24 * k))
def unscaleRate (rate k : Nat) (v : Int) : Int := if rate = 0 then v else rdiv (v * 2 ^ (24 * k)) ((rate : Int) ^ k)

/-! ### Arms in φ4 (R87 to R96) -/

/-- Puts an arm into a state at rest. -/
def restArm (p : Plane) (n st : Nat) (d : Dev) : Dev :=
  ((d.updArm p n (fun a => { a with v := 0, a := 0, stop := none, request := none, resume := false })).wrP
    p .PPE_ARM_STAT_STATE st n).wrP p .PPE_ARM_STAT_QS_ACT 0 n

/-- Flushes an arm's queue; flushed segments raise no completion (R93). -/
def flushArm (p : Plane) (n : Nat) (d : Dev) : Dev :=
  showLevel p n (d.updArm p n (fun a => { a with
    q := [], la := 0, s := 0, skip := false, blendIn := none, run := a.run.map (fun r => { r with pre := 0, len := 0 }),
    faultAfter := none, zoneStop := none, dwellLeft := 0, dry := false }))

/-- The path of an ARC has passed its via point. -/
def viaPassed (a : ArmSt) (g : Seg) : Bool :=
  let k := arcOf (ptOf a.start.p) g.via g.endP
  g.typ == 3 && decide (0 < a.s) && decide (k.len (k.angleOf g.via) ≤ a.s.toNat)

/-- The remainder of the current segment runs later from the arm's present set-points; an ARC whose via point is passed runs straight to
its end (R91). -/
def rebasePath (p : Plane) (n : Nat) (d : Dev) : Dev :=
  d.updArm p n (fun x => { x with
    start := { x.start with q := d.armQ p n, p := d.framePoint p n }, pose := d.framePoint p n
    s := 0, skip := false, blendIn := none
    q := match x.q with
      | g :: t => (if viaPassed x g then { g with typ := 2 } else g) :: t
      | [] => [] })

/-- Where a stop ends (R91). A joint stop leaves the path, and the arm's set-points are the start of what follows (R79, R138). -/
def endOfStop (p : Plane) (n : Nat) (c : StopCause) (d : Dev) : Dev :=
  match c with
  | .abort => flushArm p n (restArm p n stStandby d)
  | .starve => rebasePath p n (restArm p n stFault d)
  | .fault => restArm p n stFault d
  | _ => restArm p n stHeld d

/-- The arm reached standstill after a stop: ARM_REST (R112). -/
def armRest (p : Plane) (n : Nat) (c : StopCause) (d : Dev) : Dev :=
  raiseP p (Code.ARM_REST.shift n) [n] (endOfStop p n c d)

/-- A request that finds the arm at rest (R91): ABORT flushes the queue, a fault freezes it, a stop holds an arm in STANDBY. -/
def restRequest (p : Plane) (n : Nat) (c : StopCause) (d : Dev) : Dev :=
  let st := d.armState p n
  match c with
  | .abort => endOfStop p n c d
  | .fault | .starve => if st = stFault then d else endOfStop p n c d
  | _ => if st = stStandby then endOfStop p n c d else d

/-- The current segment ends: SEG_DONE on the crossing boundary (R82), and the next segment starts at its end state. `b` is the
blend that leads into it. -/
def finishSeg (p : Plane) (n : Nat) (b : Option BlendIn) (d : Dev) : Dev :=
  match (d.arm p n).q with
  | [] => d
  | g :: t =>
    let d1 := recordP p d.cyc.closeAt 0 Code.SEG_DONE.num 2 [n, g.segId] d
    let d2 := if g.event then icuRaise p (128 + n) d1 else d1
    let d3 := if g.typ = 1 then
        forL ((d.armAxes n).zip g.joints) (fun e d => d.setSp p e.1 { d.spOf p e.1 with pos := e.2 }) d2
      else d2
    let f := g.next (d.armGeo n) (d.arm p n).start
    let start := if g.typ = 1 then f else { f with q := d.armQ p n }
    showLevel p n (d3.updArm p n (fun a => { a with
      pose := start.p, start := start
      q := t, la := a.la - 1, s := 0, skip := false, blendIn := b
      dwellLeft := (t.head?.map (·.dwellT)).getD 0 * nsUnit
      faultAfter := a.faultAfter.map (· - 1)
      zoneStop := a.zoneStop.map (· - 1)
      run := a.run.map (fun r => if 0 < r.pre then { r with pre := r.pre - 1 } else { r with len := r.len - 1 }) }))

/-- The path is inside a blend that has begun: it has passed the point where less than the radius is left (R83, R85). The blend
that could not be formed by then is not performed. -/
def lockBlend (p : Plane) (n : Nat) (d : Dev) : Dev :=
  let a := d.arm p n
  match a.ahead (d.armGeo n) with
  | x :: _ =>
    if x.seg.blend && (a.partner (d.armGeo n)).isNone &&
        decide (x.len ≤ toOwn x.seg x.len a.s.toNat + min x.seg.radius (x.len / 2)) then
      d.updArm p n (fun y => { y with skip := true })
    else d
  | [] => d

/-- Speed and acceleration limits of a segment in own units. -/
def ownSpeed (d : Dev) (n : Nat) (x : Leg) : Nat := toOwn x.seg x.len (segSpeed d n x.seg x.start)
def ownAcc (d : Dev) (n : Nat) (x : Leg) : Nat := toOwn x.seg x.len (rampLimits d n x.seg x.start false).1

/-- The curve of a blend between two segments (R83). -/
def blendCurve (x y : Leg) (r : Nat) : Quintic := (blendFrom x.seg x.start x.len r).quintic y.seg y.start

/-- v_blend in own units (R84); a blend that runs straight has no radius of curvature. -/
def blendSpeed (d : Dev) (n : Nat) (x y : Leg) (r : Nat) : Nat :=
  let v := min (ownSpeed d n x) (ownSpeed d n y)
  match (blendCurve x y r).minRadius with
  | some rho => min v (root (min (ownAcc d n x) (ownAcc d n y) * rho / 4096))
  | none => v

/-- A segment ends without the blend that it asks for: BSKIP (R85). -/
def skipped (p : Plane) (n : Nat) (g : Seg) (d : Dev) : Dev := if g.blend then d.wrP p .PPE_ARM_STAT_BSKIP 1 n else d

/-- Passes the segments of zero length at the head of an arm's path, in no time (R81). -/
def passEmpty (p : Plane) (n : Nat) : Nat → Dev → Dev
  | 0, d => d
  | fuel + 1, d =>
    let a := d.arm p n
    match a.q with
    | [] => d
    | g :: _ =>
      if a.avail = 0 || (if g.typ = 5 then g.dwellT else ownLen g a.start) ≠ 0 then d
      else passEmpty p n fuel (finishSeg p n a.blendIn d)

/-- Moves an arm's path by a distance, through the ends of segments; `dw` is the time left in this cycle for a DWELL, `fuel`
bounds the segments of one cycle. A segment of zero length is passed in no time, with the blend that leads over it (R81, R85). -/
def walk (p : Plane) (n : Nat) : Nat → Nat → Nat → Dev → Dev
  | 0, _, _, d => d
  | fuel + 1, adv, dw, d =>
    let a := d.arm p n
    match a.q with
    | [] => d.updArm p n (fun x => { x with v := 0, a := 0 })
    | g :: _ =>
      if a.avail = 0 then d.updArm p n (fun x => { x with v := 0, a := 0 })
      else if g.typ = 5 && g.dwellT != 0 then
        if a.dwellLeft ≤ dw then walk p n fuel 0 (dw - a.dwellLeft) (finishSeg p n none (skipped p n g d))
        else d.updArm p n (fun x => { x with dwellLeft := x.dwellLeft - dw, v := 0, a := 0 })
      else
        let own := ownLen g a.start
        let len := segLen g a.start
        let rem := len - a.s.toNat
        if len = 0 then walk p n fuel adv dw (finishSeg p n a.blendIn d)
        else if adv < rem then lockBlend p n (d.updArm p n (fun x => { x with s := x.s + adv }))
        else
          match a.partner (d.armGeo n) with
          | none =>
            walk p n fuel 0 0 ((finishSeg p n none (skipped p n g d)).updArm p n (fun x => { x with v := 0, a := 0 }))
          | some (h, r) =>
            let conv (x : Int) : Int := if g.typ = 1 then rdiv (x * own) h.len else x
            let b := { blendFrom g a.start own r with vmax := blendSpeed d n ⟨g, a.start, own⟩ h r }
            walk p n fuel (conv (adv - rem : Nat)).toNat 0
              ((finishSeg p n (some b) d).updArm p n (fun x => { x with v := conv x.v, a := conv x.a }))

/-- The path is inside a blend: its curve, the own length from its start, and its radius. -/
def ArmSt.inBlend (a : ArmSt) (geo : ArmGeom) : Option (Quintic × Nat × Nat) :=
  match a.q with
  | [] => none
  | g :: _ =>
    let own := ownLen g a.start
    let x := toOwn g own a.s.toNat
    let out : Option (Quintic × Nat × Nat) := match a.partner geo with
      | some (h, r) => if own - r < x then some (blendCurve ⟨g, a.start, own⟩ h r, x - (own - r), r) else none
      | none => none
    match a.blendIn with
    | some b => if x < b.r then some (b.quintic g a.start, b.r + x, b.r) else out
    | none => out

/-- The point of the path at the arm's path position (R79, R83): joints of a JOINT segment, tool point of a Cartesian one. -/
def ArmSt.point (a : ArmSt) (geo : ArmGeom) : List Int :=
  match a.q with
  | [] => ptOf a.pose
  | g :: _ =>
    match a.inBlend geo with
    | some (c, x, r) => c.der 0 x (2 * r)
    | none =>
      if g.typ = 1 then (a.start.q.zip g.joints).map (fun e => e.1 + rdiv ((e.2 - e.1) * a.s) (2 ^ 32))
      else if g.typ = 5 then ptOf a.pose
      else g.pointAt a.start (toOwn g (ownLen g a.start) a.s.toNat)

/-- The pose of the path's frame at the arm's path position: its orientation is that of the segment on the same parameter (R79). -/
def ArmSt.framePose (a : ArmSt) (geo : ArmGeom) : List Int :=
  match a.q with
  | [] => a.pose
  | g :: _ => if g.typ = 1 || g.typ = 5 then a.pose else a.point geo ++ g.rotAt a.start a.s.toNat (ownLen g a.start)

/-- Forms the set-points of an arm from its path position (R79); `ff` is the path speed for the boundary after. Joint positions of
Cartesian motion come from the solver's flip (R128). -/
def formSetPoints (p : Plane) (n k : Nat) (ff : Int) (d : Dev) : Dev :=
  let a := d.arm p n
  let geo := d.armGeo n
  let moves := decide (a.v ≠ 0) || decide (ff ≠ 0)
  let speed (j : Nat) : Int := if moves then Config.velFf k j else 0
  let hold (d : Dev) : Dev := forL (d.armAxes n) (fun j d => setPoint p j (d.spOf p j).pos (speed j) (Config.trqFf k j) d) d
  match a.q with
  | [] => hold d
  | g :: _ =>
    let d1 := d.wrP p .PPE_ARM_SEG_ID g.segId n
    if g.typ = 1 then
      let straight := (a.inBlend geo).isNone
      forL (((d.armAxes n).zip (a.point geo)).zip (a.start.q.zip g.joints)) (fun e d =>
        setPoint p e.1.1 e.1.2 (if straight then rdiv ((e.2.2 - e.2.1) * ff) (2 ^ 64) else speed e.1.1) (Config.trqFf k e.1.1) d) d1
    else hold (d1.updArm p n (fun x => { x with pose := a.framePose geo }))

/-- The factor of R87 and R163: override, safety scale and proximity scale, least over the members of a block (R158). -/
def Dev.armE (d : Dev) (p : Plane) (n : Nat) : Nat :=
  ((d.armGroup p n).map (fun m =>
    min (min ((d.pl p).ppe.ovr.get m) ((d.pl p).ppe.scale.get m)) (d.rdP p .PPE_ARM_COOP_PROX_SCALE m))).foldl min 0x8000

/-- Speeds and accelerations of an arm's path are kept 2^32 times finer than V32 and A32, so that slow changes are not lost between
cycles; the limits of a segment are brought to that scale. -/
def fine (n : Nat) : Nat := n * 2 ^ 32

/-- One cycle of path motion: distance, speed and acceleration at its end, the speed one cycle later (fine), and whether the rest
point bounds it. -/
structure PathStep where
  adv : Nat
  v : Int
  a : Int
  ff : Int
  bound : Bool := false

/-- The step along a profile over a time, with the speed a time later. -/
def Profile.step (r : Profile) (len nxt : Nat) : PathStep :=
  let e := r.at len
  { adv := (rdiv e.1 (2 ^ 32)).toNat, v := max 0 e.2.1, a := e.2.2, ff := max 0 (r.at (len + nxt)).2.1 }

/-- A step that may reach at most speed `target` after `room` more of the path: the programmed ramp toward it once the room is just
enough (R77, R89). From rest, what is left of less than one cycle's motion is gone at once. -/
def holdRoom (v a : Int) (room : Int) (target acc jerk len nxt : Nat) (s : PathStep) : PathStep :=
  if s.v ≤ target && (target ≠ 0 || s.v = 0) then s
  else if changeDist s.v s.a target acc jerk ≤ room - fine s.adv then s
  else if v = 0 && target = 0 then { adv := room.toNat / 2 ^ 32, v := 0, a := 0, ff := 0 }
  else
    let e := (⟨0, v, a, velPhases v a target acc jerk, 0⟩ : Profile).step len nxt
    if s.v < e.v then s else { e with bound := decide (target = 0) }

/-- The blends ahead up to the rest point: where each begins, from the start of the current segment, and its speed, in own units. -/
def blendsAhead (d : Dev) (n : Nat) : List Leg → Nat → List (Nat × Nat)
  | x :: y :: t, o =>
    let r := blendRad x y
    if r = 0 then [] else (o + x.len - r, blendSpeed d n x y r) :: blendsAhead d n (y :: t) (o + x.len)
  | _, _ => []

/-- The leg in which a point of the path ahead lies, with the own length from that leg's start; `o` counts from the start of the first. -/
def legAt : List Leg → Nat → Option (Leg × Nat)
  | [], _ => none
  | x :: t, o => if o ≤ x.len then some (x, o) else legAt t (o - x.len)

/-- The Pattern's own limit on the path speed at points ahead (R87): at sixteen equal parts of the way `way` that a stop would take, from own
length `here` of the first leg; each as own length and speed in own units (DESIGN CHOICE, log entry 34). -/
def capsAhead (d : Dev) (p : Plane) (n rate : Nat) (legs : List Leg) (here way : Nat) : List (Nat × Nat) :=
  (List.range 16).filterMap fun k =>
    let o := here + way * (k + 1) / 16
    (legAt legs o).map fun e =>
      let cap := speedCap d p n e.1.seg e.1.start e.2 e.1.len
      (o, toOwn e.1.seg e.1.len (if rate = 0 then cap else cap * 2 ^ 24 / rate))

/-- Bounds a step by what lies ahead of the arm: the Pattern's limits, the blends and the rest point (R77, R84, R87); `len` and `nxt` are the
cycle and the next one in the time of the path, `rate` that of its base. -/
def boundStep (d : Dev) (p : Plane) (n rate : Nat) (a : ArmSt) (len nxt : Nat) (s : PathStep) : PathStep :=
  match a.ahead (d.armGeo n) with
  | [] => { adv := 0, v := 0, a := 0, ff := 0 }
  | x :: t =>
    let g := x.seg
    let lim := rampLimits d n g x.start false
    let here : Int := toOwn g x.len a.s.toNat
    let room (o : Int) : Int := fine (toPath g x.len (o - here).toNat)
    let legs := if a.skip then [x] else x :: t
    let way := toOwn g x.len ((changeDist s.v s.a 0 (fine lim.1) (fine lim.2)).toNat / 2 ^ 32 + s.adv)
    let s1 := (capsAhead d p n rate legs here.toNat way ++ blendsAhead d n legs 0).foldl (fun s b =>
      holdRoom a.v a.a (room b.1) (fine (toPath g x.len b.2)) (fine lim.1) (fine lim.2) len nxt s) s
    holdRoom a.v a.a (room (restLen legs)) 0 (fine lim.1) (fine lim.2) len nxt s1

/-- The step of an arm in MOVING, in the time of its path: toward the programmed speed times e inside the limits of R79, R84 and R87,
within acceleration and jerk of the segment, and bounded by what lies ahead (R77, R100). -/
def moveStep (p : Plane) (n : Nat) (d : Dev) : PathStep :=
  let a := d.arm p n
  match a.q with
  | [] => { adv := 0, v := 0, a := 0, ff := 0 }
  | g :: _ =>
    let own := ownLen g a.start
    let x := toOwn g own a.s.toNat
    let rate := d.tbRate a.rate g.tbase
    let len := pathTime rate d.cycLen
    let nxt := pathTime rate d.nextLen
    let cap := speedCap d p n g a.start x own
    let capT := if rate = 0 then cap else cap * 2 ^ 24 / rate
    let capB := match a.blendIn with
      | some b => if x < b.r then toPath g own b.vmax else capT
      | none => capT
    let top := fine (min (segSpeed d n g a.start * d.armE p n / 0x4000) (min capT capB))
    let lim := rampLimits d n g a.start false
    let r : Profile := ⟨0, a.v, a.a, velPhases a.v a.a top (fine lim.1) (fine lim.2), 0⟩
    boundStep d p n rate a len nxt (r.step len nxt)

/-- Applies a step to an arm, with its set-points; `rate` is that of the path's base. -/
def followPath (p : Plane) (n k rate : Nat) (st : PathStep) (d : Dev) : Dev :=
  let a := d.arm p n
  let dw := match a.q with
    | g :: _ => pathTime (d.tbRate a.rate g.tbase) d.cycLen
    | [] => 0
  let d1 := walk p n 80 st.adv dw (d.updArm p n (fun x => { x with v := st.v, a := st.a }))
  formSetPoints p n k (if (d1.arm p n).v = 0 then 0 else scaleRate rate 1 st.ff) d1

/-- The arm slows only because the stop at the end of the look-ahead must stay reachable, and there are segments beyond the look-ahead, or
none is left behind the current one (R77; DEDUCED, log entry 154). An arm whose blend was skipped (R85) ends at rest in any case. -/
def ArmSt.runsDry (a : ArmSt) (geo : ArmGeom) (st : PathStep) : Bool :=
  st.bound && !a.skip && decide (a.avail = a.la) && dryEnd (a.ahead geo) && (decide (a.la < a.q.length) || decide (a.q.length ≤ 1))

/-- An arm in MOVING in φ4: path advance, QUEUE_DRY once for each time it slows so, end of the queue (R76, R77, R95). -/
def moveArm (p : Plane) (n k : Nat) (d0 : Dev) : Dev :=
  let d := passEmpty p n 80 d0
  let a0 := d.arm p n
  let st := moveStep p n d
  let dry := a0.runsDry (d.armGeo n) st
  let d1 := if dry && !a0.dry then raiseP p .QUEUE_DRY [n] (d.wrP p .PPE_ARM_STAT_QDRY 1 n) else d
  let d2 := d1.updArm p n (fun x => { x with dry := dry })
  let d3 := followPath p n k (match a0.q with | g :: _ => d.tbRate a0.rate g.tbase | [] => 2 ^ 24) st d2
  let a3 := d3.arm p n
  if a3.faultAfter = some 0 && a3.v = 0 then
    restArm p n stFault (d3.updArm p n (fun x => { x with pathFault := true, faultAfter := none }))
  else if a3.q.isEmpty && a3.v = 0 then restArm p n stStandby d3
  else d3

/-- The joints that stop with an arm: those of its block's members (R158). -/
def Dev.groupJoints (d : Dev) (p : Plane) (n : Nat) : List Nat := (d.armGroup p n).flatMap d.armAxes

/-- The stop of one joint from its last set-point velocity within its own limits, with positions from 0 (R138). -/
def jointProfile (p : Plane) (j : Nat) (d : Dev) : Profile :=
  stopRamp 0 (d.spOf p j).vel 0 (d.axLim j).aLim (d.axLim j).jLim

/-- The ramp of a stop from an arm's path state (R94), in fine units. -/
def armRamp (a : ArmSt) (lim : Nat × Nat) : Profile := stopRamp (a.s * 2 ^ 32) a.v a.a (fine lim.1) (fine lim.2)

/-- An arm enters STOPPING. -/
def beginStop (p : Plane) (n : Nat) (r : StopRun) (d : Dev) : Dev :=
  ((d.updArm p n (fun x => { x with stop := some r })).wrP p .PPE_ARM_STAT_STATE stStopping n).wrP p .PPE_ARM_STAT_QS_ACT (b2n r.quick) n

/-- A joint stop: every joint has a stop of its own, and all of them take the time of the longest (R138, R159). -/
def startJointStop (p : Plane) (n : Nat) (d : Dev) : Dev :=
  let js := (d.groupJoints p n).map (fun j => (j, jointProfile p j d))
  let t := (js.map (fun e => phasesLen e.2.phases)).foldl max 0
  if t = 0 then endOfStop p n .starve d
  else beginStop p n { cause := .starve, quick := true, dec := 0, jerk := 0, ramp := { phases := [⟨0, t⟩] }, joints := js } d

/-- The limits of the two ramps where an arm is. -/
def armLimits (d : Dev) (n : Nat) (a : ArmSt) (quick : Bool) : Nat × Nat := rampLimits d n (a.q.headD {}) a.start quick

/-- Starts a stopping ramp of an arm from its current state in real time, or takes effect at once at rest (R89, R91, R94). -/
def startStop (p : Plane) (n : Nat) (r : StopReq) (d : Dev) : Dev :=
  let a := d.arm p n
  let rate := d.tbRate a.rate (a.q.headD {}).tbase
  let a1 := { a with v := scaleRate rate 1 a.v, a := scaleRate rate 2 a.a }
  if r.cause = .starve then startJointStop p n d
  else if a1.v = 0 && a1.a ≤ 0 then endOfStop p n r.cause d
  else
    let x := r.pick (armLimits d n a false) (armLimits d n a true)
    beginStop p n { cause := r.cause, quick := x.2, dec := x.1.1, jerk := x.1.2, ramp := armRamp a1 x.1 }
      (d.updArm p n (fun y => { y with v := a1.v, a := a1.a }))

/-- A request that arrives during a stop: only a steeper ramp replaces the running one; the end follows the stronger cause
(R92). -/
def steepen (p : Plane) (n : Nat) (r : StopRun) (q : StopReq) (d : Dev) : Dev :=
  let cause := strongest r.cause q.cause
  let a := d.arm p n
  let x := q.pick (armLimits d n a false) (armLimits d n a true)
  if r.cause = .starve then d
  else if q.cause = .starve then startJointStop p n d
  else if r.dec < x.1.1 then
    beginStop p n { cause := cause, quick := x.2, dec := x.1.1, jerk := x.1.2, ramp := armRamp a x.1 } d
  else d.updArm p n (fun x => { x with stop := some { r with cause := cause } })

/-- What a joint has covered, and its speed, at time `t` of a joint stop that lasts `all`: its own stop stretched in time, which keeps its
start speed and lies inside its limits (R138; DESIGN CHOICE, log entry 37). -/
def stretched (r : Profile) (all t : Nat) : Int × Int :=
  let own := phasesLen r.phases
  if own = 0 || all = 0 then (0, 0)
  else
    let x := r.stopAt (t * own / all)
    (rdiv (x.1 * all) own, x.2.1)

/-- One cycle of a joint stop, from time `t0` to `t` of it (R138). -/
def jointStop (p : Plane) (r : StopRun) (t0 t : Nat) (d : Dev) : Dev :=
  let all := phasesLen r.ramp.phases
  forL r.joints (fun e d =>
    let sp := d.spOf p e.1
    setPoint p e.1 (sp.pos + ((stretched e.2 all t).1 - (stretched e.2 all t0).1)) (stretched e.2 all (t + d.nextLen)).2 sp.trq d) d

/-- One cycle of a stopping ramp, on TB0 (R94). The ramp takes the limits of each segment as the path enters it, and never passes
the rest point ahead (R89). Standstill is seen at the φ4 start after it (R95). -/
def runStop (p : Plane) (n k : Nat) (r : StopRun) (d : Dev) : Dev :=
  let t := r.ramp.t + d.cycLen
  let next (x : Profile) (d : Dev) : Dev := d.updArm p n (fun y => { y with stop := some { r with ramp := x } })
  if r.ramp.over then formSetPoints p n k 0 (armRest p n r.cause d)
  else if r.cause = .starve then jointStop p r r.ramp.t t (next { r.ramp with t := t } d)
  else
    let a := d.arm p n
    let now := r.ramp.stopAt r.ramp.t
    let nxt := r.ramp.stopAt t
    let st := boundStep d p n (2 ^ 24) a d.cycLen d.nextLen
      { adv := (rdiv (nxt.1 - now.1) (2 ^ 32)).toNat, v := max 0 nxt.2.1, a := nxt.2.2, ff := max 0 (r.ramp.stopAt (t + d.nextLen)).2.1 }
    let d1 := followPath p n k (2 ^ 24) st (next { r.ramp with t := t } d)
    let a1 := d1.arm p n
    if st.bound || a1.q.length < a.q.length || (a1.v = 0 && nxt.2.1 ≠ 0) then
      let lim := armLimits d1 n a1 r.quick
      d1.updArm p n (fun y => { y with
        stop := some { r with dec := lim.1, jerk := lim.2, ramp := armRamp a1 lim } })
    else d1

/-- An arm with an axis in STO: it leaves MOVING and STOPPING at once, as the stop that runs or the request of this φ4 has it, GO clears,
and its set-points equal the measured positions (R91, R93, R96). The remainder of its segment later runs from there. -/
def stoArm (p : Plane) (n : Nat) (meas : Nat → Int) (d : Dev) : Dev :=
  let st := d.armState p n
  let a := d.arm p n
  let d1 := forL (d.armGroup p n) (fun m d => d.wrP p .PPE_ARM_STAT_GO 0 m) d
  let asked := (a.request.map (·.cause)).getD .stop
  let d2 :=
    if st = stMoving then endOfStop p n asked d1
    else if st = stStopping then endOfStop p n (strongest ((a.stop.map (·.cause)).getD .stop) asked) d1
    else match a.request with
      | some r => restRequest p n r.cause d1
      | none => d1
  let d3 := forL (d2.groupJoints p n) (fun j d => d.setSp p j { pos := meas j, vel := 0, trq := 0, stale := false }) d2
  rebasePath p n (d3.updArm p n (fun x => { x with request := none, resume := false }))

/-- Where the path of an arm starts: the first segment after standstill at the arm's current set-point (R79). -/
def Dev.pathStart (d : Dev) (p : Plane) (n : Nat) : SegStart :=
  let a := d.arm p n
  if a.s = 0 && a.v = 0 && a.blendIn.isNone then { a.start with q := d.armQ p n, p := a.pose } else a.start

/-- An arm starts or resumes: its segment runs on, from its current state in the time of its path (R79, R93). -/
def startArm (p : Plane) (n : Nat) (d : Dev) : Dev :=
  (d.updArm p n (fun x =>
    let rate := d.tbRate x.rate (x.q.headD {}).tbase
    { x with
      stop := none, pathFault := false, start := d.pathStart p n
      v := if x.stop.isSome then unscaleRate rate 1 x.v else x.v
      a := if x.stop.isSome then unscaleRate rate 2 x.a else x.a
      dwellLeft := if x.dwellLeft = 0 then (x.q.head?.map (·.dwellT)).getD 0 * nsUnit else x.dwellLeft })).wrP
    p .PPE_ARM_STAT_STATE stMoving n

/-- The φ4 of an arm (R90, R95): latched stop requests first, then RESUME and start, then the advance of the path. An arm in STANDBY whose
first segment was refused, or whose first run cannot be formed, enters FAULT (R80, R148). -/
def planArm (p : Plane) (n : Nat) (saf : Option StopReq) (meas : Nat → Int) (d : Dev) : Dev :=
  let k := d.cycNo
  let a := d.arm p n
  let req := mergeReq a.request saf
  if (d.armGroup p n).any (d.armHeld p) then stoArm p n meas (d.updArm p n (fun x => { x with request := req }))
  else
    let st := d.armState p n
    let d1 := d.updArm p n (fun x => { x with request := none, resume := false })
    let run (d : Dev) : Dev := match (d.arm p n).stop with
      | some r => runStop p n k r d
      | none => formSetPoints p n k 0 d
    match req with
    | some r =>
      if st = stMoving then run (startStop p n r d1)
      else if st = stStopping then
        match a.stop with
        | some s => run (steepen p n s r d1)
        | none => formSetPoints p n k 0 (endOfStop p n r.cause d1)
      else formSetPoints p n k 0 (restRequest p n r.cause d1)
    | none =>
      let go := decide (d.rdP p .PPE_ARM_STAT_GO n = 1)
      let fresh := (d.armGroup p n).all (fun m => (d.staleMat p m).isNone)
      if st = stStopping then
        if a.resume && !a.hardStop then
          moveArm p n k ((startArm p n d1).wrP p .PPE_ARM_STAT_QS_ACT 0 n)
        else run d1
      else if st = stMoving then moveArm p n k d1
      else if st = stStandby && a.faultAfter = some 0 then
        formSetPoints p n k 0 (restArm p n stFault (d1.updArm p n (fun x => { x with pathFault := true, faultAfter := none })))
      else if go && fresh && ((a.resume && st ≠ stStandby) || (st = stStandby && decide (0 < a.la))) then
        moveArm p n k (startArm p n d1)
      else formSetPoints p n k 0 d1

/-- A set-point lies outside the Pattern limits of its joint. -/
def AxisLim.out (l : AxisLim) (x : AxSp) : Bool := decide (x.pos < l.posMin) || decide (l.posMax < x.pos)

/-- A planned joint set-point passes a Pattern limit: SEG_JOINT_LIMIT, and the arm stops on the programmed ramp (R112). An arm that stops
already is reported when it passes the limit. -/
def jointLimitCheck (p : Plane) (n : Nat) (d : Dev) : Dev :=
  let st := d.armState p n
  let passes (j : Nat) : Bool := AxisLim.out (d.axLim j) (d.spOf p j) &&
    (st == stMoving || (st == stStopping && !(AxisLim.out (d.axLim j) ((d.pl p).ppe.spPrev.get j))))
  if (d.armAxes n).any passes then requestStop p n .fault false (raiseP p .SEG_JOINT_LIMIT [n] d) else d

/-! ### Look-ahead (R76, R79, R80, R146) -/

/-- The start of segment `i` of a queue. -/
def startAt (geo : ArmGeom) (q : List Seg) (f : SegStart) (i : Nat) : SegStart :=
  (q.take i).foldl (fun f g => g.next geo f) f

/-- The radius of the blends that touch segment `i` of a queue (R83, R146), in 2^-32 mm: at its start and at its end. A blend into a
segment that is not yet there has the radius that its first segment allows, and the radius of a joint blend stands for what the arm's
reach makes of it (DEDUCED, log entry 157). -/
def touching (geo : ArmGeom) (q : List Seg) (f : SegStart) (i : Nat) : Nat :=
  let leg (j : Nat) : Option Leg := q[j]?.map (fun g => let s := startAt geo q f j; ⟨g, s, ownLen g s⟩)
  let pair (x y : Option Leg) : Nat := match x, y with
    | some a, some b => blendRad a b
    | some a, none => if a.seg.blend then min a.seg.radius (a.len / 2) else 0
    | none, _ => 0
  let r := max (if i = 0 then 0 else pair (leg (i - 1)) (leg i)) (pair (leg i) (leg (i + 1)))
  if (q.getD i {}).typ = 1 then r * geo.reach (maxJoints ((leg i).elim [] (·.start.q)) (q.getD i {}).joints) 0 / 2 ^ 32 else r

/-- The zone set of a segment: of the arm, or of every member of its block (R146, R158); none where some of them needs too many
samples. -/
def Dev.zoneSet (d : Dev) (p : Plane) (n : Nat) (g : Seg) (f : SegStart) (r : Nat) : Option (List Nat) :=
  let margin := d.pat.geom.margin * 2 ^ 28
  (d.followers p n).foldl (fun acc m =>
    let geo := d.armGeo m.1
    let s := g.samples geo m.2 (if m.1 = n then f else { f with q := d.armQ p m.1 }) margin
    match acc, s with
    | some l, some qs => some (l ++ (zonesHit geo d.pat.geom.zones (margin + r : Nat) qs).filter (fun z => !l.contains z))
    | _, _ => none) (some [])

/-- Segments enter the look-ahead at a planning-tick boundary, up to 64, each with its zone set; one that fails a geometric check is
refused and the arm will stop before it (R76, R79, R80, R146). -/
def enterLookAhead (p : Plane) (n : Nat) : Nat → Dev → Dev
  | 0, d => d
  | fuel + 1, d =>
    let a := d.arm p n
    if 64 ≤ a.la || a.faultAfter.isSome then d
    else
      match a.q.drop a.la with
      | [] => d
      | g :: _ =>
        let geo := d.armGeo n
        let first := d.pathStart p n
        let f := startAt geo a.q first a.la
        let zones := if g.typ = 3 && collinear f.p g.via g.endP then none
          else d.zoneSet p n g f (touching geo a.q first a.la)
        match zones with
        | some zs =>
          enterLookAhead p n fuel (d.updArm p n (fun x => { x with q := x.q.set a.la { g with zones := zs }, la := x.la + 1 }))
        | none =>
          raiseP p .SEG_REFUSED [n, a.la] (showLevel p n (d.updArm p n (fun x => { x with
            q := x.q.eraseIdx a.la, faultAfter := some a.la })))

/-! ### Shaft time (R100 to R103) -/

/-- The path time per real time (2^-24) at which a derivative stays inside its limit: speed, acceleration or jerk of the path in
shaft time against a limit in real time (R100, R101). -/
def rateCap (k : Nat) (x lim : Nat) : Option Nat :=
  if x = 0 then none
  else if k = 1 then some (lim * 2 ^ 24 / x)
  else if k = 2 then some (root (lim * 2 ^ 48 / x))
  else some (icbrtFrom (lim * 2 ^ 72 / x) 60 0)

/-- What one coordinate of a TB2 path asks for in shaft time, against its limits in real time (R101): speed, acceleration and jerk as V32,
A32 and J32. -/
structure Demand where
  v : Nat
  a : Nat
  j : Nat
  vLim : Nat
  aLim : Nat
  jLim : Nat

/-- The rates at which the coordinate keeps its limits while the rate stays. -/
def Demand.caps (x : Demand) : List (Option Nat) := [rateCap 1 x.v x.vLim, rateCap 2 x.a x.aLim, rateCap 3 x.j x.jLim]

/-- The rate up to which the coordinate keeps its limits while the rate rises from `old` within a tick of `tick` ns, after a change by
`step` in the tick before: the change adds its share to acceleration and jerk (R101, R102). -/
def Demand.riseCap (x : Demand) (old : Nat) (step : Int) (tick rate : Nat) : Option Nat :=
  if x.v = 0 then none
  else
    let acc : Int := ((x.aLim - x.a * rate ^ 2 / 2 ^ 48) * tick * 2 ^ 28 / (x.v * 10 ^ 9) : Nat)
    let used := x.j * rate ^ 3 / 2 ^ 72 + 3 * x.a * rate * step.natAbs * 10 ^ 9 / (tick * 2 ^ 52)
    let jerk : Int := step + ((x.jLim - used) * 2 ^ 32 * tick ^ 2 / (x.v * 10 ^ 18) : Nat)
    some ((old : Int) + min acc jerk).toNat

/-- Rate and lag of a TB2 path from one tick: it follows ρ, or CATCHUP times ρ while it lags and no further than the lag, inside its
limits (R101, R102). -/
def shaftRate (rho lag catchup tick old : Nat) (step : Int) (l : List Demand) : Nat × Nat :=
  let want := if lag = 0 || tick = 0 then rho else max rho (min (rho * catchup / 100) (rho + lag * 2 ^ 24 / tick))
  let flat := (l.flatMap (fun x => x.caps.filterMap id)).foldl min want
  let rate := if flat ≤ old then flat else (l.filterMap (fun x => x.riseCap old step tick flat)).foldl min flat
  (rate, ((lag : Int) + ((rho : Int) - rate) * tick / 2 ^ 24).toNat)

/-- The measured ρ, with a negative one taken as zero (R103). -/
def Dev.rho (d : Dev) : Nat := (signed 32 (d.rd .TB_RHO 2)).toNat

/-- What a joint of an arm asks for on a Cartesian path, from its positions at four points a piece `dx` of the path apart and the path's
speed, acceleration and jerk: the chain rule over differences (R101). Speeds are V32, accelerations A32, jerks J32. -/
def jointDemand (q0 q1 q2 q3 : Int) (dx v acc jerk : Nat) (lim : AxisLim) : Demand :=
  let d1 := (q1 - q0).natAbs
  let d2 := (q2 - 2 * q1 + q0).natAbs
  let d3 := (q3 - 3 * q2 + 3 * q1 - q0).natAbs
  if dx = 0 then ⟨0, 0, 0, lim.vLim, lim.aLim, lim.jLim⟩
  else ⟨d1 * v / dx, d1 * acc / dx + d2 * v ^ 2 * 2 ^ 12 / dx ^ 2,
    d1 * jerk / dx + 3 * d2 * v * acc * 2 ^ 12 / dx ^ 2 + d3 * v ^ 3 * 2 ^ 24 / dx ^ 3, lim.vLim, lim.aLim, lim.jLim⟩

/-- The real-time demand of an arm's path against the Pattern limits (R101), from the speed and the acceleration that it has, and the
segment's jerk while it changes its speed: of the path itself, and on a Cartesian path of every joint of the arm or of its block. -/
def armDemand (d : Dev) (p : Plane) (n : Nat) (g : Seg) (a : ArmSt) : List Demand :=
  let own := ownLen g a.start
  let x := toOwn g own a.s.toNat
  let v := a.v.natAbs / 2 ^ 32
  let acc := a.a.natAbs / 2 ^ 32
  let jerk := if acc = 0 then 0 else (rampLimits d n g a.start false).2
  let cap := speedCap d p n g a.start x own
  if g.typ = 1 then
    [⟨v, acc, jerk, cap, jointShare d n g a.start 65536 (·.aLim), jointShare d n g a.start 65536 (·.jLim)⟩]
  else
    let dx := min (2 ^ 32) ((own - x) / 3)
    (d.followers p n).flatMap fun m =>
      let s := d.armSec m.1
      let q (k : Nat) : List Int :=
        (d.armGeo m.1).jointsFor (d.armQ p m.1) (poseMul (g.pointAt a.start (x + k * dx) ++ g.rotAt a.start (x + k * dx) own) m.2)
      ⟨v, acc, jerk, cap, s.cartAcc, s.cartJerk⟩ ::
        ((d.armAxes m.1).zip (((q 0).zip (q 1)).zip ((q 2).zip (q 3)))).map (fun e =>
          jointDemand e.2.1.1 e.2.1.2 e.2.2.1 e.2.2.2 dx v acc jerk (d.axLim e.1))

/-- The tick check of an arm on TB2: rate, lag, SHAFT_LAG, SHAFT_LAG_LIMIT and SHAFT_REV (R101 to R103). -/
def armShaft (p : Plane) (n tickNs : Nat) (d : Dev) : Dev :=
  let a := d.arm p n
  match a.q with
  | [] => d
  | g :: _ =>
    if g.tbase ≠ 2 || d.armState p n ≠ stMoving then d.updArm p n (fun x => { x with rate := d.rho, rateStep := 0 })
    else
      let d1 := if signed 32 (d.rd .TB_RHO 2) < 0 then d.wrP p .PPE_ARM_STAT_SHAFT_REV 1 n else d
      let sec := d.armSec n
      let r := shaftRate d.rho (d.rdP p .PPE_ARM_LAG n) sec.catchup tickNs a.rate a.rateStep (armDemand d p n g a)
      let d2 := (d1.updArm p n (fun x => { x with rate := r.1, rateStep := (r.1 : Int) - x.rate })).wrP p .PPE_ARM_LAG (satU 32 r.2) n
      let d3 :=
        if r.2 = 0 then d2.wrP p .PPE_ARM_STAT_SHAFT_LAG 0 n
        else if d2.rdP p .PPE_ARM_STAT_SHAFT_LAG n = 0 then
          raiseP p .SHAFT_LAG [n] (d2.wrP p .PPE_ARM_STAT_SHAFT_LAG 1 n)
        else d2
      if sec.lagMax < r.2 then requestStop p n .fault false (raiseP p .SHAFT_LAG_LIMIT [n] d3) else d3

/-- The tick check of an auxiliary axis on TB2, against its speed, acceleration and jerk limits. -/
def auxShaft (p : Plane) (m tickNs : Nat) (d : Dev) : Dev :=
  let x := d.aux p m
  match x.move with
  | none => d
  | some mv =>
    if mv.tbase ≠ 2 || d.rdP p .PPE_AX_STAT_STATE (m - 64) ≠ stMoving then d.updAux p m (fun y => { y with rate := d.rho, rateStep := 0 })
    else
      let d1 := if signed 32 (d.rd .TB_RHO 2) < 0 then d.wrP p .PPE_AX_STAT_SHAFT_REV 1 (m - 64) else d
      let sec := d.auxSec m
      let lim := d.axLim m
      let ask : Demand := ⟨x.vel.natAbs, x.acc.natAbs, if x.prof.over then 0 else mv.j.toNat, lim.vLim, lim.aLim, lim.jLim⟩
      let r := shaftRate d.rho (d.rdP p .PPE_AX_LAG (m - 64)) sec.catchup tickNs x.rate x.rateStep [ask]
      let d2 := (d1.updAux p m (fun y => { y with rate := r.1, rateStep := (r.1 : Int) - y.rate })).wrP p .PPE_AX_LAG (satU 32 r.2) (m - 64)
      let d3 :=
        if r.2 = 0 then d2.wrP p .PPE_AX_STAT_SHAFT_LAG 0 (m - 64)
        else if d2.rdP p .PPE_AX_STAT_SHAFT_LAG (m - 64) = 0 then
          raiseP p .SHAFT_LAG [m] (d2.wrP p .PPE_AX_STAT_SHAFT_LAG 1 (m - 64))
        else d2
      if sec.lagMax < r.2 then requestAux p m .fault false (raiseP p .SHAFT_LAG_LIMIT [m] d3) else d3

/-- TB2 enters holdover: every arm and axis on TB2 stops on the programmed ramp (R103). One that stands at rest with its head segment or
its kept move on TB2 is on TB2 too and enters FAULT (DESIGN CHOICE, log entry 185). -/
def shaftHoldover (p : Plane) (d : Dev) : Dev :=
  let d1 := raiseP p .SHAFT_HOLDOVER [] d
  let d2 := forL (d.pat.arms.map (·.1)) (fun n d =>
    if (d.arm p n).q.head?.any (fun g => g.tbase == 2) then requestStop p n .fault false d else d) d1
  forL (d.pat.aux.map (·.1)) (fun m d =>
    if (d.aux p m).move.any (fun v => v.tbase == 2) then requestAux p m .fault false d else d) d2

/-! ### Auxiliary axes in φ4 -/

/-- An auxiliary axis comes to rest in a state. -/
def restAux (p : Plane) (m st : Nat) (d : Dev) : Dev :=
  (d.updAux p m (fun x => { x with
    vel := 0, acc := 0, stop := none, request := none, resume := false
    prof := { s0 := x.pos } })).wrP p .PPE_AX_STAT_STATE st (m - 64)

/-- Where an auxiliary stop ends (R91): ABORT drops the move and one that waits, a fault keeps it; a later REL counts from the set-point (R97). -/
def endAux (p : Plane) (m : Nat) (c : StopCause) (d : Dev) : Dev :=
  match c with
  | .abort => restAux p m stStandby (d.updAux p m (fun x => { x with move := none, newMove := none, base := none }))
  | .fault | .starve => restAux p m stFault (d.updAux p m (fun x => { x with base := none }))
  | _ => restAux p m stHeld d

/-- A request that finds the axis at rest (R91). -/
def restRequestAux (p : Plane) (m : Nat) (c : StopCause) (d : Dev) : Dev :=
  let st := d.rdP p .PPE_AX_STAT_STATE (m - 64)
  match c with
  | .abort => endAux p m c d
  | .fault | .starve => if st = stFault then d else endAux p m c d
  | _ => if st = stStandby then endAux p m c d else d

/-- An ABS or REL move arrives: AUX_DONE for the boundary of the arrival, source 144 when the move asks for it (R97). -/
def auxDone (p : Plane) (m : Nat) (ev : Bool) (d : Dev) : Dev :=
  let d1 := restAux p m stStandby (d.updAux p m (fun x => { x with pos := x.goal, move := none }))
  let d2 := recordP p d.cyc.closeAt 0 Code.AUX_DONE.num 2 [m] (d1.wrP p .PPE_AX_STAT_DONE 1 (m - 64))
  if ev then icuRaise p 144 d2 else d2

/-- Runs an auxiliary profile by one cycle (R98, R99): it arrives, or a VEL move goes on at its speed; a profile planned for a speed of 0
ends short of the target and waits for the next planning (R88). -/
def runAux (p : Plane) (m : Nat) (d : Dev) : Dev :=
  let x := d.aux p m
  match x.move with
  | none => setPoint p m x.pos 0 0 d
  | some mv =>
    let rate := d.tbRate x.rate mv.tbase
    let t := x.prof.t + pathTime rate d.cycLen
    let r := x.prof.at t
    let ff := scaleRate rate 1 (x.prof.at (t + pathTime rate d.nextLen)).2.1
    let d1 := d.updAux p m (fun y => { y with pos := r.1, vel := r.2.1, acc := r.2.2, prof := { y.prof with t := t } })
    if mv.mode = 2 || decide (t < phasesLen x.prof.phases) then setPoint p m r.1 ff 0 d1
    else
      let d2 := if mv.speedAt x.eUsed (d.axLim m).vLim = 0 && r.1 ≠ x.goal then d1.updAux p m (fun y => { y with vel := 0, acc := 0, prof := { s0 := r.1 } }) else auxDone p m mv.event d1
      setPoint p m (d2.aux p m).pos 0 0 d2

/-- Limits of an auxiliary stop: the move's A and J, or the group's quick-stop values (R89). -/
def auxLimits (d : Dev) (m : Nat) (x : AuxSt) (quick : Bool) : Nat × Nat :=
  match x.move with
  | some mv => if quick then ((d.groupSec (d.auxSec m).group).qsDec, (d.groupSec (d.auxSec m).group).qsJerk) else (mv.a.toNat, mv.j.toNat)
  | none => ((d.groupSec (d.auxSec m).group).qsDec, (d.groupSec (d.auxSec m).group).qsJerk)

/-- Starts or steepens the stop of an auxiliary axis, in real time (R92, R94). -/
def stopAux (p : Plane) (m : Nat) (q : StopReq) (d : Dev) : Dev :=
  let x := d.aux p m
  if x.vel = 0 && x.acc = 0 then endAux p m q.cause d
  else
    let cause := (x.stop.map (fun r => strongest r.cause q.cause)).getD q.cause
    let lim := q.pick (auxLimits d m x false) (auxLimits d m x true)
    if x.stop.any (fun r => lim.1.1 ≤ r.dec) then
      d.updAux p m (fun y => { y with stop := y.stop.map (fun r => { r with cause := cause }) })
    else
      let rate := d.tbRate x.rate (if x.stop.isSome then 0 else (x.move.map (·.tbase)).getD 0)
      let v := scaleRate rate 1 x.vel
      let a := scaleRate rate 2 x.acc
      (d.updAux p m (fun y => { y with
        vel := v, acc := a
        stop := some { cause := cause, quick := lim.2, dec := lim.1.1, jerk := lim.1.2, ramp := stopRamp x.pos v a lim.1.1 lim.1.2 } })).wrP
        p .PPE_AX_STAT_STATE stStopping (m - 64)

/-- One cycle of an auxiliary stop; standstill is seen at the φ4 start after it (R95). -/
def runAuxStop (p : Plane) (m : Nat) (r : StopRun) (d : Dev) : Dev :=
  if r.ramp.over then
    let d1 := endAux p m r.cause d
    setPoint p m (d1.aux p m).pos 0 0 d1
  else
    let t := r.ramp.t + d.cycLen
    let x := r.ramp.stopAt t
    setPoint p m x.1 (r.ramp.stopAt (t + d.nextLen)).2.1 0 (d.updAux p m (fun y => { y with
      pos := x.1, vel := x.2.1, acc := x.2.2, stop := some { r with ramp := { r.ramp with t := t } } }))

/-- An accepted RESUME of an auxiliary axis: its move runs from the current state (R91, R93). -/
def resumeAux (p : Plane) (m : Nat) (d : Dev) : Dev :=
  let x := d.aux p m
  let st := d.rdP p .PPE_AX_STAT_STATE (m - 64)
  match x.move with
  | none => if st = stHeld || st = stFault then restAux p m stStandby d else d
  | some mv =>
    if st = stHeld || st = stFault || st = stStopping then
      let inv (k : Nat) (v : Int) : Int := if x.stop.isSome then unscaleRate (d.tbRate x.rate mv.tbase) k v else v
      replanAux p m ((d.updAux p m (fun y => { y with
        stop := none, base := if mv.mode = 2 then y.base else some y.goal, vel := inv 1 y.vel, acc := inv 2 y.acc })).wrP
        p .PPE_AX_STAT_STATE stMoving (m - 64))
    else d

/-- The first φ4 of a planning tick: a new move replaces the old one, planned from the present velocity and acceleration in the time of
its own base (R97), or a changed e is planned (R88). An axis in HELD, FAULT
or STOPPING takes the move and stays. DONE is written 0 where a move starts, a VEL move too (DESIGN CHOICE, log entry 158). -/
def auxTick (p : Plane) (m : Nat) (d : Dev) : Dev :=
  let x := d.aux p m
  let st := d.rdP p .PPE_AX_STAT_STATE (m - 64)
  match x.newMove with
  | some mv =>
    let from' := if mv.fromSp then x.pos else x.base.getD x.pos
    let goal : Int := if mv.mode = 0 then mv.target else if mv.mode = 1 then from' + mv.target else x.pos
    let conv (k : Nat) (v : Int) : Int :=
      if st = stMoving then unscaleRate (d.tbRate x.rate mv.tbase) k (scaleRate (d.tbRate x.rate ((x.move.map (·.tbase)).getD 0)) k v)
      else v
    let d1 := (d.updAux p m (fun y => { y with
      vel := conv 1 y.vel, acc := conv 2 y.acc
      move := some mv, newMove := none, goal := goal, base := if mv.mode = 2 then none else some goal })).wrP
      p .PPE_AX_STAT_DONE 0 (m - 64)
    if st = stHeld || st = stFault || st = stStopping then d1
    else replanAux p m (d1.wrP p .PPE_AX_STAT_STATE stMoving (m - 64))
  | none => if st = stMoving && x.eUsed ≠ d.auxE p m then replanAux p m d else d

/-- An auxiliary axis in STO: it holds at once, and its set-point follows the measurement (R91, R96). -/
def stoAux (p : Plane) (m : Nat) (meas : Int) (d : Dev) : Dev :=
  let x := d.aux p m
  let st := d.rdP p .PPE_AX_STAT_STATE (m - 64)
  let d1 := if st = stMoving then restAux p m stHeld d
    else if st = stStopping then endAux p m ((x.stop.map (·.cause)).getD .stop) d
    else d
  setPoint p m meas 0 0 (d1.updAux p m (fun y => { y with pos := meas, vel := 0, acc := 0, prof := { s0 := meas } }))

/-- The φ4 of an auxiliary axis: requests, RESUME, STO, the tick, then its set-point (R88 to R99). -/
def planAux (p : Plane) (m : Nat) (saf : Option StopReq) (meas : Nat → Int) (d : Dev) : Dev :=
  let x := d.aux p m
  let st0 := d.rdP p .PPE_AX_STAT_STATE (m - 64)
  let d1 := d.updAux p m (fun y => { y with request := none, resume := false })
  let d2 := match mergeReq x.request saf with
    | some r => if st0 = stMoving || st0 = stStopping then stopAux p m r d1 else restRequestAux p m r.cause d1
    | none => if x.resume && !d.axHeld p m then resumeAux p m d1 else d1
  if d.axHeld p m then stoAux p m (meas m) d2
  else
    let d3 := if d.rd .SYS_PHASE_TICK_POS = 0 then auxTick p m d2 else d2
    let y := d3.aux p m
    let st := d3.rdP p .PPE_AX_STAT_STATE (m - 64)
    if st = stStopping then
      match y.stop with
      | some r => runAuxStop p m r d3
      | none => d3
    else if st = stMoving then runAux p m (if d3.auxE p m < y.eUsed then replanAux p m d3 else d3)
    else setPoint p m y.pos 0 0 d3

/-! ### Microsteps (R104 to R111) -/

/-- Table `t` of plane `p` (R105). -/
def Dev.msTable (d : Dev) (p : Plane) (t : Nat) : List Nat := (Sparse.find (d.pl p).ppe.tables t).getD sineTable

/-- Entry `i` of table `t` of plane `p`, with T[256] taken as 65,535 (R105). -/
def Dev.msEntry (d : Dev) (p : Plane) (t i : Nat) : Nat :=
  if i = 256 then 65535 else (d.msTable p t).getD i 0

/-- The signed coil magnitude at an electrical index (R105). -/
def quarter (d : Dev) (p : Plane) (t x cur : Nat) : Int :=
  let q := x / 256
  let i := x % 256
  let m := if q = 0 || q = 2 then d.msEntry p t i else d.msEntry p t (256 - i)
  fitS 16 (rdiv ((if q < 2 then (m : Int) else -(m : Int)) * cur) 65535)

/-- round(position × MS_PER_UNIT) (R104). -/
def microPos (s : AuxSec) (pos : Int) : Int := rdiv (pos * s.msNum) (2 ^ 32 * s.msDen)

/-- Step pulses of a local pair for an index change: one per STEP_DIV microsteps (R107). -/
def stepPulses (old new : Int) (div : Nat) : Int := if div = 0 then 0 else new / div - old / div

/-- The microstep generator of one stepper axis in φ3, for the position command of the closing boundary. The hold current
follows one cycle after the index stops (R105). Answers the state and the step pulses of a local pair (R107). -/
def microstep (p : Plane) (m : Nat) (cmd : Int) (d : Dev) : Dev :=
  let s := d.auxSec m
  let x := d.aux p m
  let idx := microPos s cmd - x.idxOfs
  let same := if idx = x.idxPrev then x.same + 1 else 0
  let cur := if 2 ≤ same then s.holdCur else s.runCur
  let t := d.rdP p .PPE_AX_CFG_TABLE (m - 64)
  let e := (idx % 1024).toNat
  (d.updAux p m (fun y => { y with
    idxPrev := idx, idxStep := signed 32 (unsigned 32 (idx - x.idxPrev)), same := same
    coilA := quarter d p t e cur, coilB := quarter d p t ((e + 256) % 1024) cur
    due := if s.out then stepPulses x.idxPrev idx (d.rdP p .PPE_AX_CFG_STEP_DIV (m - 64)) else 0 })).wrP
    p .PPE_AX_MSIDX_IDX (unsigned 32 idx) (m - 64)

/-- The shortest real cycle L_min, in 2^-16 ns: T_cell less 1/1,000, and less T_cell/8 when SYNC_IN is permitted (R29). -/
def Dev.minCycle (d : Dev) : Nat :=
  d.tCell - d.tCell / 1000 - (if d.rd .SYS_CYCLE_SYNC_PAT = 1 then d.tCell / 8 else 0)

/-- The condition of R108 for a local axis with staged PW, DS and STEP_DIV. -/
def stepsFit (d : Dev) (m pw ds div : Nat) : Bool :=
  let s := d.auxSec m
  let num := (d.axLim m).vLim * s.msNum * d.minCycle
  let den := 65536 * s.msDen * div * secUnit
  let nmax := (if den = 0 then 0 else (num + den - 1) / den) + 1
  decide (nmax * 2 * pw * 5 * nsUnit + ds * 5 * nsUnit ≤ d.minCycle)

/-- Runs of step pulses at the minimum spacing within `room` (R108): a pulse takes twice the pulse width `pw`, and the first one after
a reversal waits for the direction set-up `ds`. Answers the runs driven, the runs carried, and the latest direction. -/
def driveSteps (pw ds : Nat) (down : Bool) (room : Nat) : List Int → List Int × List Int × Bool
  | [] => ([], [], down)
  | r :: t =>
    if r = 0 then driveSteps pw ds down room t
    else
      let dir := decide (r < 0)
      let left := if dir = down then room else room - ds
      let n := if pw = 0 then 0 else min r.natAbs (left / (2 * pw))
      let run : Int := if dir then -(n : Int) else n
      if n < r.natAbs then (if n = 0 then [] else [run], (r - run) :: t, if n = 0 then down else dir)
      else
        let x := driveSteps pw ds dir (left - n * (2 * pw)) t
        (run :: x.1, x.2)

/-- POS_LOST is set and PARKED clear: a move that waits is refused with every other one (R110). -/
def markLost (p : Plane) (m : Nat) (d : Dev) : Dev :=
  ((d.updAux p m (fun x => { x with newMove := none })).wrP p .PPE_AX_STAT_POS_LOST 1 (m - 64)).wrP p .PPE_AX_STAT_PARKED 0 (m - 64)

/-- The index of an axis is lost (R110): code and source, and the stop of a fault of the path area (R91). -/
def posLost (p : Plane) (m : Nat) (d : Dev) : Dev := requestAux p m .fault false (raiseP p .POS_LOST [m] (markLost p m d))

/-- AXIS_SETPOS with its STATUS (R111). -/
def axisSetpos (m : Nat) (pos : Int) (d : Dev) : Dev × Nat × Nat :=
  if !(d.auxSec m).stepper then (d, Code.NOT_STEPPER.num, 0)
  else if !(d.aux d.active m).still then (d, Code.SETPOS_MOVING.num, 0)
  else (bothPlanes (fun p d => ((d.updAux p m (fun x => { x with setPos := some pos })).wrP
    p .PPE_AX_STAT_POS_LOST 0 (m - 64)).wrP p .PPE_AX_STAT_PARKED 0 (m - 64)) d, 0, 0)

/-- A waiting AXIS_SETPOS takes effect at the boundary: set-point and index offset; the index keeps its value (R111).
The loop engine's p_cmd and encoder offset are set by `loopSetpos`. -/
def setposBoundary (p : Plane) (m : Nat) (d : Dev) : Dev :=
  let x := d.aux p m
  match x.setPos with
  | none => d
  | some pos =>
    (d.updAux p m (fun y => { y with
      pos := pos, goal := x.goal + pos - x.pos, base := y.base.map (· + pos - x.pos), vel := 0, acc := 0, prof := { s0 := pos }
      idxOfs := microPos (d.auxSec m) pos - x.idxPrev })).setSp p m { pos := pos }

/-- MS_PARK with its STATUS (R109, R111). No rule says what it does to an axis on a ring node, whose node gives notice itself: accepted
without effect (DESIGN CHOICE, log entry 159). -/
def msPark (m : Nat) (d : Dev) : Dev × Nat × Nat :=
  if !(d.auxSec m).stepper then (d, Code.NOT_STEPPER.num, 0)
  else if (d.auxSec m).out then (bothPlanes (fun p d => d.wrP p .PPE_AX_STAT_PARKED 1 (m - 64)) d, 0, 0)
  else (d, 0, 0)

/-- MS_TABLE_LOAD on both planes: the table waits for the planning-tick boundary (R106). -/
def msTableLoad (t : Nat) (vals : List Nat) (d : Dev) : Dev × Nat × Nat :=
  (bothPlanes (fun p d => d.updPpe p (fun x => { x with
    tablesNew := Sparse.put x.tablesNew (t % 4) (vals.map (mask 16)) })) d, 0, 0)

/-- New tables become live at a planning-tick boundary (R106). -/
def tablesLive (p : Plane) (d : Dev) : Dev :=
  d.updPpe p (fun x => { x with
    tables := x.tablesNew.foldl (fun t e => Sparse.put t e.1 e.2) x.tables, tablesNew := [] })

/-- Overrides written since take effect at a planning-tick boundary; values above 2.0 act as 2.0 (R86). -/
def overridesLive (p : Plane) (d : Dev) : Dev :=
  forN 24 (fun i d => d.updPpe p (fun x => { x with ovr := x.ovr.set i (min (d.rdP p .PPE_OVR i) 0x8000) })) d

end Sys2Proof.Machine
end

