-- ==== Sys2Proof/Machine/Loops.lean ====
section
/-! DEFINITION. The loop engine (06_loops.md): gain scheduling, sources, the joint and web classes, stale inputs and axis
faults. Sums stay exact in units of 2^-36 of a V32 unit and are rounded once (R169). -/

namespace Sys2Proof.Machine

/-! ### Access -/

/-- Loop state of axis `a` in plane `p`. -/
def Dev.lax (d : Dev) (p : Plane) (a : Nat) : LpeAx := (d.pl p).lpe.ax.get a

/-- The measured position of an axis: its feedback, else its set-point. -/
def Dev.meas (d : Dev) (p : Plane) (a : Nat) : Int := ((d.lax p a).pFb).getD (d.spOf p a).pos

/-- Passes the loop state of an axis through `f`. -/
def Dev.updLax (d : Dev) (p : Plane) (a : Nat) (f : LpeAx → LpeAx) : Dev :=
  d.updPl p (fun x => { x with lpe := { x.lpe with ax := x.lpe.ax.upd a f } })

/-- What the AXES section gives an axis for its loops. -/
def Dev.loopSec (d : Dev) (a : Nat) : LoopSec := (Sparse.find d.pat.loops a).getD {}

/-- The enabled axes (R167). -/
def Dev.loopAxes (d : Dev) : List Nat := d.pat.loops.map (·.1)

/-- Enabled loops of an axis; a joint axis has the position loop only. -/
def Dev.loopsOf (d : Dev) (p : Plane) (a : Nat) : List Nat :=
  if d.rdP p .LPE_AX_CFG_CLASS a = 0 then [0]
  else (List.range 4).filter (fun i => bit (d.rdP p .LPE_AX_CFG_LOOPS a) i)

/-- The arm of a joint axis. -/
def Dev.armOfAxis (d : Dev) (a : Nat) : Option Nat :=
  (d.pat.arms.find? (fun e => decide (e.2.first ≤ a) && decide (a < e.2.first + e.2.joints))).map (·.1)

/-- A loop register field of loop `i` of axis `a`. -/
def Dev.lp (d : Dev) (p : Plane) (f : Fld) (a i : Nat) : Nat := d.rdAt f p a i

/-- The axis follows its own set-points in toile mode (R68). -/
def Dev.follower (d : Dev) : Bool := decide (d.rd .PAT_STATUS_TOILE = 1) && decide (d.rd .PAT_CTL_TOILE_FB = 1)

/-! ### Gain scheduling (R171, R172) -/

/-- Entry `k` of gain table `t`. -/
def Dev.gain (d : Dev) (p : Plane) (t k : Nat) : Nat :=
  if t = 0 then 0x1000
  else if k % 2 = 0 then d.rdAt .LPE_GTAB_G_EVEN p t (k / 2) else d.rdAt .LPE_GTAB_G_ODD p t (k / 2)

/-- The gain multiplier of an error magnitude, U4.12 (R172). -/
def lut (d : Dev) (p : Plane) (t m : Nat) : Int :=
  if m = 0 then d.gain p t 0
  else if 2 ^ 31 ≤ m then d.gain p t 32
  else
    let j := Nat.log2 m
    let lo : Int := d.gain p t (j + 1)
    lo + rdiv ((d.gain p t (j + 2) - lo) * ((m : Int) - 2 ^ j)) (2 ^ j)

/-! ### Analog inputs (R181) -/

/-- Scale and filter of one analog input; a faulty sample leaves y as it is. -/
def aiFilter (p : Plane) (c : Nat) (d : Dev) : Dev :=
  if d.rd .AI_STAT_FAULTY c = 1 then
    d.updPl p (fun x => { x with lpe := { x.lpe with ai := x.lpe.ai.upd c (fun f => { f with prev := f.y }) } })
  else
    let x := satS 32 (signed 32 (d.rdP p .LPE_AI_GAIN c) * signed 16 (d.rd .AI_STAT_RAW c) +
      signed 32 (d.rdP p .LPE_AI_OFS c))
    let y := ((d.pl p).lpe.ai.get c).y
    let y1 := satS 32 (rdiv (y * 32768 + d.rdP p .LPE_AI_FILT c * (x - y)) 32768)
    (d.updPl p (fun z => { z with
      lpe := { z.lpe with ai := z.lpe.ai.set c { y := y1, prev := y, ever := true } } })).wrP p .LPE_AI_VAL (unsigned 32 y1) c

/-! ### Set-point sources (R180 to R184) -/

/-- What a source delivers to a loop: value (P64 for the position loop, else raw), velocity (V32), whether the input is
empty, and whether it never delivered a value. -/
structure SrcIn where
  val : Int := 0
  vel : Int := 0
  empty : Bool := false
  never : Bool := false
  deriving DecidableEq, Repr

/-- One boundary of electronic gearing (R182); a faulty pulse input leaves its last values. -/
def gear (d : Dev) (p : Plane) (a c : Nat) (x : LpeAx) : LpeAx :=
  let x0 := if x.gNew then { x with gP0 := x.pSp - x.ofs, gN := 0, gAcc := 0, gNew := false } else x
  if d.fbBad (16 + c) then x0
  else
    let cnt := d.fbPos (16 + c)
    let dc := match x0.gPrev with
      | some v => cntDiff cnt v
      | none => 0
    let den : Int := max 1 (d.rdP p .LPE_AX_GDEN a)
    let acc := x0.gAcc + dc * signed 32 (d.rdP p .LPE_AX_GNUM a)
    let q := acc / den
    { x0 with gPrev := some cnt, gAcc := acc - q * den, gN := x0.gN + q, gRate := d.fbSpeed (16 + c) }

/-- Geared velocity as V32: rate S27.4, UPC with binary point 32 (R182). -/
def gearVel (d : Dev) (p : Plane) (a : Nat) (x : LpeAx) : Int :=
  let den : Int := max 1 (d.rdP p .LPE_AX_GDEN a)
  satS 32 (rdiv (x.gRate * signed 32 (d.rdP p .LPE_AX_GNUM a) * (d.loopSec a).upc) (den * 1048576))

/-- The source of loop `i` in a cycle of length `len`, and the loop state after reading it. A ring source whose word is missing goes on at its
last velocity where `adv` says so (R186). -/
def source (d : Dev) (p : Plane) (a i len : Nat) (adv : Bool) (x : LpeAx) : SrcIn × LpeAx :=
  let up : Int := if i = 0 then 65536 else 1
  let ch := d.lp p .LPE_LP_CTL_CH a i
  match d.lp p .LPE_LP_CTL_SRC a i with
  | 0 => ({ val := (d.spOf p a).pos, vel := (d.spOf p a).vel }, x)
  | 2 =>
    let f := (d.pl p).lpe.ai.get ch
    ({ val := f.y * up, vel := if len = 0 then 0 else satS 32 (rdiv ((f.y - f.prev) * secUnit) len)
       empty := decide (d.rd .AI_STAT_FAULTY ch = 1), never := !f.ever }, x)
  | 3 =>
    let y := gear d p a (ch % 2) x
    ({ val := satS 64 (y.gP0 + y.gN * (d.loopSec a).upc), vel := gearVel d p a y
       empty := d.fbBad (16 + ch % 2), never := !(d.pl p).lpe.pi.get (ch % 2) }, y)
  | 4 =>
    let w := d.field.word.get (a * 4 + i)
    if w.fresh then ({ val := w.pos, vel := w.vel }, x)
    else
      match x.ring.get i with
      | some (s, v) =>
        let s1 := if adv then satS (if i = 0 then 64 else 32) (s + rdiv (v * up * len) secUnit) else s
        ({ val := s1, vel := v, empty := true }, { x with ring := x.ring.set i (some (s1, v)) })
      | none => ({ empty := true, never := true }, x)
  | _ => ({ val := signed 32 (d.lp p .LPE_LP_REF a i) }, x)

/-- Sources of a web position loop that the PPE does not feed: AI, PI gearing, ring (R187). -/
def Dev.ownSource (d : Dev) (p : Plane) (a : Nat) : Bool :=
  d.rdP p .LPE_AX_CFG_CLASS a = 1 && (d.loopsOf p a).contains 0 && 2 ≤ d.lp p .LPE_LP_CTL_SRC a 0

/-! ### Feedback (R175, R179, R186, R197) -/

/-- The slot of the axis's node has a phase of another owner in this cycle (R352): the axis's input is neither due nor empty. -/
def Dev.slotRests (d : Dev) (a : Nat) : Bool :=
  let mine := d.pat.ring.flatMap (fun e => (e.2.nodes.filter (fun x => x.2.axes.contains a)).map (fun x => (e.2, x)))
  !mine.isEmpty && !mine.any (fun m => m.1.slots.any (fun s =>
    let ph := d.rd .SYS_CYCNT % 2 ^ s.2.mux
    s.2.owners.getD ph none == some m.2.1 || m.2.2.late == some (s.1, ph)))

/-- The feedback of an axis, its emptiness by kind, and the loop state that keeps the last values. -/
structure FbIn where
  posEmpty : Bool
  forceEmpty : Bool
  x : LpeAx
  deriving DecidableEq, Repr

/-- Feedback of an axis for the opening boundary. The force comes from the slot of the axis's drive. -/
def feedback (d : Dev) (p : Plane) (a k : Nat) (x : LpeAx) : FbIn :=
  let w := d.field.slot.get a
  let x0 := if w.fresh then { x with force := some w.force } else x
  let gone := !w.fresh && !d.slotRests a
  match d.rdP p .LPE_AX_CFG_FBSRC a with
  | 0 =>
    if w.fresh then ⟨false, false, { x0 with pFb := some (w.pos + x.encOfs), vFb := some w.vel }⟩ else ⟨gone, gone, x0⟩
  | 1 =>
    let c := d.rdP p .LPE_AX_CFG_FBCH a
    if d.fbBad c then ⟨true, gone, x0⟩
    else
      let sc := (d.loopSec a).fbScale
      let pos := satS 64 (x.locPos + cntDiff (d.fbPos c) x.cntPrev * sc)
      ⟨false, gone, { x0 with
        cntPrev := d.fbPos c, locPos := pos, pFb := some (pos + x.encOfs)
        vFb := some (satS 32 (rdiv (d.fbSpeed c * sc) 1048576)) }⟩
  | _ => ⟨false, gone, { x0 with pFb := some x.pCmd, vFb := some (Config.commandVfb k a) }⟩

/-! ### Axis faults (R186 to R188) -/

/-- The v_sp of a web axis on its own source ramps to zero, with the group's quick-stop values (R187). The ramp starts at the
boundary that closes the cycle, where v_sp is `v`. -/
def rampToZero (d : Dev) (p : Plane) (a : Nat) (v : Int) : Dev :=
  let g := d.groupSec (d.auxSec a).group
  d.updLax p a (fun x => { x with
    ramp := x.ramp <|> some
      { s0 := satS 64 (x.pSp + rdiv (v * 65536 * d.cycLen) secUnit), v0 := v, a0 := 0
        phases := velPhases v 0 0 g.qsDec g.qsJerk } })

/-- An axis fault: FAULT, FCODE, code and source 96, and the stop of its arm or group; a lost input leaves the feed-forward
only, from the next cycle (R187, R188). -/
def axisFault (p : Plane) (a : Nat) (c : Code) (lost : Bool) (v : Int) (d : Dev) : Dev :=
  let d1 := raiseP p c [a] ((d.wrP p .LPE_AX_STAT_FAULT 1 a).wrP p .LPE_AX_STAT_FCODE c.num a)
  let d2 := if lost then d1.updLax p a (fun x => { x with ffOnly := true }) else d1
  let d3 := if d.ownSource p a then rampToZero d2 p a v else d2
  if lost && d.ownSource p a then d3
  else
    match d.armOfAxis a with
    | some n => requestStop p n .fault false d3
    | none => requestTarget p (0x80 + (d.auxSec a).group) .fault false d3

/-- One cycle of the stale counter (R186, R187): `stale` for an empty input or a repeated command, `sp` when a set-point
input was missing. -/
def staleStep (p : Plane) (a : Nat) (stale sp : Bool) (v : Int) (d : Dev) : Dev :=
  let n := d.rdP p .LPE_AX_STAT_STALE_CNT a
  if !stale then d.wrP p .LPE_AX_STAT_STALE_CNT 0 a
  else
    let d1 := d.wrP p .LPE_AX_STAT_STALE_CNT (satU 4 (n + 1)) a
    let d2 := if n = 0 then raiseP p .FB_STALE [a] d1 else d1
    if d.rdP p .LPE_AX_CFG_STALE_MAX a ≤ n + 1 && !(d.lax p a).ffOnly then
      axisFault p a (if sp then .SP_LOST else .FB_LOST) true v d2
    else d2

/-! ### Control (R173 to R177) -/

/-- Scale of exact sums over a V32 unit. -/
def sumUnit : Int := 2 ^ 36

/-- Error format of a loop: fraction bits of the raw error (E32 24, V32 and T32 16). -/
def errBits (i : Nat) : Nat := if i = 0 then 24 else 16

/-- The result of one loop before the competition: error, integrator I1, exact u. -/
structure LoopOut where
  idx : Nat
  err : Int
  i1 : Int
  u : Int
  ki : Int
  deriving DecidableEq, Repr

/-- One loop: gain, integrator and exact output, for an error and a feed-forward in exact units (R173, R175). -/
def loopStep (d : Dev) (p : Plane) (a i len : Nat) (e ff integ : Int) : LoopOut :=
  let g := lut d p (d.lp p .LPE_LP_CTL_TABLE a i) e.natAbs
  let kp := signed 32 (d.lp p .LPE_LP_KP a i)
  let ki := signed 32 (d.lp p .LPE_LP_KI a i)
  let den : Int := 2 ^ (12 + errBits i) * secUnit
  let i1 := satS 32 (rdiv (integ * den + ki * g * e * len) den)
  { idx := i, err := e, i1 := i1, u := ff + kp * g * e * 2 ^ (24 - errBits i) + i1 * sumUnit, ki := ki }

/-- The integrator after the competition or the clamp (R173, R177). -/
def trackBack (kaw : Nat) (out : Int) (l : LoopOut) : Int :=
  if l.ki = 0 then 0 else satS 32 (rdiv (l.i1 * sumUnit * 32768 + kaw * (out * sumUnit - l.u)) (sumUnit * 32768))

/-- The winner: the least s × u, and the lowest index on equal values (R176). -/
def winner (s : Int) (l : List LoopOut) : Option LoopOut :=
  match l with
  | [] => none
  | x :: t => some (t.foldl (fun w y => if s * y.u < s * w.u then y else w) x)

/-! ### One axis in one cycle -/

/-- Shows the set-point and the offset an axis used. -/
def showSp (p : Plane) (a : Nat) (pSp ofs : Int) (d : Dev) : Dev :=
  let u := unsigned 64 pSp
  ((d.wrP p .LPE_AX_SPOS_LO u a).wrP p .LPE_AX_SPOS_HI (u / 2 ^ 32) a).wrP
    p .LPE_AX_SPOFS_OFS (unsigned 32 (satS 32 (rdiv ofs 256))) a

/-- The position command of a stepper advances with the speed that it is sent (R179). -/
def stepPosition (p : Plane) (a len : Nat) (v : Int) (d : Dev) : Dev :=
  if (d.auxSec a).stepper then
    d.updLax p a (fun x => { x with pCmd := satS 64 (x.pCmd + rdiv (v * 65536 * len) secUnit) })
  else d

/-- The command record of an axis: speed, torque, and the position command of a stepper (R173, R176, R179). -/
def command (p : Plane) (a len : Nat) (v t : Int) (d : Dev) : Dev :=
  stepPosition p a len v ((d.updLax p a (fun x => { x with vCmd := v, tCmd := t })).wrP p .LPE_AX_CMD (unsigned 32 v) a)

/-- Every integrator of an axis to 0. -/
def zeroInteg (p : Plane) (a : Nat) (d : Dev) : Dev :=
  forN 4 (fun i d => d.wrAt .LPE_LP_INTEG p a i 0) (d.updLax p a (fun x => { x with integ := ⟨0, []⟩ }))

/-- An output outside its clamp: SAT, with one notification at the first such cycle (R189). -/
def showSat (p : Plane) (a : Nat) (sat : Bool) (d : Dev) : Dev :=
  let d1 := d.wrP p .LPE_AX_STAT_SAT (b2n sat) a
  if sat && d.rdP p .LPE_AX_STAT_SAT a = 0 then raiseP p .OUT_SAT [a] d1 else d1

/-- A change of the winning loop (R178). -/
def showWin (p : Plane) (a w : Nat) (d : Dev) : Dev :=
  if d.rdP p .LPE_AX_STAT_WIN a = w then d
  else
    let d1 := d.wrP p .LPE_AX_STAT_WIN w a
    let d2 := if d.rdP p .LPE_AX_CFG_WIN_LOG a = 1 then raiseP p Code.WIN_CHANGE.quiet [a] d1 else d1
    if d.rdP p .LPE_AX_CFG_WIN_IRQ a = 1 then icuRaise p 99 d2 else d2

/-- The error of loop `i` in its format (R173, R175); without a force the error is 0, as in follower mode (R68). -/
def loopError (i : Nat) (ref pSp pFb vFb : Int) (force : Option Int) : Int :=
  match i with
  | 0 => satS 32 (rdiv (pSp - pFb) 256)
  | 1 => satS 32 (ref - vFb)
  | _ => satS 32 (ref - force.getD ref)

/-- FEMAX of a position loop: FOLLOW and the fault FOLLOW_ERR (R188). -/
def followTest (p : Plane) (a : Nat) (e : Option Int) (vSp : Int) (d : Dev) : Dev :=
  if e.any (fun x => decide ((d.rdP p .LPE_AX_FEMAX a : Int) < absI x)) && d.rdP p .LPE_AX_STAT_FOLLOW a = 0 then
    axisFault p a .FOLLOW_ERR false vSp (d.wrP p .LPE_AX_STAT_FOLLOW 1 a)
  else d

/-- The loops of an axis with all inputs in hand: `srcs` by loop, `pSp` and `vSp` after offset and ramp
(R173 to R178, R188, R189). -/
def closeLoops (p : Plane) (a len : Nat) (srcs : List (Nat × SrcIn)) (pSp vSp pFb vFb : Int) (force : Option Int)
    (d : Dev) : Dev :=
  let x := d.lax p a
  let web := decide (d.rdP p .LPE_AX_CFG_CLASS a = 1)
  let ffv : Int := d.rdP p .LPE_AX_FF_KVFF a * vSp * 2097152
  let outs := srcs.map (fun (i, s) =>
    loopStep d p a i len (loopError i s.val pSp pFb vFb force) (if i = 1 then s.val * sumUnit else ffv) (x.integ.get i))
  let lo := signed 32 (d.rdP p .LPE_AX_VMIN a)
  let hi := signed 32 (d.rdP p .LPE_AX_VMAX a)
  match winner (if d.rdP p .LPE_AX_CFG_INV a = 0 || !web then 1 else -1) outs with
  | none => command p a len 0 0 d
  | some w =>
    let out := rdiv (clampI (lo * sumUnit) (hi * sumUnit) w.u) sumUnit
    let kaw := d.rdP p .LPE_AX_KAW a
    let d1 := forL outs (fun l d =>
      let v := trackBack kaw out l
      (((d.updLax p a (fun y => { y with integ := y.integ.set l.idx v })).wrAt .LPE_LP_INTEG p a l.idx (unsigned 32 v)).wrAt
        .LPE_LP_OUT p a l.idx (unsigned 32 (satS 32 (rdiv l.u sumUnit)))).wrAt .LPE_LP_ERR p a l.idx (unsigned 32 l.err)) d
    let d2 := showSat p a (decide (w.u < lo * sumUnit) || decide (hi * sumUnit < w.u)) d1
    let d3 := if web then showWin p a w.idx d2 else d2
    let tq := if web then 0 else satS 32 (rdiv (d.rdP p .LPE_AX_FF_KTFF a * (d.spOf p a).trq) 32768)
    let d4 := command p a len out tq d3
    followTest p a ((outs.find? (fun l => l.idx == 0)).map (·.err)) vSp d4

/-- The command after a lost input is the feed-forward only (R187); the errors are formed and tested as before (R188). A web
axis shows its clamp in SAT, and a joint axis has none (R189). -/
def ffCommand (p : Plane) (a len : Nat) (srcs : List (Nat × SrcIn)) (pSp vSp pFb vFb : Int) (force : Option Int) (d : Dev) :
    Dev :=
  let errs := srcs.map (fun (i, s) => (i, loopError i s.val pSp pFb vFb force))
  let kv : Int := d.rdP p .LPE_AX_FF_KVFF a * vSp
  let v := satS 32 (rdiv kv 32768)
  let d1 := forL errs (fun e d => d.wrAt .LPE_LP_ERR p a e.1 (unsigned 32 e.2)) (zeroInteg p a d)
  let lo := signed 32 (d.rdP p .LPE_AX_VMIN a)
  let hi := signed 32 (d.rdP p .LPE_AX_VMAX a)
  let d2 :=
    if d.rdP p .LPE_AX_CFG_CLASS a = 0 then
      command p a len v (satS 32 (rdiv (d.rdP p .LPE_AX_FF_KTFF a * (d.spOf p a).trq) 32768)) (showSat p a false d1)
    else command p a len (clampI lo hi v) 0 (showSat p a (decide (kv < lo * 32768) || decide (hi * 32768 < kv)) d1)
  followTest p a ((errs.find? (fun e => e.1 == 0)).map (·.2)) vSp d2

/-- The sources of the enabled loops in order, threading the loop state. -/
def readSources (d : Dev) (p : Plane) (a len : Nat) (adv : Bool) : List Nat → LpeAx → List (Nat × SrcIn) × LpeAx
  | [], x => ([], x)
  | i :: t, x =>
    let r := source d p a i len adv x
    let rest := readSources d p a len adv t r.2
    ((i, r.1) :: rest.1, rest.2)

/-- The command of an axis whose loop output was not ready is sent again (R41); a stepper goes on at that speed (R179). -/
def sameCommand (p : Plane) (a : Nat) (d : Dev) : Dev :=
  stepPosition p a d.cycLen (d.lax p a).vCmd (d.wrP p .LPE_AX_STAT_REPEAT 1 a)

/-- φ2 of one axis (R168 to R189). Below RUN v_sp is 0 and the position set-point holds (R496). `rep` says that its loop output is
not ready at the φ3 start: the inputs are read and counted, and the previous command goes out again (R41, R186). -/
def loopAxis (p : Plane) (rep : Bool) (a : Nat) (d : Dev) : Dev :=
  let k := d.cycNo
  let len := d.cycLen
  let loops := d.loopsOf p a
  let fol := d.follower && d.rdP p .LPE_AX_CFG_FBSRC a ≠ 2
  let due := readSources d p a len true loops (d.lax p a)
  let seen := (feedback d p a k due.2).x
  let never := due.1.any (fun e => e.2.never) || (!fol && loops.any (fun i =>
    if i = 0 then seen.pFb.isNone else if i = 1 then seen.vFb.isNone else seen.force.isNone))
  -- without a needed input no ring source is advanced (R186)
  let srcs := if never then readSources d p a len false loops (d.lax p a) else due
  let s0 := ((srcs.1.find? (fun e => e.1 == 0)).map (·.2)).getD { val := (d.spOf p a).pos, vel := (d.spOf p a).vel }
  let fb := feedback d p a k srcs.2
  let sto := d.axHeld p a
  -- a ramp to zero stands at the feedback while the axis is in STO (R185)
  let x := { fb.x with ramp := if sto then fb.x.ramp.map (fun (r : Profile) => ({ s0 := fb.x.pFb.getD r.s0 } : Profile)) else fb.x.ramp }
  let hold := decide (1 ≤ d.rd .SYS_LADDER_STATE)
  let vSp0 := match x.ramp with
    | some r => (r.stopAt (r.t + len)).2.1
    | none => if hold then 0 else s0.vel
  -- a source that has not delivered yet gives no set-point: the offset is set at its first value (R184)
  let ofs := if s0.never then x.ofs else match x.pFb with
    | some q => if sto || x.fbNew then q - s0.val else if x.srcNew then x.pSp - s0.val else x.ofs
    | none => if x.srcNew then x.pSp - s0.val else x.ofs
  let pSp := match x.ramp with
    | some r => (r.stopAt r.t).1
    | none => if s0.never then (if sto then x.pFb.getD x.pSp else x.pSp)
      else if hold && !sto && !x.fbNew then x.pSp else satS 64 (s0.val + ofs)
  let spEmpty := srcs.1.any (fun e => e.2.empty)
  let fbEmpty := !fol && (loops.any (fun i => if i ≤ 1 then fb.posEmpty else fb.forceEmpty))
  let stale := spEmpty || fbEmpty || never
  let keep := { x with
    ofs := ofs, srcNew := x.srcNew && s0.never, fbNew := x.fbNew && (x.pFb.isNone || s0.never), pSp := pSp
    ramp := x.ramp.map (fun r => { r with t := r.t + len })
    zeroFor := if vSp0 = 0 then x.zeroFor + 1 else 0 }
  let d1 := showSp p a pSp ofs (((d.updLax p a (fun _ => keep)).wrP p .LPE_AX_STAT_STALE (b2n stale) a).wrP
    p .LPE_AX_STAT_REPEAT 0 a)
  let idle (d : Dev) : Dev := d.wrP p .LPE_AX_STAT_SAT 0 a
  if sto then command p a len 0 0 (zeroInteg p a (idle (d1.wrP p .LPE_AX_STAT_STALE_CNT 0 a)))
  else
    let d2 := staleStep p a (stale || rep) (spEmpty || srcs.1.any (fun e => e.2.never)) vSp0 d1
    if rep then sameCommand p a d2
    else if never then command p a len 0 0 (zeroInteg p a (idle d2))
    else
      let f (v : Option Int) (t : Int) : Int := if fol then t else v.getD 0
      (if x.ffOnly then ffCommand else closeLoops) p a len srcs.1 pSp vSp0 (f x.pFb pSp) (f x.vFb vSp0)
        (if fol then none else x.force) d2

/-- Counts of LPE_STATUS after a cycle. -/
def lpeStatus (p : Plane) (d : Dev) : Dev :=
  let cnt (f : Fld) : Nat := (d.loopAxes.filter (fun a => d.rdP p f a == 1)).length
  (d.wrP p .LPE_STATUS_NFAULT (cnt .LPE_AX_STAT_FAULT)).wrP p .LPE_STATUS_NSTALE (cnt .LPE_AX_STAT_STALE)

/-- What the ring and the pulse inputs deliver at a φ2, selected by a loop or not: the last values of R186. -/
def takeInputs (p : Plane) (d : Dev) : Dev :=
  let d1 := d.updPl p (fun x => { x with
    lpe := { x.lpe with pi := [0, 1].foldl (fun t c => if d.fbBad (16 + c) then t else t.set c true) x.lpe.pi } })
  forL d1.loopAxes (fun a d => d.updLax p a (fun x => { x with
    ring := (d.loopSec a).ringLoops.foldl (fun t i =>
      let w := d.field.word.get (a * 4 + i)
      if w.fresh then t.set i (some (w.pos, w.vel)) else t) x.ring })) d1

/-- φ2 of a plane: inputs, filters, then every enabled axis but those that will not be finished (R41, R168). In HOLD the engine computes in
every H-th cycle only (R496). -/
def loopCycle (p : Plane) (left : List Nat) (d : Dev) : Dev :=
  let d1 := forN 4 (aiFilter p) (takeInputs p d)
  let h := max 1 (32 / d.rd .SYS_CYCLE_K)
  if d.rd .SYS_LADDER_STATE = 1 && d.rd .SYS_CYCNT % h ≠ 0 then
    forL d.loopAxes (fun a d => d.wrP p .LPE_AX_STAT_REPEAT 0 a) d1
  else lpeStatus p (forL (d1.loopAxes.filter (fun a => !left.contains a)) (loopAxis p false) d1)

/-- An axis whose loop output was not ready at the φ3 start: its command is repeated and counts as stale (R41, R186); a stepper
goes on at that speed (R179). -/
def repeatCommand (p : Plane) (a : Nat) (d : Dev) : Dev := loopAxis p true a d

/-! ### Commands and boundary -/

/-- LOOP_CLEAR with its STATUS (R190): `v_sp` has been 0 for a full cycle once two φ2 in a row found it 0. -/
def loopClear (a : Nat) (d : Dev) : Dev × Nat × Nat :=
  let p := d.active
  if (d.lax p a).zeroFor < 2 then (d, Code.CLEAR_MOVING.num, 0)
  else if d.rdP p .LPE_AX_STAT_STALE_CNT a ≠ 0 then (d, Code.CLEAR_STALE.num, 0)
  else (bothPlanes (fun q d => d.updLax q a (fun x => { x with clearPend := true })) d, 0, 0)

/-- At the boundary an accepted LOOP_CLEAR clears the axis fault, and an accepted AXIS_SETPOS moves the coordinate of the
loop: p_cmd, COMMAND feedback and the constant of an encoder (R111, R190). -/
def loopBoundary (p : Plane) (a : Nat) (d : Dev) : Dev :=
  let d1 := if (d.lax p a).clearPend then
      zeroInteg p a (((d.updLax p a (fun x => { x with
        clearPend := false, ffOnly := false, ramp := none, fbNew := true })).wrP p .LPE_AX_STAT_FAULT 0 a).wrP
        p .LPE_AX_STAT_FOLLOW 0 a)
    else d
  match (d1.aux p a).setPos with
  | none => d1
  | some pos =>
    (d1.updLax p a (fun x => { x with
      pCmd := pos, ofs := 0, pSp := pos
      encOfs := match x.pFb with
        | some q => if d.rdP p .LPE_AX_CFG_FBSRC a = 2 then x.encOfs else x.encOfs + (pos - q)
        | none => x.encOfs
      pFb := x.pFb.map (fun _ => pos) })).updAux p a (fun y => { y with setPos := none })

/-! ### Staged sets of the LPE block (R192) -/

/-- SRC values that a loop permits (R167, R175). -/
def srcAllowed (web : Bool) (i src : Nat) : Bool :=
  if i = 0 then src == 0 || (web && (src == 2 || src == 3 || src == 4)) else src == 1 || src == 2 || src == 4

/-- The staged set of one axis is refused (R192), enabled or not: 0 stands for no value in an axis without Pattern values. -/
def lpeAxisBad (p : Plane) (d : Dev) (a : Nat) : Bool :=
  let st (f : Fld) : Nat := d.staged f p a 0
  let en := d.loopAxes.contains a
  let zero (f : Fld) : Bool := st f == 0 && (en || d.inStaging f p a 0)
  decide (signed 32 (st .LPE_AX_VMAX) < signed 32 (st .LPE_AX_VMIN)) ||
  zero .LPE_AX_GDEN || decide (0x8000 < st .LPE_AX_KAW) || decide (0x8000 < st .LPE_AX_FF_KVFF) ||
  decide (0x8000 < st .LPE_AX_FF_KTFF) || zero .LPE_AX_FEMAX || zero .LPE_AX_CFG_STALE_MAX ||
  (List.range 4).any (fun i =>
    let src := d.staged .LPE_LP_CTL_SRC p a i
    ((en && (d.loopsOf p a).contains i) || d.inStaging .LPE_LP_CTL_SRC p a i) &&
    (!srcAllowed (d.rdP p .LPE_AX_CFG_CLASS a == 1) i src ||
    (src == 3 && decide (2 ≤ d.staged .LPE_LP_CTL_CH p a i)) ||
    (src == 4 && !(d.loopSec a).ringLoops.contains i)))

/-- The first item that APPLY refuses: the axis, 128 + c for AIc. -/
def lpeRefused (p : Plane) (d : Dev) : Option Nat :=
  let st (f : Fld) (i : Nat) : Nat := d.staged f p i 0
  match (List.range 128).find? (lpeAxisBad p d) with
  | some a => some a
  | none => ((List.range 4).find? (fun c => st .LPE_AI_FILT c == 0 || decide (0x8000 < st .LPE_AI_FILT c))).map (· + 128)

/-- What becoming live means beside the fields: a new ratio re-bases the gearing (R183), a new SRC or CH of a position loop
the set-point offset (R184). -/
def lpeLive (p : Plane) (old new : Dev) : Dev :=
  forL new.loopAxes (fun a d =>
    let g := old.rdP p .LPE_AX_GNUM a != new.rdP p .LPE_AX_GNUM a || old.rdP p .LPE_AX_GDEN a != new.rdP p .LPE_AX_GDEN a
    let s := old.lp p .LPE_LP_CTL_SRC a 0 != new.lp p .LPE_LP_CTL_SRC a 0 ||
      old.lp p .LPE_LP_CTL_CH a 0 != new.lp p .LPE_LP_CTL_CH a 0
    d.updLax p a (fun x => { x with
      gNew := x.gNew || g, srcNew := x.srcNew || s, gPrev := if s then none else x.gPrev })) new

end Sys2Proof.Machine
end

