-- ==== Sys2Proof/Machine/Crc.lean ====
section
/-! DEFINITION. Checksums over bytes and little-endian fields of frames (09_separation.md R259). -/

namespace Sys2Proof.Machine

/-- The `w` low bits of a number in reverse order. -/
def bitRev : Nat → Nat → Nat
  | 0, _ => 0
  | w + 1, n => (n % 2) * 2 ^ w + bitRev w (n / 2)

/-- Shifts of a reflected CRC register. -/
def crcShift (poly : Nat) : Nat → Nat → Nat
  | 0, r => r
  | k + 1, r => crcShift poly k (if r % 2 = 1 then Nat.xor (r / 2) poly else r / 2)

/-- A reflected CRC over bytes from a register value, least significant bit first. -/
def crcRun (poly : Nat) (bytes : List Nat) (reg : Nat) : Nat :=
  bytes.foldl (fun r b => crcShift poly 8 (Nat.xor r (b % 256))) reg

/-- The CRC-32 of IEEE 802.3 with the initial value given unreflected, as R259 states it. -/
def crc32 (init : Nat) (bytes : List Nat) : Nat :=
  Nat.xor (crcRun 0xEDB88320 bytes (bitRev 32 init)) 0xFFFFFFFF

/-- Shifts of an unreflected CRC-16 register with polynomial 0x1021. -/
def crc16Shift : Nat → Nat → Nat
  | 0, r => r
  | k + 1, r => crc16Shift k (if 0x8000 ≤ r then Nat.xor (r * 2 % 65536) 0x1021 else r * 2)

/-- The CRC-16 of a frame header: polynomial 0x1021, initial value 0xFFFF, no reflection, no final XOR (R339). -/
def crc16 (bytes : List Nat) : Nat := bytes.foldl (fun r b => crc16Shift 8 (Nat.xor r (b % 256 * 256))) 0xFFFF

/-- A number as `n` bytes, least significant first. -/
def leBytes (n v : Nat) : List Nat := (List.range n).map (fun i => v / 256 ^ i % 256)

/-- A T96 as its 12 bytes (R6). -/
def t96Le (t : T96) : List Nat := leBytes 2 (t % 65536) ++ leBytes 4 (t / 65536 % 1000000000) ++ leBytes 6 (t / secUnit)

/-- `n` bytes from offset `i` as a little-endian number. -/
def le (bytes : List Nat) (i : Nat) : Nat → Nat
  | 0 => 0
  | n + 1 => bytes.getD i 0 % 256 + 256 * le bytes (i + 1) n

/-- `n` bytes from offset `i` as a signed little-endian number. -/
def leInt (bytes : List Nat) (i n : Nat) : Int := signed (8 * n) (le bytes i n)

/-- A T96 of 12 bytes in units of 2^-16 ns (R6). -/
def leT96 (bytes : List Nat) (i : Nat) : T96 :=
  le bytes (i + 6) 6 * secUnit + le bytes (i + 2) 4 % 2 ^ 30 * 65536 + le bytes i 2

/-- The bytes from `i` to `j - 1` are 0. -/
def zeroBytes (bytes : List Nat) (i j : Nat) : Bool := (List.range (j - i)).all (fun k => bytes.getD (i + k) 0 % 256 == 0)

end Sys2Proof.Machine
end

