-- ==== Sys2Proof/Machine/SafIo.lean ====
section
/-! DEFINITION. The safety plane's inputs, outputs and degraded mode (08_safety_plane.md R221 to R235, R244 to R250). Filter,
window and timer lengths are what the event rows assert, so that an event changes state only where its state allows it. -/

namespace Sys2Proof.Machine

/-! ### Channels and units -/

/-- A safety channel's state. -/
def Dev.ch (d : Dev) : Chan → ChanSt
  | .a => d.saf.a
  | .b => d.saf.b

/-- Passes the safety plane through `f`. -/
def Dev.updSaf (d : Dev) (f : SafSt → SafSt) : Dev := { d with saf := f d.saf }

/-- Passes a channel through `f`. -/
def Dev.updCh (d : Dev) (c : Chan) (f : ChanSt → ChanSt) : Dev :=
  match c with
  | .a => d.updSaf (fun x => { x with a := f x.a })
  | .b => d.updSaf (fun x => { x with b := f x.b })

/-- The channels that compute (R225). -/
def Dev.chans (d : Dev) : List Chan := [Chan.a, Chan.b].filter (fun c => (d.ch c).ok)

/-- Applies a change for both channels, or for the live ones. -/
def bothChans (f : Chan → Dev → Dev) (d : Dev) : Dev := forL d.chans f d

/-- The writer of a code that both channels find: A while it computes, else B (log entry 10). -/
def Dev.safWriter (d : Dev) : Nat := if d.saf.a.ok then wSafA else wSafB

/-- Units: 0 to 7 are arms, 8 + g is auxiliary group g. -/
def safUnits : List Nat := List.range 24

/-- The safety values of a unit. -/
def Dev.unitSec (d : Dev) (u : Nat) : SafUnit := (Sparse.find d.pat.safety.units u).getD {}

/-- The axes of a unit. -/
def Dev.unitAxes (d : Dev) (u : Nat) : List Nat := if u < 8 then d.armAxes u else d.groupAxes (u - 8)

/-- Passes a unit of a channel through `f`. -/
def Dev.updUnit (d : Dev) (c : Chan) (u : Nat) (f : UnitSt → UnitSt) : Dev :=
  d.updCh c (fun x => { x with units := x.units.upd u f })

/-- A demand as its source files it. -/
def act (src : SafSrc) (func : SafFunc) (manual active : Bool) : SafAct := { src, func, manual, active }

/-- Files a demand of a unit: one entry per source and function. It is new but where it goes on (R250). -/
def addAct (a : SafAct) (l : List SafAct) : List SafAct :=
  match l with
  | [] => [{ a with new := true }]
  | x :: t =>
    if x.src = a.src && x.func = a.func then
      { x with active := a.active, manual := x.manual || a.manual, new := x.new || !x.active || !a.active } :: t
    else x :: addAct a t

/-- Ends a source's demand: its entries stay until they are released (R249). -/
def endAct (s : SafSrc) (l : List SafAct) : List SafAct := l.map (fun x => if x.src = s then { x with active := false } else x)

/-! ### What the registers show (R222) -/

/-- STATE of a unit in a channel: 0 RUN, 1 LIMITED, 2 STOPPING, 3 SOS, 4 STO. -/
def UnitSt.state (x : UnitSt) : Nat :=
  if x.sto then 4 else if x.stop.isSome then 2 else if x.sos.isSome then 3 else if x.func = 0 then 0 else 1

/-- Order of states by restriction: STO, then stops, then SOS, then limits (R237). -/
def stateRank (s : Nat) : Nat := if s = 2 then 3 else if s = 3 then 2 else s

/-- Of two stops what both ask for: an SS1 before an SS2, and the ramps of both (R222, R237). -/
def StopMon.both (x y : StopMon) : StopMon :=
  { (if y.ss1 && !x.ss1 then y else x) with quick := x.quick || y.quick, prog := x.prog || y.prog }

/-- Of two channels' values of a unit the more restrictive ones (R222). -/
def UnitSt.stricter (x y : UnitSt) : UnitSt :=
  let w := if stateRank x.state < stateRank y.state || (x.state = y.state && y.scale < x.scale) then y else x
  { w with
    stop := match x.stop, y.stop with
      | some m, some n => w.stop.map (fun _ => m.both n)
      | _, _ => w.stop
    func := if x.stop.isSome && y.stop.isSome then max x.func y.func else w.func
    scale := min x.scale y.scale, vmon := max x.vmon y.vmon }

/-- The value of a unit that governs; a unit without any channel is in STO (R222). -/
def Dev.governing (d : Dev) (u : Nat) : UnitSt :=
  match d.chans.map (fun c => (d.ch c).units.get u) with
  | [] => { sto := true, func := 6, scale := 0 }
  | x :: t => t.foldl UnitSt.stricter x

/-- A demand that keeps a restart out while it lasts: that of a source bound to the unit. A request of SAF_REQ, SAF_GREQ or
SAF_GREQ2 is no binding, and the end of the degraded time has no source (R236, R249). -/
def SafAct.binds (a : SafAct) : Bool := a.active && a.src != .host && a.src != .expired

/-- Every bound demand of a unit has ended and one needs a restart request (R249). -/
def UnitSt.waits (x : UnitSt) : Bool := !x.acts.any (·.binds) && x.acts.any (fun a => a.manual && !a.active)

/-- Shows a unit in its registers; a change of state raises source 288 or 289, and host vector 3 for an arm (R252, R513). -/
def showUnit (u : Nat) (d : Dev) : Dev :=
  let x := d.governing u
  let quick := (x.stop.map (·.quick)).getD false
  if u < 8 then
    let old := d.rd .SAF_ARM_STAT_STATE u
    let d1 := (((((d.wr .SAF_ARM_STAT_STATE x.state u).wr .SAF_ARM_STAT_FUNC x.func u).wr .SAF_ARM_STAT_RAMP_QS (b2n quick)
      u).wr .SAF_ARM_STAT_RESTART_WAIT (b2n x.waits) u).wr .SAF_ARM_STAT_SCALE x.scale u).wr
      .SAF_ARM_VMON (unsigned 32 (fitS 32 x.vmon)) u
    if old = x.state then d1 else hostVector 3 (icuBoth 288 d1)
  else
    let g := u - 8
    let old := d.rd .SAF_GRP_STAT_STATE g
    let d1 := ((((d.wr .SAF_GRP_STAT_STATE x.state g).wr .SAF_GRP_STAT_FUNC x.func g).wr .SAF_GRP_STAT_RAMP_QS (b2n quick)
      g).wr .SAF_GRP_STAT_RESTART_WAIT (b2n x.waits) g).wr .SAF_GRP_STAT_SCALE x.scale g
    if old = x.state then d1 else icuBoth 289 d1

/-- MODE of the safety plane, in SAF_STATE and in SYS_STATE. -/
def setSafMode (m : Nat) (d : Dev) : Dev :=
  if d.rd .SAF_STATE_MODE = m then d else hostVector 3 ((d.wr .SAF_STATE_MODE m).wr .SYS_STATE_SAF_MODE m)

/-! ### Demands -/

/-- Files a demand of units in both live channels, which act on it from their next decision. -/
def demand (us : List Nat) (a : SafAct) (d : Dev) : Dev :=
  bothChans (fun c d => forL us (fun u d => d.updUnit c u (fun x => { x with acts := addAct a x.acts })) d) d

/-- STO of units at once (R221, R231): the demand is filed and torque is removed. -/
def stoNow (us : List Nat) (s : SafSrc) (active : Bool) (d : Dev) : Dev :=
  let d1 := bothChans (fun c d => forL us (fun u d => d.updUnit c u (fun x => { x with
    acts := addAct (act s .sto true active) x.acts, sto := true, stop := none, sos := none, lim := none, func := 6
    scale := 0 })) d) d
  forL us showUnit d1

/-- A source stops demanding, in every unit. -/
def endSource (s : SafSrc) (d : Dev) : Dev :=
  bothChans (fun c d => forL safUnits (fun u d => d.updUnit c u (fun x => { x with acts := endAct s x.acts })) d) d

/-! ### Outputs (R230, R231) -/

/-- Switches an output off. -/
def outOff (n : Nat) (d : Dev) : Dev :=
  (d.wr .SAF_SO_ON (setBit (d.rd .SAF_SO_ON) n false)).updSaf (fun x => { x with
    edJudged := x.edJudged.filter (fun e => Sparse.find d.pat.safety.edOut e != some n) })

/-- Every output off. -/
def outsOff (d : Dev) : Dev := forN 8 outOff d

/-- The units that an output serves. -/
def Dev.unitsOfOut (d : Dev) (n : Nat) : List Nat := (Sparse.find d.pat.safety.outUnits n).getD []

/-- The ED inputs that monitor an output (R232). -/
def Dev.edsOfOut (d : Dev) (n : Nat) : List Nat := (d.pat.safety.edOut.filter (fun e => e.2 == n)).map (·.1)

/-- An output fault: each code once while the fault lasts, FLT, output off, STO of its units, locked until the fault has gone (R231). -/
def outFault (n : Nat) (c : Code) (d : Dev) : Dev :=
  let d0 := d.wr .SAF_SO_FLT (setBit (d.rd .SAF_SO_FLT) n true)
  let d1 := if d.saf.soCodes.contains (n, c.num) then d0
    else raiseSaf c wField [n] (d0.updSaf (fun x => { x with soCodes := (n, c.num) :: x.soCodes }))
  stoNow (d.unitsOfOut n) (.output n) true (outOff n (d1.updSaf (fun x => { x with soAbsent := x.soAbsent.set n 0 })))

/-- Output `m` sees the test pulse of output `n` in its read-back: both off and STO for the units of both, with one code (R231). -/
def soCross (n m : Nat) (d : Dev) : Dev := stoNow (d.unitsOfOut n) (.output m) true (outOff n (outFault m .SO_CROSS d))

/-- The test pulse of an output that is on: its own read-back, and outputs that see the pulse in theirs (R231). -/
def soTestPulse (n : Nat) (high : Bool) (cross : List Nat) (d : Dev) : Dev :=
  if !bit (d.rd .SAF_SO_ON) n then d
  else
    let d1 := if high then outFault n .SO_SHORT_HI d else d
    forL (cross.filter (fun m => m != n && decide (m < 8))) (soCross n) d1

/-- A fault of an output outside a test pulse (R231): while it is on, its current limit is reached, which leaves its read-back high, or the
read-back is low; while it is off, the read-back is high. -/
def soReadback (n : Nat) (high : Bool) (d : Dev) : Dev :=
  let rb := d.wr .SAF_SO_RB (setBit (d.rd .SAF_SO_RB) n high)
  if bit (d.rd .SAF_SO_ON) n then outFault n .SO_SHORT_LO rb
  else if high then outFault n .SO_SHORT_HI rb else rb

/-- VFIELD left its range for 1 ms: every output off and STO everywhere (R231, R545). -/
def vfieldBad (c : Code) (d : Dev) : Dev :=
  stoNow safUnits .vfield true (outsOff ((raiseSaf c wField [] d).updSaf (fun x => { x with vfieldBad := true })))

/-- VFIELD is back in its range: the demand ends; restart follows R249. -/
def vfieldBack (d : Dev) : Dev := endSource .vfield (d.updSaf (fun x => { x with vfieldBad := false }))

/-! ### Degraded mode (R244 to R248) -/

/-- A solver matrix is at MAX_SHIFT in the active plane (R138). -/
def Dev.anyStarved (d : Dev) : Bool := (d.pl d.active).slv.mats.cells.any (fun e => e.2.starved)

/-- The condition of a degraded-mode cause holds now (R244, R246). -/
def Dev.causeHolds (d : Dev) (b : Nat) : Bool :=
  match b with
  | 0 => true
  | 1 => decide (d.saf.missRun ≠ 0)
  | 2 => d.chans.any (fun c => (d.ch c).sens.cells.any (fun e => e.2.cond == .stale))
  | 3 => !(d.rd .RED_ROLE_A_STATE == 0 && d.rd .RED_ROLE_B_STATE == 0)
  | 4 => d.red.taste.on
  | 5 => d.pwr.paceFault
  | 6 => d.rd .SAF_ED_IMPL != 0
  | 7 => d.anyStarved
  | _ => !d.cyc.left.isEmpty

/-- A second fault: SS1 of everything, or STO where no plane can plan or no channel can monitor (R248). -/
def secondFault (b : Nat) (d : Dev) : Dev :=
  let d1 := raiseSaf .SECOND_FAULT d.safWriter [b] d
  if d.saf.planesGone || d.chans.isEmpty then stoNow safUnits .second false d1
  else demand safUnits (act .second .ss1 true false) d1

/-- A degraded-mode cause arises: it enters degraded mode, or it is a second fault (R244, R248). -/
def degrCause (b : Nat) (d : Dev) : Dev :=
  let cause := d.rd .SAF_DEGR_CAUSE
  let d1 := d.wr .SAF_DEGR_CAUSE (setBit cause b true)
  if bit cause b then d
  else
    match d.rd .SAF_STATE_MODE with
    | 0 => raiseSaf .DEGR_ENTER d.safWriter [b] ((setSafMode 1 d1).wr .SAF_DEGR_REMAIN (d.pat.safety.degrT * 1000))
    | 1 => secondFault b d1
    | _ => d1

/-- Removes causes; without any, degraded mode ends (R246). -/
def dropCauses (which : Nat → Bool) (d : Dev) : Dev :=
  let old := d.rd .SAF_DEGR_CAUSE
  let new := (List.range 9).foldl (fun n b => if which b && bit n b && !d.causeHolds b then setBit n b false else n) old
  let d1 := ((d.wr .SAF_DEGR_CAUSE new).wr .RED_ROLE_UNRES (b2n (bit new 4))).updSaf (fun x =>
    { x with staleSens := if bit new 2 then x.staleSens else [] })
  if old ≠ 0 && new = 0 && d.rd .SAF_STATE_MODE = 1 then
    endSource .expired (raiseSaf .DEGR_LEAVE d.safWriter [] (((setSafMode 0 d1).wr .SAF_DEGR_REMAIN 0).updSaf (fun x =>
      { x with expired := false })))
  else d1

/-- Causes that clear by themselves (R244). -/
def autoCause (b : Nat) : Bool := b == 2 || b == 3 || b == 5

/-- Causes that clear with a restart request. -/
def latchingCause (b : Nat) : Bool := b == 1 || b == 4 || b == 6 || b == 7 || b == 8

/-- Automatic cause `b` has been absent for 1 s (R246). -/
def degrLeave (b : Nat) (d : Dev) : Dev :=
  if d.rd .SAF_STATE_MODE = 1 then dropCauses (fun x => x == b && autoCause x) d else d

/-- The degraded time ran out with a cause active: SS1 of everything (R247). The demand lasts while some cause's condition
holds (log entry 11). -/
def degrExpired (d : Dev) : Dev :=
  if d.rd .SAF_STATE_MODE ≠ 1 || d.rd .SAF_DEGR_CAUSE = 0 || d.rd .SAF_DEGR_REMAIN ≠ 0 || d.saf.expired then d
  else demand safUnits (act .expired .ss1 true true) (raiseSaf .DEGR_EXPIRED d.safWriter [] (d.updSaf (fun x =>
    { x with expired := true })))

/-! ### Channels lost (R223 to R225) -/

/-- No channel can monitor: every output off, STO everywhere, MODE STOPPED (R224). -/
def stopAll (s : SafSrc) (d : Dev) : Dev := stoNow safUnits s true (outsOff d)

/-- A channel is lost: the hand-over path engages (R224, R225). -/
def loseChan (c : Chan) (d : Dev) : Dev :=
  let d0 := d.updSaf (fun x => { x with missRun := 0 })
  let d1 := (d0.updCh c (fun x => { x with ok := false })).wr (if c = .a then .SAF_STATE_CHA_OK else .SAF_STATE_CHB_OK) 0
  degrCause 0 (hostVector 3 (raiseSaf .CH_LOST d1.safWriter [if c = .a then 0 else 1] (d1.wr .SAF_STATE_HANDOVER 1)))

/-- The self-tests after a discrepancy complete (R224). -/
def selftestDone (okA okB : Bool) (d : Dev) : Dev :=
  if !d.saf.selftest then d
  else
    let d1 := d.updSaf (fun x => { x with selftest := false })
    if okA && okB then degrCause 1 d1
    else if okA then loseChan .b d1
    else if okB then loseChan .a d1
    else setSafMode 2 (stopAll .selftest d1)

/-- The hand-over timer opens the path: every output off and STO everywhere (R225). -/
def handoverTimeout (d : Dev) : Dev :=
  if d.rd .SAF_STATE_HANDOVER = 0 then d
  else hostVector 3 ((stopAll .handover (d.updSaf (fun x => { x with handoverOpen := true }))).wr .SAF_STATE_HANDOVER 0)

/-! ### Safety inputs (R226 to R229) -/

/-- Whether input `n` of a channel shows its demand level: low, or high for the odd input of an ANTIV pair. -/
def Dev.inDemand (d : Dev) (c : Chan) (n : Nat) : Bool :=
  if d.pat.safety.antiv.contains (n / 2) && n % 2 = 1 then bit (d.ch c).lvl n else !bit (d.ch c).lvl n

/-- Whether pair `i` demands in a channel: a demand level, R228, or a faulty TP that feeds it (R226, R229). -/
def Dev.pairDemand (d : Dev) (c : Chan) (i : Nat) : Bool :=
  d.inDemand c (2 * i) || d.inDemand c (2 * i + 1) || bit (d.ch c).disc i ||
  [2 * i, 2 * i + 1].any (fun n =>
    match Sparse.find d.pat.safety.tpOf n with
    | some k => d.saf.tpBad.contains k
    | none => false)

/-- Shows the inputs: levels as channel B sees them, demands and latches of either channel. -/
def showSi (d : Dev) : Dev :=
  let bits (f : Nat → Bool) : Nat := (List.range 8).foldl (fun n i => setBit n i (f i)) 0
  ((d.wr .SAF_SI_LEVEL d.saf.b.lvl).wr .SAF_SI_DEMAND (bits (fun i => d.chans.any (fun c => d.pairDemand c i)))).wr
    .SAF_SI_DISC (bits (fun i => d.chans.any (fun c => bit (d.ch c).disc i)))

/-- The progress of a latched pair: both at the demand level together, then both not (R228). -/
def pairProgress (c : Chan) (i : Nat) (d : Dev) : Dev :=
  let e := d.inDemand c (2 * i)
  let o := d.inDemand c (2 * i + 1)
  if !bit (d.ch c).disc i then d
  else if e && o then d.updCh c (fun x => { x with discSeen := setBit x.discSeen i true })
  else if !e && !o && bit (d.ch c).discSeen i then
    d.updCh c (fun x => { x with disc := setBit x.disc i false, discSeen := setBit x.discSeen i false })
  else d

/-- A pair latches in a channel (R228). -/
def pairLatch (i : Nat) (c : Chan) (d : Dev) : Dev :=
  d.updCh c (fun x => { x with disc := setBit x.disc i true, discSeen := setBit x.discSeen i false })

/-- A safety input changes level, as each channel's comparator reads it; its filter starts (R227). -/
def siEdge (n : Nat) (hiA hiB : Bool) (d : Dev) : Dev :=
  (d.updCh .a (fun x => { x with raw := setBit x.raw n hiA })).updCh .b (fun x => { x with raw := setBit x.raw n hiB })

/-- A level has lasted FILT_SI and counts (R227). -/
def siFilter (n : Nat) (d : Dev) : Dev :=
  showSi (bothChans (fun c d => pairProgress c (n / 2) (d.updCh c (fun x => { x with
    lvl := setBit x.lvl n (bit x.raw n) }))) (d.updSaf (fun x => { x with missTp := x.missTp.set n 0 })))

/-- A pair did not agree within DISC_T (R228). -/
def pairDiscrep (i : Nat) (d : Dev) : Dev :=
  let cs := d.chans.filter (fun c => d.inDemand c (2 * i) != d.inDemand c (2 * i + 1))
  if cs.isEmpty then d else showSi (forL cs (pairLatch i) (raiseSaf .PAIR_DISCREP d.safWriter [i] d))

/-- One input at a pulse of TP `k`: it sees a foreign pulse, or has seen none at all when it misses its own for the second time. Its pair
latches at every such pulse, and the code is raised when the condition begins (R229). R229 gives the time of the observation and no count of
foreign pulses: the first one seen makes SI_CROSS (DESIGN CHOICE, log entry 191). -/
def tpInput (k seen n : Nat) (d : Dev) : Dev :=
  let high := d.chans.any (fun c => bit (d.ch c).lvl n)
  let sees := bit seen n
  let old := d.saf.foreign.contains (n, k)
  match Sparse.find d.pat.safety.tpOf n with
  | none => d
  | some own =>
    if !high then d
    else
      let miss := if sees then 0 else if own = k then d.saf.missTp.get n + 1 else d.saf.missTp.get n
      let cross := sees && own != k
      let d1 := d.updSaf (fun x => { x with
        missTp := x.missTp.set n miss
        foreign := if cross && !old then (n, k) :: x.foreign else if cross then x.foreign else x.foreign.filter (· != (n, k)) })
      if cross then bothChans (pairLatch (n / 2)) (if old then d1 else raiseSaf .SI_CROSS wField [n, k] d1)
      else if own = k && 2 ≤ miss then bothChans (pairLatch (n / 2)) (if miss = 2 then raiseSaf .SI_SHORT_HI wField [n] d1 else d1)
      else d1

/-- A test-pulse output drops: the inputs that see the pulse, and its own read-back (R229). -/
def testPulse (k seen : Nat) (rbBad : Bool) (d : Dev) : Dev :=
  let bad := d.saf.tpBad.contains k
  let d1 := if rbBad && !bad then
      raiseSaf .TP_FAULT wField [k] (d.updSaf (fun x => { x with tpBad := k :: x.tpBad }))
    else if !rbBad && bad then d.updSaf (fun x => { x with tpBad := x.tpBad.filter (· != k) })
    else d
  showSi (forN 16 (tpInput k seen) d1)

/-! ### Contactor feedback (R232 to R235) -/

/-- The channels read an ED input as dropped; both must (R222). -/
def Dev.edDropped (d : Dev) (e : Nat) : Bool := d.chans.all (fun c => bit (d.ch c).ed e)

/-- An ED input has read dropped for at least 10 ms, in every live channel: at 41 latches in a row, which span 40 safety cycles (R233). -/
def Dev.edSettled (d : Dev) (e : Nat) : Bool := d.chans.all (fun c => decide (41 ≤ (d.ch c).edCnt.get e))

/-- The contactor of an output is plausible: no implausible and no locked ED monitors it (R235). -/
def Dev.edPlausible (d : Dev) (n : Nat) : Bool :=
  !(d.edsOfOut n).isEmpty && (d.edsOfOut n).all (fun e => !bit (d.rd .SAF_ED_IMPL) e && !bit (d.rd .SAF_ED_LOCK) e)

/-- An ED input is implausible (R235): degraded mode, or STO of the path where no plausible contactor remains. -/
def edImplausible (e : Nat) (d : Dev) : Dev :=
  if bit (d.rd .SAF_ED_IMPL) e then d
  else
    let d1 := raiseSaf .EDM_IMPLAUS d.safWriter [e] (d.wr .SAF_ED_IMPL (setBit (d.rd .SAF_ED_IMPL) e true))
    match Sparse.find d.pat.safety.edOut e with
    | none => d1
    | some o =>
      let path := (d.pat.safety.series.find? (fun l => l.contains o)).getD [o]
      if path.any (fun n => n != o && d1.edPlausible n) then degrCause 6 d1
      else stoNow (path.flatMap d.unitsOfOut) .edPath false (forL path outOff d1)

/-- A contactor that did not drop: lockout of every unit its output serves, until a reset (R234). -/
def edLock (e : Nat) (d : Dev) : Dev :=
  let d1 := raiseSaf .EDM_DROP d.safWriter [e] (hostVector 3 ((d.wr .SAF_ED_LOCK (setBit (d.rd .SAF_ED_LOCK) e true)).wr
    .SAF_STATE_LOCKOUT 1))
  match Sparse.find d.pat.safety.edOut e with
  | none => d1
  | some o => stoNow (d.unitsOfOut o) (.lock e) true (d1.updSaf (fun x => { x with edUnits := Sparse.put x.edUnits e (d.unitsOfOut o) }))

/-- ED_WIN after a switch of the output: the feedback is judged (R233 to R235). -/
def edmWindow (e : Nat) (dropped : Bool) (d : Dev) : Dev :=
  match Sparse.find d.pat.safety.edOut e with
  | none => d
  | some o =>
    if bit (d.rd .SAF_SO_ON) o then
      let d1 := d.updSaf (fun x => { x with edJudged := e :: x.edJudged.filter (· != e) })
      if dropped then edImplausible e d1 else d1
    else if dropped || bit (d.rd .SAF_ED_LOCK) e then d
    else edLock e d

/-- A restart of unit `u` is possible (R249): its sources have ended, no lockout, one that an earlier Pattern's binding of the ED input made
among them (R234), and no fault holds its outputs, their ED inputs
have read dropped (asked of a unit in STO only: log entry 12), no sensor is unseen for an arm (R266), toile is off (R68), start-up has
reached SEWN (R64, R67, R72), and every node that serves it is admitted (R376). -/
def Dev.releasable (d : Dev) (u : Nat) : Bool :=
  let outs := (List.range 8).filter (fun n => (d.unitsOfOut n).contains u)
  d.rd .SYS_STATE_STAGE == 8 && !d.saf.vfieldBad && !d.chans.isEmpty && d.rd .PAT_STATUS_TOILE == 0 && d.saf.missRun == 0 &&
  d.chans.all (fun c => !((d.ch c).units.get u).acts.any (·.binds)) && d.saf.edUnits.all (fun e => !e.2.contains u) &&
  outs.all (fun n => !bit (d.rd .SAF_SO_FLT) n && (d.edsOfOut n).all (fun e => !bit (d.rd .SAF_ED_LOCK) e &&
    (d.edSettled e || !(d.governing u).sto))) &&
  (decide (8 ≤ u) || d.pat.safety.sensors.all (fun e => d.chans.all (fun c => ((d.ch c).sens.get e.1).cond != .unseen))) &&
  d.pat.ring.all (fun e => e.2.nodes.all (fun n =>
    !n.2.units.contains u || ((d.ring.ports.get e.1).nodes.get n.1).state == 3))

/-- A falling edge of RESET_SI after a valid high period (R249): every live channel must see it. The units whose conditions
hold wait for the next decision, where a new demand wins; for the others the request is discarded (R250). -/
def restartRequest (seenA seenB : Bool) (d : Dev) : Dev :=
  if d.chans.isEmpty || (d.saf.a.ok && !seenA) || (d.saf.b.ok && !seenB) then d
  else d.updSaf (fun x => { x with restart := safUnits.filter d.releasable })

end Sys2Proof.Machine
end

