-- ==== Sys2Proof/Machine/Ssm.lean ====
section
/-! DEFINITION. Speed and separation monitoring (09_separation.md): person sets, separations, protective distances and
permitted speed, as each safety channel computes them. -/

namespace Sys2Proof.Machine

/-! ### Person sub-frames (R258 to R261) -/

/-- What a channel makes of a part: accepted, a duplicate without effect, or the number of the failed check in the order of
R260 (1 CRC, 2 type and sensor, 3 counts, 4 capsules, 5 age, 6 SEQ). -/
inductive PartVerdict where
  | accept | duplicate
  | reject (check : Nat)
  deriving DecidableEq, Repr

/-- Capsule `i` of a person sub-frame. -/
def perCapAt (bytes : List Nat) (i : Nat) : PerCap :=
  let o := 32 + 32 * i
  let v (k : Nat) : Int := leInt bytes (o + 4 * k) 4
  { cap := { p0 := [v 0, v 1, v 2], p1 := [v 3, v 4, v 5], r := v 6 }
    track := bytes.getD (o + 28) 0 % 256, cls := bytes.getD (o + 29) 0 % 256 }

/-- The capsules of a sub-frame are well formed: radius, class, track, reserved bytes (R260). -/
def perCapOk (ver : Nat) (bytes : List Nat) (i : Nat) : Bool :=
  let c := perCapAt bytes i
  decide (0 ≤ c.cap.r) && (if ver = 2 then decide (c.cls ≤ 2) else c.cls == 0) && decide (c.track ≤ 127) &&
  zeroBytes bytes (32 + 32 * i + 30) (32 + 32 * i + 32)

/-- The checks of R260 and R261 for sensor `s` in a channel, on a part accepted in its slot at `t`. -/
def judgePart (d : Dev) (c : Chan) (s : Nat) (bytes : List Nat) (t : T96) : PartVerdict :=
  let sec := (Sparse.find d.pat.safety.sensors s).getD {}
  let x := (d.ch c).sens.get s
  let b (i : Nat) : Nat := bytes.getD i 0 % 256
  let n := b 0x15
  let crcAt := 32 + 32 * n
  let tm := leT96 bytes 8
  let seq := le bytes 4 4
  let held := match x.building.find? (fun a => a.seq == seq) with
    | some a => ((a.parts.filter (fun p => p.1 != b 3 % 4)).map (fun p => p.2.caps.length)).sum
    | none => 0
  if bytes.length ≠ crcAt + 4 || le bytes crcAt 4 ≠ crc32 (Nat.xor 0xFFFF0000 sec.node) (bytes.take crcAt) then .reject 1
  else if b 0 ≠ 0x21 || b 1 ≠ sec.ver || b 2 ≠ s || b 0x14 ≠ 0 then .reject 2
  else if b 3 % 4 > b 3 / 4 % 4 || 6 < n || sec.capMax < held + n then .reject 3
  else if 16 ≤ b 3 || 2 ≤ b 0x16 || 64 ≤ b 0x0D || !zeroBytes bytes 0x17 0x20 ||
      !(List.range n).all (perCapOk sec.ver bytes) then .reject 4
  else if t < tm || sec.tMax < t - tm then .reject 5
  else if x.cond ≠ .valid then .accept
  else if x.building.any (fun a => a.seq == seq) then .accept
  else if x.done.contains seq then .duplicate
  else if (seq + 2 ^ 32 - x.seqLast) % 2 ^ 32 ≤ 255 then .accept
  else .reject 6

/-- A set whose parts have all arrived replaces the newest one; an incomplete one waits (R261). -/
def completeSet (a : PerAsm) (t : T96) (x : SensSt) : SensSt :=
  match a.parts with
  | [] => x
  | (_, p) :: _ =>
    if a.parts.length = p.npart && a.parts.all (fun e =>
        e.2.tMeas == p.tMeas && e.2.npart == p.npart && e.2.status == p.status) then
      let set : PerSet := { seq := a.seq, tMeas := p.tMeas, ok := p.status % 2 == 1
                            caps := a.parts.flatMap (fun e => e.2.caps), acc := t }
      { x with
        older := x.newest, newest := some set, seqLast := a.seq, done := a.seq :: x.done.filter (fun y => serialLater 32 a.seq y)
        good := if set.ok then set else x.good, goodOld := if set.ok then x.good else x.goodOld }
    else { x with building := a :: x.building }

/-- A part joins the set of its SEQ, beside the incomplete sets that are newer; older ones are discarded, and any other one where a SEQ of
any value starts anew (R261). -/
def takePart (bytes : List Nat) (t : T96) (x : SensSt) : SensSt :=
  let b (i : Nat) : Nat := bytes.getD i 0 % 256
  let seq := le bytes 4 4
  let part : PerPart := { tMeas := leT96 bytes 8, npart := b 3 / 4 % 4 + 1, status := b 0x16
                          caps := (List.range (b 0x15)).map (perCapAt bytes) }
  let own := ((x.building.find? (fun a => a.seq == seq)).map (·.parts)).getD []
  let newer := if x.cond = .valid then x.building.filter (fun a => serialLater 32 a.seq seq) else []
  completeSet ⟨seq, Sparse.put own (b 3 % 4) part⟩ t { x with wasRej := false, anyAcc := true, building := newer }

/-- A person sub-frame reaches a channel (R260): acceptance, or rejection with its counter and code. -/
def personPart (c : Chan) (s : Nat) (bytes : List Nat) (t : T96) (d : Dev) : Dev :=
  if !(d.ch c).ok then d
  else
    let x := (d.ch c).sens.get s
    let set (f : SensSt → SensSt) (d : Dev) : Dev := d.updCh c (fun y => { y with sens := y.sens.upd s f })
    match judgePart d c s bytes t with
    | .accept => set (takePart bytes t) d
    | .duplicate => d
    | .reject k =>
      let d1 := set (fun y => { y with
        wasRej := true
        crcCnt := if k = 1 then satU 16 (y.crcCnt + 1) else y.crcCnt
        otherCnt := if k = 1 then y.otherCnt else satU 16 (y.otherCnt + 1) }) d
      if x.anyAcc && !x.wasRej then raiseSaf .SENSOR_REJECT (if c = .a then wSafA else wSafB) [s, k] d1 else d1

/-! ### Latching of sets (R262 to R266) -/

/-- The set a latch at `t` uses: the newest complete one accepted before it. -/
def SensSt.setAt (x : SensSt) (t : T96) : Option PerSet :=
  match x.newest with
  | some s => if s.acc < t then some s else x.older.filter (fun o => decide (o.acc < t))
  | none => none

/-- The last set with SENS_OK = 1 that a latch at `t` knows of (R264). -/
def SensSt.goodAt (x : SensSt) (t : T96) : PerSet := if x.good.acc < t then x.good else x.goodOld

/-- A sensor at a latch (R263 to R265). -/
def latchSensor (recoverN : Nat) (idle : Bool) (t : T96) (x : SensSt) : SensSt :=
  let now := x.setAt t
  let meets := !idle && now.any (fun s => s.ok && decide (t - s.acc ≤ 500000 * nsUnit))
  let run := if meets then min 64 (x.recover + 1) else 0
  let cond : SensCond :=
    if idle then .unseen
    else
      match x.cond with
      | .valid => if meets then .valid else .stale
      | .stale => if meets && decide (recoverN ≤ run) then .valid else .stale
      | .unseen => if meets && decide (recoverN ≤ run) then .valid else .unseen
  { x with
    cond := cond, recover := if x.cond == .valid && cond == .valid then x.recover else run
    latched := match cond with
      | .valid => now.getD x.latched
      | .stale => x.goodAt t
      | .unseen => now.getD x.latched }

/-- A track of a sensor with the values R270 needs: number, capsules, speed toward the arm, T_MEAS. -/
structure Track where
  sensor : Nat
  track : Nat
  caps : List Capsule
  v : Nat
  tMeas : T96
  deriving DecidableEq, Repr

/-- The tracks of a sensor's latched set, whatever its condition; obstacles form tracks of their own, and a stale sensor adds its entries
(R262, R264). -/
def tracksOf (s : Nat) (sec : SensSec) (x : SensSt) : List Track :=
  let caps := x.latched.caps
  let ids := (caps.map (fun c => (c.track, c.cls == 1))).eraseDups
  let made := ids.map (fun (k, o) =>
    ({ sensor := s, track := k, v := if o then sec.vObst else sec.vH, tMeas := x.latched.tMeas
       caps := (caps.filter (fun c => c.track == k && (c.cls == 1) == o)).map (·.cap) } : Track))
  if x.cond ≠ .stale || sec.entries.isEmpty then made
  else made ++ [{ sensor := s, track := Config.entryTrack s, caps := sec.entries, v := sec.vH, tMeas := x.latched.tMeas }]

/-! ### Separation and directed speed (R267, R268) -/

/-- The directed speed at a candidate, as V32, for the velocities of the robot segment's end points (R268). -/
def directed (k chan arm : Nat) (v : List Int × List Int) (x : Closest) : Int :=
  let n := root ((dot3 x.w x.w).toNat * 2 ^ 32)
  if n = 0 then Config.touchSpeed k chan arm
  else
    let vs := List.zipWith (fun p q => p * x.sd + x.sn * (q - p)) v.1 v.2
    max 0 (rdiv (dot3 vs x.w * 65536) (x.sd * n))

/-- Separation (D32, rounded down) and directed speed of a robot capsule and a person capsule. -/
def capPair (k chan arm : Nat) (v : List Int × List Int) (r h : Capsule) : Int × Int :=
  let cs := candidates r h
  let best := closest r h
  (capGap r h, maxOr 0 ((cs.filter (fun y => y.same best)).map (directed k chan arm v)))

/-- Separation and directed speed of a pair of R262: the least over the capsules, the greater speed on equal values. -/
def pairSep (k chan arm : Nat) (ac : ArmCaps) (t : Track) : Option (Int × Int) :=
  let all := (List.zip ac.caps ac.vels).flatMap (fun (r, v) => t.caps.map (capPair k chan arm v r))
  match all with
  | [] => none
  | x :: rest =>
    let best := rest.foldl (fun w y => if y.1 < w.1 || (y.1 = w.1 && w.2 < y.2) then y else w) x
    some (best.1 - (Config.sepSlack k chan arm % 16 : Nat), best.2)

/-! ### Protective distance and permitted speed (R270 to R272) -/

/-- The interval of a stopping table around a speed in units of 2^-22 mm/s; beyond the end the last interval. -/
def stopInterval (v22 : Nat) : List (Nat × Nat × Nat) → (Nat × Nat × Nat) × (Nat × Nat × Nat)
  | x :: y :: t => if t.isEmpty || v22 ≤ y.1 * 64 then (x, y) else stopInterval v22 (y :: t)
  | [x] => (x, x)
  | [] => ((0, 0, 0), (0, 0, 0))

/-- S_p of R270, rounded up to 1/16 mm. Times in 2^-16 ns, `vH` as V32, `vR22` and `v22` in units of 2^-22 mm/s. -/
def protective (arm : SsmArm) (fixed vH tRh vR22 tRr v22 : Nat) : Int :=
  let (x, y) := stopInterval v22 arm.table
  let dv := max 1 ((y.1 - x.1) * 64)
  let off : Int := (v22 : Int) - x.1 * 64
  let sn : Int := x.2.1 * dv + ((y.2.1 : Int) - x.2.1) * off
  let tn : Int := x.2.2 * dv + ((y.2.2 : Int) - x.2.2) * off
  let den : Int := dv * 4096 * 64 * secUnit
  let num : Int := vH * (tRh * dv + tn * 65536000) * 64 + vR22 * tRr * dv + sn * 4096 * 64 * secUnit + fixed * den
  Int.neg (-num / den)

/-- t_cyc, in 2^-16 ns (R243, R270). -/
def Dev.tCyc (d : Dev) : Nat := if d.rd .SYS_CYCLE_SYNC_PAT = 1 then d.tCell * 9 / 8 else d.tCell

/-- The fixed delays of T_rh and T_rr. -/
def Dev.ssmDelay (d : Dev) (arm : SsmArm) : Nat := (250000 + 45000) * nsUnit + d.tCyc + arm.tDrv

/-- v_mon of a unit (R238, R256): the highest end point speed of an arm's capsules, or the largest axis speed of a group. -/
def vMon (d : Dev) (c : Chan) (u : Nat) : Int :=
  if u < 8 then
    maxOr 0 (((d.ch c).caps.get u).vels.flatMap (fun v => [v.1, v.2].map (fun w => (root (dot3 w w).toNat : Int))))
  else maxOr 0 ((d.unitAxes u).map (fun a => absI ((d.ch c).pos.get a).vel))

/-- What one pair contributes at a latch: separation, S_p at the actual speeds, S_p at rest, and the largest j of R272. -/
structure PairRes where
  sep : Int
  sp : Int
  sp0 : Int
  j : Nat
  t : Track
  deriving DecidableEq, Repr

/-- One pair at a latch. -/
def judgePair (d : Dev) (c : Chan) (k arm : Nat) (latch : T96) (t : Track) : Option PairRes :=
  let sec := (Sparse.find d.pat.safety.ssm arm).getD {}
  let sens := (Sparse.find d.pat.safety.sensors t.sensor).getD {}
  let ac := (d.ch c).caps.get arm
  let chn := if c = .a then 0 else 1
  let fixed := sens.c + sens.zd + sec.zr
  let tRh := (latch - t.tMeas) + d.ssmDelay sec
  let tRr := ac.tPos + d.ssmDelay sec
  let sp (vR v : Nat) : Int := protective sec fixed t.v tRh vR tRr v
  let vRef := (d.unitSec arm).vRef
  let vmon := (vMon d c arm).toNat
  match pairSep k chn arm ac t with
  | none => none
  | some (sep, vR) =>
    let ok := (List.range 65).filter (fun j => decide (sp (j * vRef) (j * vRef) ≤ sep - sec.sBand))
    some { sep := sep, sp := sp (vR.toNat * 64) (vmon * 64), sp0 := sp 0 0, j := ok.foldl max 0, t := t }

/-- SSM of one arm in one channel (R266, R272 to R277). -/
def ssmArm (d : Dev) (c : Chan) (k arm : Nat) (latch : T96) : SsmRes :=
  let old := (d.ch c).ssm.get arm
  let unseen := d.pat.safety.sensors.any (fun e => ((d.ch c).sens.get e.1).cond == .unseen)
  match Sparse.find d.pat.safety.ssm arm with
  | none => { old with seps := [], scale := if unseen then 0 else 64 }
  | some sec =>
    let tracks := d.pat.safety.sensors.flatMap (fun e => tracksOf e.1 e.2 ((d.ch c).sens.get e.1))
    let prs := tracks.filterMap (judgePair d c k arm latch)
    let stop := prs.any (fun p => decide (p.sep < p.sp))
    let scale := if unseen then 0 else prs.foldl (fun n p => min n p.j) 64
    let least (l : List PairRes) : Option PairRes := match l with
      | [] => none
      | x :: t => some (t.foldl (fun w y => if y.sep < w.sep then y else w) x)
    let best := least prs
    let track (l : List PairRes) : Nat := ((least l).map (·.t.track)).getD 0
    { seps := prs.map (fun p => (p.t.sensor, p.t.track, p.sep)), sep := best.map (·.sep), sp := (best.map (·.sp)).getD 0
      track := (best.map (·.t.track)).getD 0, sensor := (best.map (·.t.sensor)).getD 0, scale := scale
      stop := old.stop || stop
      clearOk := !stop && prs.all (fun p => decide (p.sp0 + sec.sHyst ≤ p.sep))
      intrusion := prs.any (fun p => decide (p.sep ≤ 0))
      stopTrack := track (prs.filter (fun p => decide (p.sep < p.sp))), intrTrack := track (prs.filter (fun p => decide (p.sep ≤ 0))) }

/-! ### Registers -/

/-- Shows the SSM results of an arm: the more restrictive of the live channels. -/
def showSsm (arm : Nat) (d : Dev) : Dev :=
  let rs := d.chans.map (fun c => (d.ch c).ssm.get arm)
  let seps := rs.filterMap (·.sep)
  let sep := match seps with
    | [] => none
    | x :: t => some (t.foldl min x)
  let pick := (rs.find? (fun r => r.sep == sep)).getD {}
  let any (f : SsmRes → Bool) : Nat := b2n (rs.any f)
  let intr := d.chans.any (fun c => ((d.ch c).units.get arm).acts.any (fun a => a.src == .intrusion))
  let w (f : Fld) (v : Nat) (d : Dev) : Dev := d.wr f v arm
  w .SAF_SEP_MINSEP (match sep with | some s => unsigned 32 (fitS 32 s) | none => 0x7FFFFFFF)
    (w .SAF_SEP_SP (unsigned 32 (fitS 32 (maxOr 0 (rs.map (·.sp))))) (w .SAF_SEP_PAIR_TRACK pick.track
      (w .SAF_SEP_PAIR_SENSOR pick.sensor (w .SAF_SEP_PAIR_STOP (any (·.stop)) (w .SAF_SEP_PAIR_INTRUSION (b2n intr)
        (w .SAF_SEP_PAIR_CLEARING (b2n (rs.any (·.stop) && rs.all (fun r => !r.stop || r.clearOk)))
          (w .SAF_SEP_SCALE_SSM_SCALE (256 * rs.foldl (fun n r => min n r.scale) 64) d)))))))

/-- COND codes; the more restrictive value is the greater. -/
def condCode : SensCond → Nat
  | .valid => 0
  | .stale => 1
  | .unseen => 2

/-- Shows a sensor at a latch; a change to stale or back to valid is raised (R264, R265). The cause counts once while it persists: a sensor
that made it up goes stale again without a second fault (R244). -/
def showSensor (s : Nat) (latch : T96) (d : Dev) : Dev :=
  let xs := d.chans.map (fun c => (d.ch c).sens.get s)
  let cond := xs.foldl (fun n x => max n (condCode x.cond)) 0
  let old := d.rd .SAF_SENS_STAT_COND s
  let bad := xs.any (fun x => (x.setAt latch).any (fun y => !y.ok))
  let age := xs.foldl (fun n x => max n ((latch - x.latched.tMeas) / (1000 * nsUnit))) 0
  let w (f : Fld) (v : Nat) (d : Dev) : Dev := d.wr f v s
  let d1 := w .SAF_SENS_STAT_COND cond (w .SAF_SENS_STAT_SENS_FAULT (b2n bad)
    (w .SAF_SENS_STAT_NCAP (min 31 (xs.foldl (fun n x => max n x.latched.caps.length) 0))
      (w .SAF_SENS_STAT_RECOVER (xs.foldl (fun n x => min n x.recover) 64)
        (w .SAF_SENS_STAT_AGE (satU 16 age) (w .SAF_SENS_SEQ_SEQ_LAST (d.saf.b.sens.get s).seqLast
          (w .SAF_SENS_REJ_CRC_CNT (xs.foldl (fun n x => max n x.crcCnt) 0)
            (w .SAF_SENS_REJ_OTHER_CNT (xs.foldl (fun n x => max n x.otherCnt) 0) d)))))))
  if old = 0 && cond = 1 then
    let d2 := raiseSaf (if bad then .SENSOR_FAULT else .SENSOR_STALE) d.safWriter [s] d1
    let d3 := d2.updSaf (fun x => { x with staleSens := s :: x.staleSens.filter (· != s) })
    if d.saf.staleSens.contains s then degrCause 2 d3
    else if bit (d.rd .SAF_DEGR_CAUSE) 2 && d.rd .SAF_STATE_MODE = 1 then secondFault 2 d3
    else degrCause 2 d3
  else if old = 1 && cond = 0 then raiseSaf .SENSOR_VALID d.safWriter [s] d1
  else d1

/-- The clearance condition has held for SSM_CLEAR_T (R277): the stop request ends. -/
def ssmClear (arm : Nat) (d : Dev) : Dev :=
  let rs := d.chans.map (fun c => (d.ch c).ssm.get arm)
  if rs.any (·.stop) && rs.all (fun r => !r.stop || r.clearOk) then
    showSsm arm (raiseSaf .SSM_CLEAR d.safWriter [arm] (bothChans (fun c d => d.updCh c (fun x => { x with
      ssm := x.ssm.upd arm (fun r => { r with stop := false, clearOk := false }) })) d))
  else d

end Sys2Proof.Machine
end

