-- ==== Sys2Proof/Machine/SafCycle.lean ====
section
/-! DEFINITION. The safety cycle (08_safety_plane.md R220 to R223, R236 to R245, R249, R250): latch, comparison, demands,
monitors, releases and outputs. Decisions are complete at the latch that makes them (log entry 13). -/

namespace Sys2Proof.Machine

/-! ### Safe positions and capsules (R241, R255, R256) -/

/-- A safe position in a drive's safety sub-frame, delivered to a channel with its boundary stamp; the newest sample stays (R255). -/
def safePos (c : Chan) (a : Nat) (pos : Int) (stamp : T96) (d : Dev) : Dev :=
  d.updCh c (fun x => { x with pos := x.pos.upd a (fun p =>
    if p.known && decide (stamp ≤ p.stamp) then { p with fresh := true } else { p with pos := pos, stamp := stamp, fresh := true }) })

/-- A safe position that a due safety sub-frame did not deliver. -/
def safeMiss (c : Chan) (a : Nat) (d : Dev) : Dev :=
  d.updCh c (fun x => { x with pos := x.pos.upd a (fun p => { p with missed := true }) })

/-- A joint has a sample that is newer than that of the latch before; the second copy of a sample is none (R256). -/
def SafPos.newer (p : SafPos) : Bool := p.fresh && (!p.known || decide (p.prevStamp < p.stamp))

/-- A position at a latch: the speed since the last latch's sample, or one more missing cycle. The speed at the first sample is the free
value `v0` (DESIGN CHOICE, log entry 194). -/
def SafPos.latch (v0 : Int) (p : SafPos) : SafPos :=
  if p.fresh then
    { p with
      vel := if !p.newer then p.vel
        else if p.known then
          fitS 32 (rdiv ((p.pos - p.prev) * secUnit) (((p.stamp - p.prevStamp : Nat) : Int) * 65536))
        else v0
      prev := p.pos, prevStamp := p.stamp, known := true, fresh := false, missed := false, missCnt := 0 }
  else if p.missed then { p with missed := false, missCnt := p.missCnt + 1 }
  else p

/-- Velocity of a point between two positions (D32) over a time in 2^-16 ns, as V32. Over no time R256 gives none: each coordinate is the free
value `free` of its index (DESIGN CHOICE, log entry 194). -/
def pointVel (free : Nat → Int) (old new : List Int) (dt : Nat) : List Int :=
  if dt = 0 then (List.range 3).map free else List.zipWith (fun a b => rdiv ((b - a) * 4096 * secUnit) dt) old new

/-- The robot capsules of an arm at joint positions, by the safety section's own kinematics, as D32 in the cell frame (R253 to R255; log
entry 126). -/
def robotCaps (g : ArmGeom) (joints : List Int) : List Capsule :=
  let d32 (p : List Int) : List Int := p.map (fun x => rdiv x (2 ^ 28))
  (g.capsules joints).map (fun c => { p0 := d32 c.2.p0, p1 := d32 c.2.p1, r := c.2.r / 2 ^ 28 })

/-- The capsules of an arm at a latch, from positions already latched; `any` says that some joint had a newer sample. An end point has no
displacement at the first latch: its velocity is free there (DESIGN CHOICE, log entry 194). -/
def latchCaps (d : Dev) (c : Chan) (k arm : Nat) (any : Bool) (latch : T96) : ArmCaps :=
  let old := (d.ch c).caps.get arm
  let ps := (d.armAxes arm).map (fun a => (d.ch c).pos.get a)
  let oldest := ps.foldl (fun n p => min n p.stamp) ((ps.headD {}).stamp)
  if !any then { old with tPos := latch - oldest }
  else
    let caps := robotCaps ((Sparse.find d.pat.safety.arms arm).getD {}) (ps.map (·.pos))
    let vels := (List.range caps.length).map (fun i =>
      let free (e r : Nat) : Int := Config.capVel k (if c = .a then 0 else 1) arm (6 * i + 3 * e + r)
      match old.caps[i]?, caps[i]? with
      | some o, some n => (pointVel (free 0) o.p0 n.p0 (oldest - old.stamp), pointVel (free 1) o.p1 n.p1 (oldest - old.stamp))
      | _, _ => (pointVel (free 0) [] [] 0, pointVel (free 1) [] [] 0))
    { caps := caps, vels := vels, stamp := oldest, tPos := latch - oldest }

/-- The power state is IDLE or lower (R493, R497). -/
def Dev.ladderLow (d : Dev) : Bool := decide (2 ≤ d.rd .SYS_LADDER_STATE)

/-- A channel latches its inputs (R220): contactor feedback, positions, sensors, capsules. -/
def latchChan (ed : Chan → Nat) (k : Nat) (latch : T96) (c : Chan) (d : Dev) : Dev :=
  let x := d.ch c
  let low := d.ladderLow
  let axes := safUnits.flatMap d.unitAxes
  let d1 := d.updCh c (fun y => { y with
    ed := ed c
    edCnt := (List.range 8).foldl (fun t e => t.set e (if bit (ed c) e then min 255 (x.edCnt.get e + 1) else 0)) y.edCnt
    pos := axes.foldl (fun t a => t.upd a (fun p =>
      let q := p.latch (Config.axisVel k (if c = .a then 0 else 1) a)
      if low then { q with missCnt := 0 } else q)) y.pos
    sens := d.pat.safety.sensors.foldl (fun t e => t.upd e.1 (latchSensor d.pat.safety.recoverN low latch)) y.sens })
  forN 8 (fun u d => d.updCh c (fun y => { y with caps := y.caps.set u (latchCaps d c k u
    ((d.armAxes u).any (fun a => (x.pos.get a).newer)) latch) })) d1

/-! ### Demands (R236, R242, R274, R276) -/

/-- Sets whether a source demands a function of a unit: an entry appears with its first demand. -/
def setAct (s : SafSrc) (f : SafFunc) (manual active : Bool) (l : List SafAct) : List SafAct :=
  if active then addAct (act s f manual true) l
  else l.map (fun x => if x.src = s && x.func = f then { x with active := false } else x)

/-- AUTO on an STO or SS1 binding counts as MANUAL (R236). -/
def manualOf (f : SafFunc) (auto : Bool) : Bool := !auto || f == .sto || f == .ss1

/-- The arms whose SSM stop or intrusion reaches arm `u`: itself and its stop set (R274, R275). -/
def Dev.stopSet (d : Dev) (u : Nat) : List Nat := (d.pat.safety.stopSets.find? (fun l => l.contains u)).getD [u]

/-- The function of an arm's SSM stop. -/
def ssmFunc (s : SsmArm) : SafFunc := if s.stopSs2 then .ss2 else .ss1

/-- The host's request bits for a unit: STO, SS1, SS2 (R242). -/
def Dev.hostReq (d : Dev) (u : Nat) : List (SafFunc × Bool) :=
  if u < 8 then
    [(.sto, bit (d.rd .SAF_REQ_STO) u), (.ss1, bit (d.rd .SAF_REQ_SS1) u), (.ss2, bit (d.rd .SAF_REQ_SS2) u)]
  else
    [(.sto, bit (d.rd .SAF_GREQ_STO) (u - 8)), (.ss1, bit (d.rd .SAF_GREQ_SS1) (u - 8)),
      (.ss2, bit (d.rd .SAF_GREQ2_SS2) (u - 8))]

/-- The demands on a unit in a channel at a latch: its bound request sources, where a monitoring violation demands at the latch after the one
that found it (R236; DEDUCED, log entry 193), and those of the rules. -/
def demandsOf (d : Dev) (c : Chan) (u : Nat) (l : List SafAct) : List SafAct :=
  let pairs := d.pat.safety.binds.foldl (fun l b =>
    let r : SafSrc × Bool := match b.src with
      | .pair i => (.pair i, d.pairDemand c i)
      | .sep n => (.sep n, ((d.ch c).ssm.get n).stop || ((d.ch c).ssm.get n).intrusion)
      | .viol w => (.viol w, d.saf.viol.contains w)
    if b.units.contains u then setAct r.1 b.func (manualOf b.func b.auto) r.2 l else l) l
  let host := (d.hostReq u).foldl (fun l r => setAct .host r.1 false r.2 l) pairs
  let arms := if u < 8 then d.stopSet u else []
  let ssm := arms.foldl (fun l n =>
    let s := (Sparse.find d.pat.safety.ssm n).getD {}
    if ((d.ch c).ssm.get n).stop then setAct .ssm (ssmFunc s) (manualOf (ssmFunc s) s.auto) true l else l)
    (host.map (fun x => if x.src = .ssm then { x with active := false } else x))
  let intr := setAct .intrusion .sto true (arms.any (fun n => ((d.ch c).ssm.get n).intrusion)) ssm
  let stale := setAct .posStale .sto true ((d.unitAxes u).any (fun a => decide (2 ≤ ((d.ch c).pos.get a).missCnt))) intr
  let exp := setAct .expired .ss1 true (d.saf.expired &&
    (List.range 9).any (fun b => bit (d.rd .SAF_DEGR_CAUSE) b && d.causeHolds b)) stale
  setAct .ladder .sto false d.ladderLow exp

/-- Files the demands of every unit in a channel, and the limit of degraded mode (R245). -/
def fileDemands (c : Chan) (d : Dev) : Dev :=
  forL safUnits (fun u d => d.updUnit c u (fun x => { x with
    acts := demandsOf d c u x.acts, degr := x.degr || decide (d.rd .SAF_STATE_MODE = 1) })) d

/-- Codes of demands that arose at this latch: POS_STALE, SSM_STOP, SEP_INTRUSION; `old` is the state before it. -/
def raiseDemands (old : Dev) (d : Dev) : Dev :=
  let act (e : Dev) (u : Nat) (s : SafSrc) : Bool :=
    e.chans.any (fun c => ((e.ch c).units.get u).acts.any (fun a => a.src == s && a.active))
  let ssm (e : Dev) (n : Nat) (f : SsmRes → Bool) : Bool := e.chans.any (fun c => f ((e.ch c).ssm.get n))
  let d1 := forL safUnits (fun u d =>
    if act d u .posStale && !act old u .posStale then raiseSaf .POS_STALE d.safWriter [u] d else d) d
  let first (e : Dev) (n : Nat) (f : SsmRes → Bool) : SsmRes := ((e.chans.map (fun c => (e.ch c).ssm.get n)).find? f).getD {}
  forN 8 (fun n d =>
    let d2 := if ssm d n (·.stop) && !ssm old n (·.stop) then raiseSaf .SSM_STOP d.safWriter [n, (first d n (·.stop)).stopTrack] d else d
    if ssm d2 n (·.intrusion) && !ssm old n (·.intrusion) then
      raiseSaf .SEP_INTRUSION d2.safWriter [n, (first d2 n (·.intrusion)).intrTrack] d2 else d2) d1

/-! ### Monitors (R237 to R240) -/

/-- The envelope of R238 at `t` safety cycles after the decision, with a floor: exact, in 4,000ths of a V32 unit. -/
def envelope (s : SafUnit) (v0 floor : Int) (t : Nat) : Int :=
  max (4000 * floor) (4000 * (v0 + s.vTol) - ((s.monDec * 16 * (t - 4 * s.monLag) : Nat) : Int))

/-- A unit and the codes that its monitors find. -/
structure UnitOut where
  x : UnitSt
  codes : List Code
  deriving DecidableEq, Repr

/-- STO by a monitor (R238, R239). -/
def UnitSt.trip (x : UnitSt) (s : SafSrc) : UnitSt :=
  { x with acts := addAct (act s .sto true false) x.acts, sto := true, stop := none, sos := none, lim := none }

/-- The monitored stop of a cycle (R237, R238): an SS1 and an SS2 keep their own v0 and time while both act. -/
def stopMon (s : SafUnit) (x : UnitSt) (ss1 ss2 : Bool) (old : Option StopMon) : StopMon :=
  let quick := (ss1 && s.ss1Qs) || (ss2 && s.ss2Qs)
  let prog := (ss1 && !s.ss1Qs) || (ss2 && !s.ss2Qs)
  let hard := old.bind (fun m => if m.ss1 then some (m.v0, m.t) else none)
  let soft := old.bind (fun m => if m.ss1 then m.soft else some (m.v0, m.t))
  let h := hard.getD (x.vmon, 0)
  let w := soft.getD (x.vmon, 0)
  if ss1 then ⟨true, quick, prog, h.1, h.2, if ss2 then some w else none⟩ else ⟨false, quick, prog, w.1, w.2, none⟩

/-- One cycle of a monitored stop: envelope, standstill, time-out (R238). -/
def runMon (s : SafUnit) (pos : List Int) (m : StopMon) (x : UnitSt) : UnitOut :=
  let m1 := { m with t := m.t + 1, soft := m.soft.map (fun w => (w.1, w.2 + 1)) }
  let broken (w : Int × Nat) : Bool := decide (envelope s w.1 (s.vStand + s.vTol) w.2 < 4000 * x.vmon)
  if broken (m.v0, m.t) || m.soft.any broken then ⟨x.trip .ramp, [.RAMP_VIOL]⟩
  else if 4 * s.standT + 1 ≤ x.still then
    if m.ss1 then ⟨{ x with sto := true, stop := none, sos := none }, []⟩ else ⟨{ x with stop := none, sos := some pos }, []⟩
  else
    let over1 := m.ss1 && decide (4 * s.ss1Tmax ≤ m.t)
    let over2 := (!m.ss1 && decide (4 * s.ss2Tmax ≤ m.t)) || m.soft.any (fun w => decide (4 * s.ss2Tmax ≤ w.2))
    let codes := (if over1 then [.SS1_TMAX] else []) ++ (if over2 then [.RAMP_VIOL] else [])
    if over2 then ⟨x.trip .ramp, codes⟩
    else if over1 then ⟨{ x with sto := true, stop := none, sos := none }, codes⟩
    else ⟨{ x with stop := some m1 }, []⟩

/-- SOS: every joint within its window of the position at entry (R239). -/
def runSos (s : SafUnit) (axes : List Nat) (pos entry : List Int) (x : UnitSt) : UnitOut :=
  if (List.zip axes (List.zip pos entry)).any (fun (a, p, e) => decide (((Sparse.find s.sosWin a).getD 0 : Int) < absI (p - e))) then
    ⟨x.trip .sosViol, [.SOS_VIOL]⟩
  else ⟨{ x with sos := some entry, stop := none }, []⟩

/-- A speed limit as (V_lim, JF, FUNC). -/
abbrev Limit := Nat × Nat × Nat

/-- The monitored limits of a unit: SLS demands and the degraded limit, which R246 lifts as an AUTO binding (R240, R245). -/
def limitsOf (d : Dev) (u : Nat) (x : UnitSt) : List Limit :=
  let s := d.unitSec u
  let sls := x.acts.filterMap (fun a => match a.func with
    | .sls k => (s.sls[k]?).map (fun l => (l.1, l.2, 1))
    | _ => none)
  let degr : List Limit :=
    if !x.degr then []
    else if u < 8 then [(d.pat.safety.degrV, d.pat.safety.degrJf, 7)]
    else ((s.sls[0]?).map (fun l => (l.1, l.2, 7))).toList
  sls ++ degr

/-- The scale of a limit as U2.14 (R240). -/
def limitScale (s : SafUnit) (l : Limit) : Nat :=
  min 0x4000 (min l.2.1 (if s.vRef = 0 then 0x4000 else (rdiv (l.1 * 0x4000) s.vRef).toNat))

/-- The monitor of the active limits: the envelope toward a new lower one, then the limit itself (R240). -/
def runLim (d : Dev) (c : Chan) (u : Nat) (ls : List Limit) (x : UnitSt) : UnitOut :=
  let s := d.unitSec u
  match ls with
  | [] => ⟨{ x with lim := none }, []⟩
  | l0 :: t =>
    let v := t.foldl (fun n l => min n l.1) l0.1
    let jf := t.foldl (fun n l => min n l.2.1) l0.2.1
    let env := match x.lim with
      | some m => if v < m.v then (if (v : Int) < x.vmon then some (x.vmon, 0) else none) else m.env
      | none => if (v : Int) < x.vmon then some (x.vmon, 0) else none
    let floor : Int := v + s.vTol
    let env1 := match env with
      | some (v0, n) => if envelope s v0 floor n ≤ 4000 * floor then none else some (v0, n + 1)
      | none => none
    let fast := (d.unitAxes u).any (fun a =>
      decide (((d.axLim a).vLim * jf : Int) < absI ((d.ch c).pos.get a).vel * 0x4000))
    let viol := match env with
      | some (v0, n) => decide (envelope s v0 floor n < 4000 * x.vmon)
      | none => decide (floor < x.vmon) || fast
    if !viol then ⟨{ x with lim := some ⟨v, jf, env1⟩ }, []⟩
    else if s.slsSto then ⟨x.trip .slsViol, [.SLS_VIOL]⟩
    else ⟨{ x with
        acts := addAct (act .slsViol .ss1 true false) x.acts, stop := some ⟨true, s.ss1Qs, !s.ss1Qs, x.vmon, 1, none⟩, lim := none },
      [.SLS_VIOL]⟩

/-- A demand on a unit asks for function `f`. -/
def UnitSt.demands (x : UnitSt) (f : SafFunc) : Bool := x.acts.any (fun a => a.func == f)

/-- The dynamics of a unit in a channel for its demands (R237). -/
def runUnit (d : Dev) (c : Chan) (u : Nat) (x0 : UnitSt) : UnitOut :=
  let s := d.unitSec u
  let axes := d.unitAxes u
  let pos := axes.map (fun a => ((d.ch c).pos.get a).pos)
  let v := vMon d c u
  let x := { x0 with vmon := v, still := if v < s.vStand then min (4 * s.standT + 1) (x0.still + 1) else 0 }
  if x.demands .sto || (x.sto && x.demands .ss1) then ⟨{ x with sto := true, stop := none, sos := none, lim := none }, []⟩
  else
    let y := { x with sto := false }
    if x.demands .ss1 && y.sos.isSome then ⟨{ y with sto := true, stop := none, sos := none, lim := none }, []⟩
    else if x.demands .ss2 && !x.demands .ss1 && y.sos.isSome then runSos s axes pos (y.sos.getD pos) y
    else if x.demands .ss1 || x.demands .ss2 then
      runMon s pos (stopMon s y (x.demands .ss1) (x.demands .ss2) y.stop) { y with lim := none }
    else if x.demands .sos then runSos s axes pos (y.sos.getD pos) y
    else runLim d c u (limitsOf d u y) { y with stop := none, sos := none }

/-- The governing function and the permitted scale of a unit (R237, R240, R272). -/
def governUnit (d : Dev) (c : Chan) (u : Nat) (x : UnitSt) : UnitSt :=
  let s := d.unitSec u
  let ls := (limitsOf d u x).map (fun l => (limitScale s l, l.2.2))
  let ssm := 256 * ((d.ch c).ssm.get u).scale
  let all := ls ++ (if u < 8 && ssm < 0x4000 then [(ssm, 2)] else [])
  let best := all.foldl (fun w l => if l.1 < w.1 || (l.1 = w.1 && l.2 < w.2) then l else w) (0x4001, 8)
  { x with
    scale := if x.sto then 0 else min 0x4000 best.1
    func := if x.sto then 6 else match x.stop with
      | some m => if m.ss1 then 5 else 4
      | none => if x.sos.isSome then 3
        else if all.isEmpty then 0 else best.2 }

/-- Every unit of a channel; answers the codes found with their units. -/
def runUnits (c : Chan) (d : Dev) : Dev × List (Code × Nat) :=
  safUnits.foldl (fun (r : Dev × List (Code × Nat)) u =>
    let o := runUnit r.1 c u ((r.1.ch c).units.get u)
    (r.1.updUnit c u (fun _ => governUnit r.1 c u o.x), r.2 ++ o.codes.map (fun k => (k, u)))) (d, [])

/-- Both channels' dynamics; a code that both find is raised once. A violation is a request source of the next cycle (R236). -/
def runChannels (d : Dev) : Dev :=
  let r := d.chans.foldl (fun (r : Dev × List (Code × Nat)) c =>
    let o := runUnits c r.1
    (o.1, r.2 ++ o.2)) (d, [])
  forL r.2.eraseDups (fun e d => raiseSaf e.1 d.safWriter [e.2] d) (r.1.updSaf (fun x => { x with
    viol := ((r.2.filter (fun e => e.1 != .SS1_TMAX)).map (·.2)).eraseDups }))

/-! ### Releases (R249, R250) -/

/-- A monitor finds a violation of a unit at this latch, with its demands as they stand (R237 to R240). -/
def violates (d : Dev) (u : Nat) : Bool :=
  d.chans.any (fun c => (runUnit d c u ((d.ch c).units.get u)).codes.any (· != .SS1_TMAX))

/-- The restart request of a unit stands: no demand of it is new in this cycle (R250). -/
def Dev.asked (d : Dev) (u : Nat) : Bool :=
  d.saf.restart.contains u && d.chans.all (fun c => ((d.ch c).units.get u).acts.all (fun a => !a.new))

/-- A unit's ended demands are removed where their release is due: under AUTO by itself, as the limit of a degraded mode that has ended
(R246), under MANUAL with an accepted restart request; a violation that a monitor finds in this cycle comes first (R249, R250). -/
def releaseUnit (u : Nat) (d : Dev) : Dev :=
  if d.releasable u && !violates d u then
    bothChans (fun c d1 => d1.updUnit c u (fun x => { x with
      acts := x.acts.filter (fun a => a.active || (a.manual && !d.asked u)), degr := x.degr && decide (d.rd .SAF_STATE_MODE = 1) })) d
  else d

/-- The releases of a cycle. A restart request is accepted where some unit meets all conditions: it raises source 293 where it
releases a unit or ends a latching cause of degraded mode whose condition is absent (R246, R249, log entry 15). -/
def releases (d : Dev) : Dev :=
  let acc := safUnits.filter (fun u => d.asked u && d.releasable u && !violates d u)
  let freed := acc.any (fun u => d.chans.any (fun c => ((d.ch c).units.get u).acts.any (fun a => a.manual && !a.active)))
  let d1 := forL safUnits releaseUnit d
  let d2 := if acc.isEmpty then d1 else dropCauses latchingCause d1
  let ended := d2.rd .SAF_DEGR_CAUSE != d1.rd .SAF_DEGR_CAUSE
  let d3 := if freed || ended then icuBoth 293 d2 else d2
  d3.updSaf (fun x => { x with restart := [] })

/-- The demands of this cycle are no longer new. -/
def settleActs (d : Dev) : Dev :=
  bothChans (fun c d => forL safUnits (fun u d => d.updUnit c u (fun x => { x with acts := x.acts.map (fun a => { a with new := false }) })) d) d

/-! ### Comparison (R223) -/

/-- What a channel publishes. R223 does not list the decision bits: they are state, function, ramp and restart wait of every unit
(DESIGN CHOICE, log entry 190). -/
def published (d : Dev) (c : Chan) : Published :=
  let us := safUnits.map (fun u => (d.ch c).units.get u)
  { bits := us.map (fun x => x.state * 32 + x.func * 4 + b2n ((x.stop.map (·.quick)).getD false) * 2 + b2n x.waits)
    scales := us.map (·.scale), seps := (List.range 8).flatMap (fun n => ((d.ch c).ssm.get n).seps.map (fun e => (n, e))) }

/-- Two result sets match (R223). -/
def matching (tolD : Nat) (x y : Published) : Bool :=
  x.bits == y.bits && (List.zip x.scales y.scales).all (fun (m, n) => decide (absI ((m : Int) - n) ≤ 256)) &&
  x.seps.length == y.seps.length && (List.zip x.seps y.seps).all (fun ((m, s, t, v), (n, r, k, w)) =>
    m == n && s == r && t == k && decide (absI (v - w) ≤ tolD))

/-- The comparison at a safety-cycle start: the second mismatch in a row is a discrepancy, and self-tests start (R223, R224). -/
def compareChans (late : Bool) (d : Dev) : Dev :=
  if !d.saf.a.ok || !d.saf.b.ok then d
  else if !late && matching d.pat.safety.tolD d.saf.pubA d.saf.pubB then d.updSaf (fun x => { x with missRun := 0 })
  else
    let d1 := (d.incSat .SAF_CMP_MISMATCH).updSaf (fun x => { x with missRun := x.missRun + 1 })
    if d1.saf.missRun = 2 then
      (raiseSaf .CH_DISCREP d1.safWriter [] (d1.incSat .SAF_CMP_DISCREP)).updSaf (fun x => { x with selftest := true })
    else d1

/-! ### Outputs and contactors (R230, R231, R233, R235) -/

/-- An output is asked on; in toile mode and in NOPAT none is (R64, R68). -/
def Dev.outWanted (d : Dev) (n : Nat) : Bool :=
  !(d.unitsOfOut n).isEmpty && (d.unitsOfOut n).all (fun u => !(d.governing u).sto) && !bit (d.rd .SAF_SO_FLT) n &&
  (d.edsOfOut n).all (fun e => !bit (d.rd .SAF_ED_LOCK) e) && !d.saf.vfieldBad && !d.saf.handoverOpen &&
  !d.chans.isEmpty && d.rd .PAT_STATUS_TOILE == 0 && d.rd .SYS_STATE_STAGE != 15 && d.boot.jtag != .extest

/-- One output at the end of a safety cycle: off at once, on after the checks of R233; a fault ends after 1 s without it, which 4,001 latches
span (R231, log entry 14). -/
def runOut (n : Nat) (d0 : Dev) : Dev :=
  let gone := bit (d0.rd .SAF_SO_FLT) n && !(bit (d0.rd .SAF_SO_RB) n && !bit (d0.rd .SAF_SO_ON) n)
  let cnt := if gone then d0.saf.soAbsent.get n + 1 else 0
  let d1 := d0.updSaf (fun x => { x with soAbsent := x.soAbsent.set n cnt })
  let d := if 4001 ≤ cnt then
      endSource (.output n) ((d1.wr .SAF_SO_FLT (setBit (d1.rd .SAF_SO_FLT) n false)).updSaf (fun x => { x with
        soCodes := x.soCodes.filter (fun e => e.1 != n) })) else d1
  let on := bit (d.rd .SAF_SO_ON) n
  if !d.outWanted n then
    (if on then outOff n d else d).updSaf (fun x => { x with refused := x.refused.filter (· != n) })
  else if on || d.saf.refused.contains n then d
  else if bit (d.rd .SAF_SO_RB) n then outFault n .SO_SHORT_HI d
  else if (d.edsOfOut n).all d.edSettled then
    d.wr .SAF_SO_ON (setBit (d.rd .SAF_SO_ON) n true)
  else raiseSaf .EDM_PRECHECK d.safWriter [n] (d.updSaf (fun x => { x with refused := n :: x.refused }))

/-- One ED input: shown, implausible while its output has been on for longer than ED_WIN, plausible again once it agrees
(R235, log entry 14). -/
def runEd (e : Nat) (d0 : Dev) : Dev :=
  let dropped := d0.edDropped e
  let d := d0.wr .SAF_ED_DROPPED (setBit (d0.rd .SAF_ED_DROPPED) e (dropped && !d0.chans.isEmpty))
  match Sparse.find d.pat.safety.edOut e with
  | none => d
  | some o =>
    let on := bit (d.rd .SAF_SO_ON) o
    if on && dropped && d.saf.edJudged.contains e then edImplausible e d
    else if bit (d.rd .SAF_ED_IMPL) e && (on != dropped) then d.wr .SAF_ED_IMPL (setBit (d.rd .SAF_ED_IMPL) e false)
    else d

/-! ### The cycle -/

/-- The degraded time counts down once per millisecond, which is four safety cycles (R245). -/
def degrCount (d : Dev) : Dev :=
  let n := (d.saf.msDiv + 1) % 4
  let d1 := d.updSaf (fun x => { x with msDiv := n })
  if n = 0 && d.rd .SAF_STATE_MODE = 1 then d1.wr .SAF_DEGR_REMAIN (d.rd .SAF_DEGR_REMAIN - 1) else d1

/-- A safety-cycle start (R220): `edA` and `edB` are the contactor feedback as each channel's comparator reads it (1:
dropped), `rb` the read-back levels of the outputs, `late` that a channel had not published. Its start is stamped on TB0 and on TB3 (R37),
to 5 ns (R324). The contactor feedback is judged before the releases, so that its demand wins over a restart request (R250). -/
def safetyCycle (edA edB rb : Nat) (late : Bool) (d : Dev) : Dev :=
  let t := d.base 0
  let k := d.free
  let d1 := compareChans late ({ d with free := d.free + 1 }.wr .SAF_SO_RB rb)
  let d2 := bothChans (latchChan (fun c => if c = .a then edA else edB) k t) d1
  let d3 := forL (d2.pat.safety.sensors.map (·.1)) (fun s d => showSensor s t d) d2
  let d4 := bothChans (fun c d => d.updCh c (fun x => { x with
    ssm := (List.range 8).foldl (fun m n => m.set n (ssmArm d c k n t)) x.ssm })) d3
  let d5 := raiseDemands d (bothChans fileDemands d4)
  let d6 := forN 8 runEd d5
  let d7 := runChannels (releases d6)
  let d8 := forN 8 runOut (showSi d7)
  let d9 := settleActs (degrCount (forN 8 showSsm (forL safUnits showUnit d8)))
  d9.updSaf (fun x => { x with pubA := published d9 .a, pubB := published d9 .b, startAt := toGrid (5 * nsUnit) (d.base 3), startTb0 := toGrid (5 * nsUnit) (d.base 0) })

end Sys2Proof.Machine
end

