-- ==== Sys2Proof/Machine/Planes.lean ====
section
/-! DEFINITION. Planes, racking, comparison, tasting and the role arbiter (10_planes_racking.md). Racking of memory regions
stands in `Memory`. -/

namespace Sys2Proof.Machine

/-! ### Plane states -/

/-- The role record of a plane. -/
def Dev.role (d : Dev) : Plane → PlaneRole
  | .A => d.red.a
  | .B => d.red.b

/-- Passes the arbiter and comparator through `f`. -/
def Dev.updRed (d : Dev) (f : RedSt → RedSt) : Dev := { d with red := f d.red }

/-- Passes a role record through `f`. -/
def Dev.updRole (d : Dev) (p : Plane) (f : PlaneRole → PlaneRole) : Dev :=
  match p with
  | .A => d.updRed (fun r => { r with a := f r.a })
  | .B => d.updRed (fun r => { r with b := f r.b })

/-- Plane states of RED_ROLE: 0 RUNNING, 1 TASTING, 2 OUT, 3 RELOADING, 4 JOINING, 5 RETIRED. -/
def stateFld : Plane → Fld
  | .A => .RED_ROLE_A_STATE
  | .B => .RED_ROLE_B_STATE

def Dev.planeState (d : Dev) (p : Plane) : Nat := d.rd (stateFld p)
def setPlaneState (p : Plane) (s : Nat) (d : Dev) : Dev := d.wr (stateFld p) s

/-- The plane computes cycles. -/
def Dev.runs (d : Dev) (p : Plane) : Bool := d.planeState p == 0

/-- The planes that compute. -/
def Dev.running (d : Dev) : List Plane := [Plane.A, Plane.B].filter d.runs

/-- Applies a change for every plane that computes. -/
def runPlanes (f : Plane → Dev → Dev) (d : Dev) : Dev := forL d.running f d

/-- The plane without the token. -/
def Dev.shadow (d : Dev) : Plane := d.active.other

/-- The shadow is in step (R286). -/
def Dev.inStep (d : Dev) : Bool := d.runs d.shadow && (d.role .A).gen == (d.role .B).gen

/-! ### Comparison and tasting (R287 to R291) -/

/-- The cycle batch of the running cycle is complete, or closed by its deadline, in every plane that computes; below RUN there is
none. -/
def Dev.batchIn (d : Dev) : Bool := d.holding || d.running.all (fun p => decide (2 ≤ d.batchState p 0))

/-- Tasting starts on both planes, at the mismatch or at the completion of the current cycle batch, whichever is later (R289). -/
def startTaste (d : Dev) : Dev :=
  if d.red.taste.on then d
  else ((d.incSat .RED_TASTE_COUNT).updRed (fun r => { r with taste := { on := true, begun := d.batchIn } }))

/-- Tasting has begun (R289). -/
def Dev.tasting (d : Dev) : Bool := d.red.taste.on && (d.red.taste.begun || d.batchIn)

/-- The verdict on a plane. -/
def Tasting.verdict (t : Tasting) : Plane → Option Bool
  | .A => t.a
  | .B => t.b

/-- Tasting occupies plane `p`: it goes before tick-batch work until the plane has sent its signature (R289). -/
def Dev.tasteBusy (d : Dev) (p : Plane) : Bool := d.tasting && (d.red.taste.verdict p).isNone

/-- A mismatch of record `idx` of a kind (R288); one during tasting is counted only (R291). -/
def mismatch (kind idx : Nat) (d : Dev) : Dev :=
  let d1 := ((((d.incSat .RED_CMP_MISMATCH).wr .RED_CMP_KIND kind).wr .RED_CMP_IDX_INDEX idx).wr .RED_CMP_CYC_CYCNT
    (d.rd .SYS_CYCNT)).updRed (fun r => { r with sinceMis := 0 })
  startTaste (raise .OUT_MISMATCH wField [kind, idx] d1)

/-- Positions at which two lists differ, or at which only one has an entry. -/
def diffAt {α : Type} [DecidableEq α] (i : Nat) : List α → List α → List Nat
  | [], [] => []
  | _ :: t, [] => i :: diffAt (i + 1) t []
  | [], _ :: t => i :: diffAt (i + 1) [] t
  | x :: s, y :: t => if x = y then diffAt (i + 1) s t else i :: diffAt (i + 1) s t

/-- The command of an axis in a plane as its record holds it: V, T and REPEAT (R173, R176, R344). -/
def Dev.cmdRecord (d : Dev) (p : Plane) (a : Nat) : List Int :=
  [(d.lax p a).vCmd, (d.lax p a).tCmd, d.rdP p .LPE_AX_STAT_REPEAT a]

/-- The microstep record of an axis in a plane: index, its change, coils, REPEAT and RESTORE, table (R344). -/
def Dev.msRecord (d : Dev) (p : Plane) (m : Nat) : List Int :=
  let x := d.aux p m
  [d.rdP p .PPE_AX_MSIDX_IDX (m - 64), x.idxStep, x.coilA, x.coilB, d.rdP p .LPE_AX_STAT_REPEAT m + 4 * b2n x.restore,
    d.rdP p .PPE_AX_CFG_TABLE (m - 64)]

/-- Axis command records, and microstep records with SD step counts, that differ between the planes, once both stand (R287). -/
def differing (d : Dev) : List (Nat × Nat) :=
  let cmd := d.loopAxes.filter (fun a => d.cmdRecord .A a != d.cmdRecord .B a)
  let ms := (d.pat.aux.map (·.1)).filter (fun m => d.msRecord .A m != d.msRecord .B m || (d.aux .A m).due != (d.aux .B m).due)
  cmd.map (fun a => (1, a)) ++ ms.map (fun m => (2, m))

/-- The comparison of commands and microsteps, which leave without waiting for it, while the shadow is in step (R287, R288). -/
def compareCommands (d : Dev) : Dev := if d.inStep then forL (differing d) (fun e d => mismatch e.1 e.2 d) d else d

/-- The positions of the waiting replies that differ between the planes while the shadow is in step (R287). -/
def Dev.badReplies (d : Dev) : List Nat := if d.inStep then diffAt 0 d.host.waiting d.host.waitingShadow else []

/-- The waiting replies are compared and released, but for those that differ, which wait for the verdict of tasting (R287, R288). -/
def compareReplies (d : Dev) : Dev := forL d.badReplies (mismatch 4) (releaseWaiting d.badReplies d)

/-- The comparison of the words of cores and of the cellar records at the start of φ5; `late` is an unfinished comparison, which is a
mismatch too, of a record that no rule names (R41, R287, R288). -/
def compareRecords (late : Bool) (d : Dev) : Dev :=
  let open_ := [([1, 2, 3, 5].getD (Config.lateKind d.free).val 1, (Config.lateIndex d.free).toNat)]
  let all := if d.inStep then (d.cyc.words.filter (fun w => w.a != w.b)).map (fun w => (3, w.idx)) ++ (diffAt 0 d.planeA.recs d.planeB.recs).map (fun i => (5, i)) ++
      (if late then open_ else []) else []
  forL all (fun e d => mismatch e.1 e.2 d) (bothPlanes (fun p d => d.updPl p (fun x => { x with recs := [] })) d.takeFree.2)

/-- A plane failed tasting (R290). -/
def tasteFail (p : Plane) (how : Nat) (d : Dev) : Dev :=
  raise .TASTE_FAIL wField [p.num] (d.wr (if p = .A then .RED_TASTE_A else .RED_TASTE_B) how)

/-- Sets a verdict of the tasting that runs. -/
def setVerdict (p : Plane) (v : Bool) (d : Dev) : Dev :=
  d.updRed (fun r => { r with taste := match p with
    | .A => { r.taste with a := some v }
    | .B => { r.taste with b := some v } })

/-- The φ5 start of a tasting cycle: a signature that has not arrived by the TASTE_CYC-th one is missing (R290). In the cycle of the
mismatch tasting has run only if its cycle batch was complete before φ5 (R289). -/
def tasteBoth (d : Dev) : Dev :=
  let t := d.red.taste
  if !t.on then d
  else if !d.tasting then d.updRed (fun r => { r with taste := { r.taste with begun := true } })
  else
    let n := t.cyc + 1
    let d1 := d.updRed (fun r => { r with taste := { r.taste with begun := true, cyc := n } })
    if n < d.rd .RED_CFG_TASTE_CYC then d1
    else
      let d2 := if t.a.isNone && d.runs .A then setVerdict .A false (tasteFail .A 3 d1) else d1
      if t.b.isNone && d.runs .B then setVerdict .B false (tasteFail .B 3 d2) else d2

/-- Every plane that tastes has its verdict. -/
def Dev.verdictIn (d : Dev) : Bool :=
  d.red.taste.on && (!d.runs .A || d.red.taste.a.isSome) && (!d.runs .B || d.red.taste.b.isSome)

/-! ### Loss, takeover, rejoin (R293 to R299) -/

/-- Names the plane that holds the token, in RED_ROLE and SYS_STATE. -/
def setActive (p : Plane) (d : Dev) : Dev := (d.wr .RED_ROLE_ACTIVE p.num).wr .SYS_STATE_ACTIVE p.num

/-- The token passes to a plane (R292): timers of R301 and R302 restart. -/
def giveToken (p : Plane) (d : Dev) : Dev :=
  (((((setActive p d).incSat .RED_ROLE_ROLE_CHG).wr .RED_TIMER_RIDDLE_REMAIN
    (satU 16 (d.rd .RED_CFG_RIDDLE_T * 60))).wr .RED_TIMER_REVERT_REMAIN (if p = .B then d.rd .RED_CFG_REVERT_T else 0)).wr
    .RED_ROLE_REVERT_PEND 0).updRed (fun r => { r with revertNs := 0, riddleNs := 0, swap := 0, deferred := false })

/-- A plane is lost: OUT, a riddling swap ends, degraded mode (R293, R303). -/
def planeOut (p : Plane) (d : Dev) : Dev :=
  degrCause 3 ((setPlaneState p 2 (d.wr .RED_ROLE_RIDDLE 0)).updRole p (fun r => { r with
    joinReady := false, mark := false }))

/-- The shadow takes over from a failed active plane (R297). -/
def takeover (d : Dev) : Dev :=
  let old := d.active
  planeOut old (raise .TAKEOVER wField [old.other.num] (giveToken old.other d))

/-- Both planes fail (R296): SS1 of everything while the token holder sends close marks, else STO. -/
def bothFail (d : Dev) : Dev :=
  let d1 := (raise .BOTH_FAIL wField [] d).updRed (fun r => { r with bothFail := true })
  if (d.role d.active).mark then demand safUnits (act .planes .ss1 true false) d1
  else stoNow safUnits .planes false (d1.updSaf (fun x => { x with planesGone := true }))

/-- The arbiter's decision at a boundary (R293). Once both planes have failed, only the token holder's close mark counts (R296). -/
def arbitrate (d0 : Dev) : Dev :=
  let act := d0.active
  if d0.red.bothFail then
    if (d0.role act).mark || d0.saf.planesGone then d0
    else stoNow safUnits .planes false (d0.updSaf (fun x => { x with planesGone := true }))
  else
    let sh := act.other
    let claims := d0.running.filter (fun q => (d0.role q).claim.any (fun r => r != act))
    let d := forL claims (fun q d => raise .ROLE_CONFLICT wField [q.num] d) d0
    let judged := d.verdictIn
    let fail (q : Plane) : Bool := claims.contains q ||
      (judged && d.red.taste.verdict q == some false)
    let rack := d.runs sh && d.red.rackFail
    let shOk := d.inStep && (d.role sh).mark && !rack && !fail sh
    let d1 := if judged then d.updRed (fun r => { r with taste := {} }) else d
    let d2 := forL (d.running.filter (fun q => !(d.role q).mark)) (fun q d => raise .PLANE_SILENT wField [q.num] d)
      (if rack then raise .RACK_FAIL wField [] d1 else d1)
    if fail act || !(d.role act).mark then (if shOk then takeover d2 else bothFail d2)
    else if d.runs sh && !shOk then planeOut sh d2
    else if judged && d.runs sh then (degrCause 4 (raise .MISMATCH_UNRES wField [] d2)).wr .RED_ROLE_UNRES 1
    else d2

/-- A failed rejoin (R299): again after 1 s, RETIRED after the third since reset. -/
def rejoinFail (p : Plane) (d : Dev) : Dev :=
  let n := (d.role p).fails + 1
  let d1 := raise .REJOIN_FAIL wField [p.num] ((setPlaneState p 2 ((d.wr .RED_BULK_PASS 0).wr .RED_BULK_LINES 0)).updRole p
    (fun r => { r with fails := n, retry := true, joinReady := false }))
  if 3 ≤ n then raise .PLANE_RETIRED wField [p.num] (setPlaneState p 5 d1) else d1

/-- The φ5 start of a plane that tastes alone: a signature that has not arrived by the TASTE_CYC-th cycle is missing, and the rejoin fails
(R290, R298). -/
def tasteAlone (p : Plane) (d : Dev) : Dev :=
  if d.planeState p ≠ 1 then d
  else
    let n := (d.role p).tasteCyc + 1
    if n < d.rd .RED_CFG_TASTE_CYC then d.updRole p (fun r => { r with tasteCyc := n })
    else rejoinFail p (tasteFail p 3 d)

/-- Missing signatures at a φ5 start (R290). -/
def tastePhase5 (d : Dev) : Dev := bothPlanes tasteAlone (tasteBoth d)

/-- A plane that was OUT is released from reset at the boundary after its loss (R298). -/
def releaseOut (p : Plane) (d : Dev) : Dev :=
  if d.planeState p = 2 && !(d.role p).retry then setPlaneState p 3 d else d

/-- A tasting signature reaches the arbiter (R290, R298). -/
def tasteSignature (p : Plane) (ok : Bool) (lines : Nat) (d : Dev) : Dev :=
  if d.planeState p = 1 then
    if ok then
      ((setPlaneState p 4 (d.wr (if p = .A then .RED_TASTE_A else .RED_TASTE_B) 1)).wr .RED_BULK_PASS 1).wr
        .RED_BULK_LINES lines
    else rejoinFail p (tasteFail p 2 d)
  else if !d.tasteBusy p || !d.runs p then d
  else if ok then setVerdict p true (d.wr (if p = .A then .RED_TASTE_A else .RED_TASTE_B) 1)
  else setVerdict p false (tasteFail p 2 d)

/-- A bulk racking pass finishes with `marked` PAIRED lines written since their copy (R298, R299). -/
def bulkPassDone (p : Plane) (marked : Nat) (d : Dev) : Dev :=
  if d.planeState p ≠ 4 then d
  else if marked = 0 then (d.wr .RED_BULK_LINES 0).updRole p (fun r => { r with joinReady := true })
  else if 64 ≤ d.rd .RED_BULK_PASS then rejoinFail p d
  else ((d.wr .RED_BULK_PASS (d.rd .RED_BULK_PASS + 1)).wr .RED_BULK_LINES marked).updRole p (fun r => { r with
    joinReady := false })

/-- One second after a failed rejoin the plane starts again: it is released at the next boundary (R298, R299). -/
def rejoinRetry (p : Plane) (d : Dev) : Dev :=
  if d.planeState p = 2 then d.updRole p (fun r => { r with retry := false }) else d

/-- A plane that racking brought up to date joins at the boundary (R298). -/
def joinPlane (p : Plane) (d : Dev) : Dev :=
  if d.planeState p = 4 && d.rack.any (fun r => r.join && r.ok) then
    raise .REJOINED wField [p.num] ((setPlaneState p 0 ((d.wr .RED_BULK_PASS 0).wr .RED_BULK_LINES 0)).updRole p (fun r =>
      { r with joinReady := false, mark := true, claim := none }))
  else d

/-- The die-to-die link lost the arbiter's selects (R295): the SD outputs fall idle at once; only a reset ends it. -/
def arbLink (d : Dev) : Dev :=
  if d.red.linkLost then d
  else raise .ARB_LINK wField [] ((d.updRed (fun r => { r with linkLost := true })).updField (fun f => { f with sdOut := ⟨[], []⟩ }))

/-! ### Racking (R284 to R286) -/

/-- The block of a register key, and its plane. -/
def keyBlk (k : Nat) : Blk := Blk.ofNum (k / 32 / 0x10000 % 16)
def keyPlane (k : Nat) : Plane := if k / 32 < 0x100000 then .A else .B

/-- Copies one plane's entries of some blocks over the other's. -/
def copyKeys {α : Type} (blks : List Blk) (src : Plane) (m : Sparse α) : Sparse α :=
  let mine (e : Nat × α) : Bool := blks.contains (keyBlk e.1)
  let keep := m.filter (fun e => !(mine e && keyPlane e.1 == src.other))
  let from_ := m.filter (fun e => mine e && keyPlane e.1 == src)
  from_.foldl (fun t e => Sparse.put t (if src = .A then e.1 + 0x2000000 else e.1 - 0x2000000) e.2) keep

/-- An item of the receiving plane after racking: where both planes held the same at the φ5 start the copy changes nothing and
what the plane did to it since stays; else it takes the value of the plane copied from. -/
def rackPick {α : Type} [DecidableEq α] (there here now : α) : α := if there = here then now else here

/-- Racks a table entry by entry with `f there here now`. -/
def rackTab {α : Type} (f : α → α → α → α) (there here now : Tab α) : Tab α :=
  forL ((there.cells ++ here.cells).map (·.1)) (fun i t => t.set i (f (there.get i) (here.get i) (now.get i))) now

/-- The loop state of an axis (R170): integrators, gearing, set-point offset and latest command. Its stale counter and winner are
register fields. -/
def rackAxis (o s c : LpeAx) : LpeAx :=
  { c with
    integ := rackPick o.integ s.integ c.integ, gPrev := rackPick o.gPrev s.gPrev c.gPrev, gAcc := rackPick o.gAcc s.gAcc c.gAcc
    gN := rackPick o.gN s.gN c.gN, gP0 := rackPick o.gP0 s.gP0 c.gP0, gRate := rackPick o.gRate s.gRate c.gRate
    ofs := rackPick o.ofs s.ofs c.ofs, vCmd := rackPick o.vCmd s.vCmd c.vCmd, tCmd := rackPick o.tCmd s.tCmd c.tCmd }

/-- Segment queues under racked pointers: the entries are PAIRED and stay (R282), but for what the plane copied from still has
ahead of them; the zone sets formed at look-ahead entry are racked. -/
def rackQueue (here now : List Seg) : List Seg :=
  let missing := here.take (here.length - now.length)
  let own := now.drop (now.length - here.length)
  (missing ++ own).zipWith (fun g h => { g with zones := h.zones }) here ++ (missing ++ own).drop here.length

/-- An arm's state, path parameters, profile and look-ahead (R284). -/
def rackArm (o s c : ArmSt) : ArmSt :=
  let x := rackPick { o with q := [] } { s with q := [] } { c with q := [] }
  { x with q := if o.q = s.q then c.q else rackQueue s.q c.q }

/-- The solver items of R140: the buffer that is not current, the current-buffer index, the history and the counts of the status word,
whose fields are register fields. -/
def rackMat (o s c : MatSt) : MatSt :=
  { c with
    buf0 := if s.cur then rackPick o.buf0 s.buf0 c.buf0 else c.buf0
    buf1 := if s.cur then c.buf1 else rackPick o.buf1 s.buf1 c.buf1
    cur := rackPick o.cur s.cur c.cur, x1 := rackPick o.x1 s.x1 c.x1, x2 := rackPick o.x2 s.x2 c.x2
    age := rackPick o.age s.age c.age, starved := rackPick o.starved s.starved c.starved
    delivered := rackPick o.delivered s.delivered c.delivered }

/-- A register field is in the racking set (R284): PEND and APPLY_CNT of LPE, PPE and SLV; the loop state; arm and axis states,
indices and lags, tokens and waits, coupled-block states; matrix status; task descriptors and timers. `o` is the word's offset in its
block and `lo` the field's lowest bit. -/
def rackedField (b : Blk) (o lo : Nat) : Bool :=
  let within (first next : Nat) : Bool := decide (first ≤ o) && decide (o < next)
  let pend := o == 4 && (lo == 1 || lo == 16)
  match b with
  | .lpe =>
    pend || (o == 8 && lo == 16) || (within 0x100 0x2100 && ((o % 64 == 4 && (lo == 0 || lo == 2 || lo == 3)) || o % 64 == 0x30 ||
      o % 64 == 0x34)) || (within 0x2400 0x6400 && o % 32 == 0x10) || (within 0x7000 0x7040 && o % 16 == 12)
  | .ppe =>
    pend || (within 0x100 0x200 && o % 32 != 0) || (within 0x800 0x1000 && (o % 32 == 4 || o % 32 == 8 || o % 32 == 12)) ||
      (within 0x1000 0x1100 && (lo == 0 || lo == 4 || lo == 24)) ||
      (within 0x1100 0x1140 && ((o % 16 == 0 && (lo == 8 || lo == 13 || lo == 14)) || o % 16 == 12))
  | .slv => pend || (within 0x800 0x1000 && o % 8 == 0)
  | .tsk => (o == 8 && lo == 11) || within 0x400 0xC00 || within 0x8000 0x10000
  | _ => false

/-- A register key of plane `p` whose field is racked. -/
def rackedKey (p : Plane) (k : Nat) : Bool := keyPlane k == p && rackedField (keyBlk k) (k / 32 % 0x10000) (k % 32)

/-- A key of plane A as the same field's key of plane B; and the keys of a plane as those of plane A. -/
def planeShift : Nat := 0x2000000
def baseKey (p : Plane) (k : Nat) : Nat := if p = .A then k else k - planeShift
def keyOf (p : Plane) (k : Nat) : Nat := if p = .A then k else k + planeShift

/-- The pending sets of plane `p` that are racked (R284). -/
def rackedSet (p : Plane) (a : ApplySet) : Bool := a.plane == p && (a.blk == .lpe || a.blk == .ppe || a.blk == .slv)

/-- The racking set of plane `p` as it stands, register keys as those of plane A. -/
def rackSide (p : Plane) (mem : Plane → PlaneMems) (d : Dev) : RackSide :=
  let x := d.pl p
  { lpe := x.lpe, ppe := x.ppe, task := x.task, mats := x.slv.mats
    regs := (d.regs.filter (fun e => rackedKey p e.1)).map (fun e => (baseKey p e.1, e.2))
    sets := (d.applySets.filter (rackedSet p)).map (fun a => { a with plane := .A }), mem := mem p }

/-- Whether the racking of this cycle copies: to a shadow in step, or to a plane that may join (R285, R298), and not while tasting runs
(R291). -/
def Dev.racks (d : Dev) : Bool :=
  !d.red.taste.on && (d.inStep || (decide (d.planeState d.shadow = 4) && (d.role d.shadow).joinReady))

/-- The φ5 start takes the racking sets of both planes (R285). -/
def startRack (mem : Plane → PlaneMems) (d : Dev) : Dev :=
  if d.racks then { d with rack := some { src := d.active, join := !d.inStep, here := rackSide d.active mem d
                                          there := rackSide d.shadow mem d } }
  else { d with rack := none }

/-- The racked register fields of plane `dst`. -/
def rackRegs (dst : Plane) (r : RackRun) (regs : Sparse Nat) : Sparse Nat :=
  forL ((r.there.regs ++ r.here.regs).map (·.1)) (fun k m =>
    let now := Sparse.find m (keyOf dst k)
    match rackPick (Sparse.find r.there.regs k) (Sparse.find r.here.regs k) now with
    | some v => Sparse.put m (keyOf dst k) v
    | none => Sparse.del m (keyOf dst k)) regs

/-- The racking set but for memory reaches the receiving plane: loops, paths, cooperation, solver items, dispatch and staging
(R284). Of the paths, set-point records, override entries and tables are not racked. -/
def rackSet (dst : Plane) (r : RackRun) (d : Dev) : Dev :=
  let o := r.there
  let s := r.here
  let own := d.applySets.filter (rackedSet dst)
  let d1 := d.updPl dst (fun x => { x with
    lpe := { x.lpe with ax := rackTab rackAxis o.lpe.ax s.lpe.ax x.lpe.ax, ai := rackTab rackPick o.lpe.ai s.lpe.ai x.lpe.ai }
    ppe := { x.ppe with
      arms := rackTab rackArm o.ppe.arms s.ppe.arms x.ppe.arms, aux := rackTab rackPick o.ppe.aux s.ppe.aux x.ppe.aux
      blks := rackTab rackPick o.ppe.blks s.ppe.blks x.ppe.blks, prox := rackTab rackPick o.ppe.prox s.ppe.prox x.ppe.prox }
    task := { x.task with
      q := rackTab rackPick o.task.q s.task.q x.task.q, held := rackTab rackPick o.task.held s.task.held x.task.held
      timers := rackTab rackPick o.task.timers s.task.timers x.task.timers }
    slv := { x.slv with mats := rackTab rackMat o.mats s.mats x.slv.mats } })
  { d1 with
    regs := rackRegs dst r d1.regs
    applySets := d1.applySets.filter (fun a => !rackedSet dst a) ++
      (rackPick o.sets s.sets (own.map (fun a => { a with plane := .A }))).map (fun a => { a with plane := dst }) }

/-- A joining plane takes everything that is RACKED or PAIRED (R298): the units, their registers with the staging copies, and the
pending sets. -/
def bulkSet (src : Plane) (d : Dev) : Dev :=
  let s := d.pl src
  let dst := src.other
  let d1 := d.updPl dst (fun x => { x with lpe := s.lpe, ppe := s.ppe, task := s.task, slv := s.slv })
  { d1 with
    regs := copyKeys [.lpe, .ppe, .slv, .tsk] src d1.regs, staging := copyKeys [.lpe, .ppe, .slv] src d1.staging
    applySets := d1.applySets.filter (fun a => a.plane != dst || !a.blk.starred) ++
      ((d1.applySets.filter (fun a => a.plane == src && a.blk.starred)).map (fun a => { a with plane := dst })) }

/-- Racking of the cycle ends (R285): the generations, the close marks and the role claims. What it copied reaches the receiving
plane at the closing boundary (R40). -/
def rackDev (crcOk markA markB : Bool) (claimA claimB : Option Plane) (d : Dev) : Dev :=
  let src := d.active
  let dst := src.other
  let d1 := (d.updRole .A (fun r => { r with mark := markA, claim := claimA })).updRole .B (fun r => { r with
    mark := markB, claim := claimB })
  let d2 := { d1 with cyc := { d1.cyc with rackDone := true, rackOk := crcOk } }
  if d.red.taste.on then d2
  else if !crcOk then d2.updRed (fun r => { r with rackFail := true })
  else
    let d3 := d2.updRole src (fun r => { r with gen := (r.gen + 1) % 65536 })
    let g := (d3.role src).gen
    match d.rack with
    | some r => { d3 with rack := some { r with ok := true } }.updRole dst (fun x => { x with gen := g })
    | none => d3

/-! ### Reversion and riddling (R300 to R303) -/

/-- A boundary has just opened the cycle that runs, and it is quiet: a mismatch lies more than 16 cycles back (R292, R300). -/
def Dev.quiet (d : Dev) : Bool :=
  d.cyc.running && decide (d.rd .SYS_PHASE = 0) && d.runs .A && d.inStep && decide (17 ≤ d.red.sinceMis) && !d.red.taste.on &&
  !bit (d.rd .SAF_DEGR_CAUSE) 3 && !bit (d.rd .SAF_DEGR_CAUSE) 4

/-- The timers of R301 and R302 over the cycle of `ns` nanoseconds that closes, by the roles and states that it had. -/
def roleTimers (ns : Nat) (d0 : Dev) : Dev :=
  let d := if d0.active = .B && d0.rd .RED_ROLE_RIDDLE = 1 then d0.updRed (fun r => { r with swap := r.swap + 1 }) else d0
  let d1 := if d.active = .B then
      if !d.runs .A || !d.inStep then
        ((d.wr .RED_TIMER_REVERT_REMAIN (d.rd .RED_CFG_REVERT_T)).wr .RED_ROLE_REVERT_PEND 0).updRed (fun r => { r with
          revertNs := 0 })
      else
        let n := d.red.revertNs + ns
        let left := d.rd .RED_TIMER_REVERT_REMAIN - n / 1000000000
        ((d.wr .RED_TIMER_REVERT_REMAIN left).wr .RED_ROLE_REVERT_PEND (b2n (left == 0))).updRed (fun r => { r with
          revertNs := n % 1000000000 })
    else d
  if d1.active = .A && d1.inStep then
    let n := d1.red.riddleNs + ns
    (d1.wr .RED_TIMER_RIDDLE_REMAIN (d1.rd .RED_TIMER_RIDDLE_REMAIN - n / 60000000000)).updRed (fun r => { r with
      riddleNs := n % 60000000000 })
  else d1

/-- The token returns to plane A at a quiet boundary (R301), which ends a riddling swap. -/
def revert (d : Dev) : Dev :=
  if d.active = .B && d.rd .RED_TIMER_REVERT_REMAIN = 0 && d.quiet then
    raise .REVERT wField [] ((giveToken .A d).wr .RED_ROLE_RIDDLE 0)
  else d

/-- The riddling swap starts at a quiet boundary (R302). -/
def riddleStart (d : Dev) : Dev :=
  if d.active = .A && d.rd .RED_TIMER_RIDDLE_REMAIN = 0 && d.quiet then
    raise .RIDDLE_START wField [] ((giveToken .B d).wr .RED_ROLE_RIDDLE 1)
  else d

/-- After 1,024 cycles the token returns to plane A at a quiet boundary (R302). -/
def riddleEnd (d : Dev) : Dev :=
  if d.active = .B && d.rd .RED_ROLE_RIDDLE = 1 && 1024 ≤ d.red.swap && d.quiet then
    raise .RIDDLE_END wField [] ((giveToken .A d).wr .RED_ROLE_RIDDLE 0)
  else d

/-- No quiet boundary within 60 s of an instant of R302: noted once. -/
def riddleDefer (d : Dev) : Dev :=
  let due := (d.active = .A && d.rd .RED_TIMER_RIDDLE_REMAIN = 0) ||
    (d.rd .RED_ROLE_RIDDLE = 1 && decide (1024 ≤ d.red.swap))
  if due && !d.red.deferred then raise .RIDDLE_DEFER wField [] (d.updRed (fun r => { r with deferred := true })) else d

/-- RIDDLE_NOW and CLR_CNT of RED_CMD. -/
def riddleNow (d : Dev) : Dev := d.wr .RED_TIMER_RIDDLE_REMAIN 0
def redClear (d : Dev) : Dev :=
  (((d.wr .RED_CMP_MISMATCH 0).wr .RED_CMP_KIND 0).wr .RED_CMP_IDX_INDEX 0).wr .RED_CMP_CYC_CYCNT 0

/-- The role part of a boundary: timers, rejoin steps, decision, and the racking generations shown from it (R40, R292). -/
def roleBoundary (ns : Nat) (d : Dev) : Dev :=
  let d1 := bothPlanes releaseOut (roleTimers ns d)
  let d2 := joinPlane d.shadow d1
  let d3 := arbitrate d2
  let clr (r : PlaneRole) : PlaneRole := { r with mark := false, claim := none }
  let d4 := d3.updRed (fun r => { r with
    a := clr r.a, b := clr r.b, rackFail := false, sinceMis := min 1000 (r.sinceMis + 1) })
  (d4.wr .RED_RACK_GEN (d4.role d4.active).gen).wr .RED_RACK_GEN_SHADOW_GEN (d4.role d4.shadow).gen

end Sys2Proof.Machine
end

