-- ==== Sys2Proof/Machine/Cores.lean ====
section
/-! DEFINITION. How a core executes: when it can, what completing an instruction does, and taking an exception as one shared
operation (15_cores_datapath.md R432 to R435). -/

namespace Sys2Proof.Machine

/-- A SLV_DELTA store of core `c` waits for room (R123). -/
def Dev.deltaStalled (d : Dev) (p : Plane) (c : Nat) : Bool := (d.pl p).slv.stalled.any (fun x => x.core == c)

/-- A core is OFF: it has no CODE section, or the power state has parked it (R463). -/
def Dev.coreOff (d : Dev) (p : Plane) (c : Nat) : Bool := !(d.core p c).loaded || (d.core p c).parked

/-- A core can execute an instruction: it has started, its plane runs, and it neither sleeps, halts, nor waits in a store or a
FENCE. -/
def Dev.coreActive (d : Dev) (p : Plane) (c : Nat) : Bool :=
  let k := d.core p c
  decide (c < 10) && d.runs p && !d.coreOff p c && k.started && (!k.halted || k.step) && !k.asleep && k.stall.isNone && !k.fence &&
    !d.deltaStalled p c

/-- What a core does by an instruction happens only while it can execute one. -/
def coreDo (p : Plane) (c : Nat) (f : Dev → Dev) (d : Dev) : Dev := if d.coreActive p c then f d else d

/-- The same for an effect that reaches memories. -/
def coreDoP (p : Plane) (c : Nat) (f : Part → Part) (s : Part) : Part := if s.dev.coreActive p c then f s else s

/-- An exception: its cause (R432), the code recorded for it, the faulting data address, the TRAP number, and whether it is
taken after its instruction has completed. -/
structure Exc where
  cause : Nat
  code : Code
  eaddr : Nat := 0
  trapno : Nat := 0
  deriving DecidableEq, Repr

def excIllegal : Exc := { cause := 1, code := .CORE_ILLEGAL }
def excBus (c : Code) (a : Nat) : Exc := { cause := 2, code := c, eaddr := a }
def excAlign (a : Nat) : Exc := { cause := 3, code := .CORE_ALIGN, eaddr := a }
def excFtap (a : Nat) : Exc := { cause := 4, code := .CORE_FTAP_REGION, eaddr := a }
def excLost (a : Nat) : Exc := { cause := 5, code := .CORE_WRITE_LOST, eaddr := a }
def excTrap (n : Nat) : Exc := { cause := 6, code := .CORE_TRAP, trapno := n }

/-- ECAUSE of an exception: CAUSE, TRAPNO and CODE (R419). -/
def Exc.ecause (x : Exc) : Word := BitVec.ofNat 32 (x.cause % 16 + x.trapno % 256 * 256 + x.code.num % 65536 * 65536)

/-- The core's registers as an exception with return address `epc` leaves them (R433). -/
def Core.enter (k : Core) (x : Exc) (epc : Word) : Core :=
  { k with
    epc := epc
    ecsw := k.csw
    ecause := x.ecause
    eaddr := BitVec.ofNat 32 x.eaddr
    csw := wset (wset k.csw cswExc true) cswIe false
    pc := k.evb + BitVec.ofNat 32 (x.cause * 16)
    entryWin := none
    step := false }

/-- TAKING AN EXCEPTION (R433, R435): the registers of R433 and the record with core, EPC and EADDR; while EXC is 1 the core
halts instead, with fault CORE_HALT (R434). `k` is the core as the instruction leaves it, `epc` the address of the exception
table. -/
def takeExc (p : Plane) (c : Nat) (k : Core) (x : Exc) (epc : Word) (d : Dev) : Dev :=
  if wbit k.csw cswExc then raiseP p .CORE_HALT [c, x.cause] (d.setCore p c { k with halted := true, step := false })
  else raiseP p x.code [c, epc.toNat, x.eaddr] (d.setCore p c (k.enter x epc))

/-- What an instruction does to its core: it completes with new registers, the pc already set, or it raises an exception
before any effect. -/
inductive CoreRes where
  | done (k : Core)
  | exc (x : Exc)
  deriving DecidableEq, Repr

/-- The core after its pc moves past the instruction. -/
def Core.next (k : Core) : Core := { k with pc := k.pc + 4, entryWin := none, step := false }

/-- The core after a jump. -/
def Core.jump (k : Core) (t : Word) : Core := { k with pc := t, entryWin := none, step := false }

/-- One instruction of a core that can execute: checked in full before any effect (R432). -/
def instrDo (p : Plane) (c : Nat) (f : Core → CoreRes) (d : Dev) : Dev :=
  if d.coreActive p c then
    match f (d.core p c) with
    | .done k => d.setCore p c k
    | .exc x => takeExc p c (d.core p c) x (d.core p c).pc d
  else d

/-- An instruction that only changes registers and cannot raise an exception. -/
def instrReg (p : Plane) (c : Nat) (f : Core → Core) (d : Dev) : Dev := instrDo p c (fun k => .done (f k).next) d

end Sys2Proof.Machine
end

