-- ==== Sys2Proof/Machine/MemOps.lean ====
section
/-! DEFINITION. The byte memories of the part (17_memory.md): reading, writing and copying bytes in canonical form, the line
classes, the address map of a core with its checks, bank power, and the error effects of SRAM and DRAM. -/

namespace Sys2Proof.Machine

/-! ### Bytes -/

/-- The canonical form of a memory: addresses strictly rising, no entry equal to the 0 that an unlisted byte reads as. -/
def Mem.wf (m : Mem) : Bool := Sparse.rising m && m.all (fun e => e.2 != 0)

/-- The byte at an address; an unlisted byte reads 0 (DESIGN CHOICE, log entry 23). -/
def Mem.byte (m : Mem) (a : Nat) : Byte := (Sparse.find m a).getD 0

/-- Writes one byte and keeps the canonical form. -/
def Mem.put (m : Mem) (a : Nat) (b : Byte) : Mem := if b = 0 then Sparse.del m a else Sparse.put m a b

/-- The `n` bytes from `a` as one number, the lowest address least significant (R4). -/
def Mem.read (m : Mem) (a : Nat) : Nat → Nat
  | 0 => 0
  | n + 1 => (m.byte a).toNat + 256 * Mem.read m (a + 1) n

/-- Writes `n` bytes of `v` from `a`, least significant first (R4). -/
def Mem.write (m : Mem) (a : Nat) : Nat → Nat → Mem
  | 0, _ => m
  | n + 1, v => Mem.write (m.put a (BitVec.ofNat 8 v)) (a + 1) n (v / 256)

/-- Writes a list of bytes from `a`. -/
def Mem.writeBytes (m : Mem) (a : Nat) : List Byte → Mem
  | [] => m
  | b :: t => Mem.writeBytes (m.put a b) (a + 1) t

/-- The bytes of a number, least significant first. -/
def bytesOf : Nat → Nat → List Byte
  | 0, _ => []
  | n + 1, v => BitVec.ofNat 8 v :: bytesOf n (v / 256)

/-- A memory whose bytes from `lo` to `hi - 1` come from `src` and whose others stay. -/
def Mem.copyRange (src dst : Mem) (lo hi : Nat) : Mem :=
  forL (src.filter (fun e => decide (lo ≤ e.1) && decide (e.1 < hi))) (fun e m => m.put e.1 e.2)
    (dst.filter (fun e => decide (e.1 < lo) || decide (hi ≤ e.1)))

/-- A memory whose bytes from `lo` to `hi - 1` are 0. -/
def Mem.zeroRange (m : Mem) (lo hi : Nat) : Mem := m.filter (fun e => decide (e.1 < lo) || decide (hi ≤ e.1))

/-- The memories of plane `p`. -/
def Mems.pl (m : Mems) : Plane → PlaneMems
  | .A => m.a
  | .B => m.b

/-- Replaces the memories of plane `p`. -/
def Mems.setPl (m : Mems) (p : Plane) (x : PlaneMems) : Mems :=
  match p with
  | .A => { m with a := x }
  | .B => { m with b := x }

/-- Local memory of core `c` of plane `p`. -/
def Mems.loc (m : Mems) (p : Plane) (c : Nat) : Mem := (m.pl p).loc.get c

/-- Replaces the local memory of core `c` of plane `p`. -/
def Mems.setLoc (m : Mems) (p : Plane) (c : Nat) (x : Mem) : Mems :=
  m.setPl p { (m.pl p) with loc := (m.pl p).loc.set c x }

/-- Replaces the state memory of plane `p`. -/
def Mems.setState (m : Mems) (p : Plane) (x : Mem) : Mems := m.setPl p { (m.pl p) with state := x }

/-- Passes the memories through `f`. -/
def Part.onMems (s : Part) (f : Mems → Mems) : Part := { s with mems := f s.mems }

/-! ### Sizes and classes -/

/-- Bytes of local memory, of state memory, of one bank of it, and of solver work memory (R465). -/
def locBytes : Nat := 0x40000
def stateBytes : Nat := 0x400000
def bankBytes : Nat := 0x20000
def solverBytes : Nat := 0x100000

/-- Usable bytes of the DRAM device: seven eighths of it (R476). -/
def Dev.dramUsable (d : Dev) : Nat :=
  let s := d.rd .MEM_DRAM_STAT_SIZE
  if s = 0 ∨ 4 < s then 0 else 2 ^ (28 + s) / 8 * 7

/-- The plane's DRAM partition (R477, R478). -/
def Dev.partition (d : Dev) : Plane → Place
  | .A => d.pat.mem.partA
  | .B => d.pat.mem.partB

/-- The class of a byte of space 0 to 9 (local), 10 (state) or 11 (solver) (R282, R472); unclassed bytes are SCRATCH. -/
def memClass (d : Dev) (space off : Nat) : MemClass :=
  match d.pat.mem.regions.find? (fun r => r.space == space && decide (r.lo ≤ off) && decide (off < r.hi)) with
  | some r => r.cls
  | none => .scratch

/-- Some byte of `off` to `off + n - 1` is in a CONST line. -/
def anyConst (d : Dev) (space off n : Nat) : Bool := (List.range n).any (fun i => memClass d space (off + i) == .const)

/-- A store to these bytes stalls: racking runs and some of them are in a RACKED line, in either plane (R285). -/
def rackHolds (d : Dev) (space off n : Nat) : Bool :=
  d.rack.isSome && !d.cyc.rackDone && (List.range n).any (fun i => memClass d space (off + i) == .racked)

/-- Notes what the receiving plane writes after racking ended and before its result is seen (R40, R285). -/
def noteStore (p : Plane) (space off n : Nat) (d : Dev) : Dev :=
  match d.rack with
  | some r => if r.ok && r.src.other = p then { d with rack := some { r with written := r.written ++ [(space, off, n)] } } else d
  | none => d

/-! ### The address map of a core (R22, R466, R478) -/

/-- What an address of a core reaches, as an offset in it. -/
inductive Target where
  | loc (a : Nat)
  | state (a : Nat)
  | solver (a : Nat)
  | view (a : Nat)
  | dram (a : Nat)
  deriving DecidableEq, Repr

/-- The target of `n` bytes at `a`; none when some of them lie outside every region (BUS_REGION). -/
def target (d : Dev) (p : Plane) (a n : Nat) : Option Target :=
  if a + n ≤ locBytes then some (.loc a)
  else if 0x10000000 ≤ a && a + n ≤ 0x10000000 + stateBytes then some (.state (a - 0x10000000))
  else if 0x18000000 ≤ a && a + n ≤ 0x18000000 + solverBytes then some (.solver (a - 0x18000000))
  else if 0x40000000 ≤ a && a + n ≤ 0x40100000 then some (.view (a - 0x40000000))
  else if 0x80000000 ≤ a && a + n ≤ 0xC0000000 && a - 0x80000000 + n ≤ (d.partition p).size then
    some (.dram ((d.partition p).base + (a - 0x80000000)))
  else if 0xC0000000 ≤ a && a + n ≤ 0x100000000 && a - 0xC0000000 + n ≤ d.dramUsable then some (.dram (a - 0xC0000000))
  else none

/-- Banks of state memory that `n` bytes at offset `a` touch. -/
def banksOf (a n : Nat) : List Nat := if a / bankBytes = (a + n - 1) / bankBytes then [a / bankBytes] else [a / bankBytes, (a + n - 1) / bankBytes]

/-- Bank power of plane `p`. -/
def Dev.bank (d : Dev) (p : Plane) (b : Nat) : BankPwr := (d.pl p).mem.bank.get b

/-- A bank refuses accesses: OFF, also while a request is pending (R474). -/
def bankOff (d : Dev) (p : Plane) (a n : Nat) : Bool := (banksOf a n).any (fun b => d.bank p b == .off)

/-- The checks of a load or store in full (R432, R466, R471 to R474): the target, or the code of the bus error. -/
def accessCheck (d : Dev) (p : Plane) (c a n : Nat) (store atomic : Bool) : Except Code Target :=
  match target d p a n with
  | none => .error .BUS_REGION
  | some t =>
    match t with
    | .loc x =>
      if atomic then .error .BUS_REGION
      else if store && anyConst d c x n then .error .WRITE_PROTECT else .ok t
    | .state x =>
      if atomic && a % 4 != 0 then .error .MISALIGNED_ATOMIC
      else if bankOff d p x n then .error .BANK_OFF
      else if store && anyConst d 10 x n then .error .WRITE_PROTECT
      else .ok t
    | .solver _ => if atomic then .error .BUS_REGION else if store then .error .WRITE_PROTECT else .ok t
    | .view _ => if atomic then .error .BUS_REGION else .ok t
    | .dram _ =>
      if atomic then .error .BUS_REGION
      else if store && decide (0xC0000000 ≤ a) then .error .WRITE_PROTECT else .ok t

/-! ### Bank power (R473, R474) -/

/-- The code of a bank state in MEM_BANKPWR. -/
def BankPwr.num : BankPwr → Nat
  | .on => 0
  | .ret => 1
  | .off => 2

/-- The bank state of a code; 3 is none. -/
def BankPwr.ofNum : Nat → Option BankPwr
  | 0 => some .on
  | 1 => some .ret
  | 2 => some .off
  | _ => none

/-- Passes the bank state of plane `p` through `f`. -/
def Dev.updMem (d : Dev) (p : Plane) (f : PlaneMem → PlaneMem) : Dev := d.updPl p (fun x => { x with mem := f x.mem })

/-- MEM_BANKPWR words of a plane show the banks' present states. -/
def showBanks (p : Plane) (d : Dev) : Dev :=
  forN 2 (fun i d => d.wrP p .MEM_BANKPWR (((List.range 16).map (fun j => (d.bank p (16 * i + j)).num * 4 ^ j)).foldl (· + ·) 0) i) d

/-- Sets the state of a bank. -/
def setBank (p : Plane) (b : Nat) (s : BankPwr) (d : Dev) : Dev :=
  showBanks p (d.updMem p (fun m => { m with bank := m.bank.set b s }))

/-- A core access wakes a bank in RET (R474). -/
def wakeBanks (p : Plane) (a n : Nat) (d : Dev) : Dev :=
  forL (banksOf a n) (fun b d => if d.bank p b = .ret then setBank p b .on d else d) d

/-- A bank holds a RACKED, PAIRED or CONST line or an engine region (R474). -/
def bankLocked (d : Dev) (b : Nat) : Bool :=
  d.pat.mem.engineBanks.contains b ||
    d.pat.mem.regions.any (fun r => r.space == 10 && r.cls != .scratch && decide (r.lo < (b + 1) * bankBytes) &&
      decide (b * bankBytes < r.hi) && decide (r.lo < r.hi))

/-- A request for a bank (R474): ignored with BANK_LOCKED for a locked bank, else the last acknowledged one stands. -/
def bankRequest (p : Plane) (b code : Nat) (d : Dev) : Dev :=
  match BankPwr.ofNum code with
  | none => d
  | some s =>
    if bankLocked d b then raiseP p .BANK_LOCKED [b, code] d
    else d.updMem p (fun m => { m with bankReq := m.bankReq.set b (some s) })

/-- A write of MEM_BANKPWR LO (`i` 0) or HI (`i` 1) in plane `p`. -/
def bankPwrWrite (p : Plane) (i w : Nat) (d : Dev) : Dev :=
  forN 16 (fun j d => bankRequest p (16 * i + j) (w / 4 ^ j % 4) d) d

/-- The boundary takes the requests of a plane (R474): a bank that leaves OFF is filled with zeros, one that goes OFF loses its
contents. Contents lost are modelled as zeros, which the fill writes before they can be read. -/
def bankBoundary (p : Plane) (s : Part) : Part :=
  let s1 := forN 32 (fun b (s : Part) =>
    match ((s.dev.pl p).mem.bankReq.get b) with
    | none => s
    | some r =>
      let old := s.dev.bank p b
      let d1 := setBank p b r s.dev
      let d2 := if old = .off && r != .off then d1.updMem p (fun m => { m with filling := m.filling.filter (· != b) ++ [b] }) else d1
      { s with
        dev := d2
        mems := if old = .off || r = .off then
            s.mems.setState p ((s.mems.pl p).state.zeroRange (b * bankBytes) ((b + 1) * bankBytes))
          else s.mems }) s
  s1.onDev (fun d => d.updMem p (fun m => { m with bankReq := ⟨none, []⟩ }))

/-- A bank finishes its zero fill (R474). -/
def bankFillDone (p : Plane) (b : Nat) (d : Dev) : Dev :=
  d.updMem p (fun m => { m with filling := m.filling.filter (· != b) })

/-! ### Memory errors (R470, R475, R476) -/

/-- A single-bit error in a plane's SRAM: corrected, written back, counted (R475). -/
def sramCe (p : Plane) (d : Dev) : Dev :=
  raiseMem p .SRAM_CE [p.num] (d.wrP p .MEM_ECC_CE (satU 16 (d.rdP p .MEM_ECC_CE + 1)))

/-- A plane is handled as one that failed tasting (R293, R475): the arbiter sees the verdict at the next boundary, and the
other plane counts as passed when no tasting judges it. -/
def failPlane (p : Plane) (d : Dev) : Dev :=
  if !d.runs p then d
  else d.updRed (fun r =>
    let t := r.taste
    let good (v : Option Bool) : Option Bool := if t.on then v else some true
    match p with
    | .A => { r with taste := { t with on := true, a := some false, b := good t.b } }
    | .B => { r with taste := { t with on := true, a := good t.a, b := some false } })

/-- An uncorrectable error in a plane's SRAM (R475). -/
def sramUe (p : Plane) (d : Dev) : Dev :=
  failPlane p (raiseMem p .SRAM_UE [p.num] (d.wrP p .MEM_ECC_UE (satU 8 (d.rdP p .MEM_ECC_UE + 1))))

/-- A corrected and an uncorrectable DRAM error (R476); `a` is the usable offset of the line. The registers of the one controller read
the same in both views. -/
def dramCe (d : Dev) : Dev := raise .DRAM_CE wShared [] (d.wrBoth .MEM_DRAM_ECC_CE (satU 16 (d.rd .MEM_DRAM_ECC_CE + 1)))
def dramUe (a : Nat) (d : Dev) : Dev :=
  raise .DRAM_UE wShared [a / 64 * 64] ((d.wrBoth .MEM_DRAM_ECC_UE (satU 16 (d.rd .MEM_DRAM_ECC_UE + 1))).wrBoth
    .MEM_DRAM_UEADDR_ADDR (a / 64 * 64))

/-- The DRAM controller scrubs the line at usable offset `a` (R476). -/
def dramScrub (a : Nat) (e : Ecc) (d : Dev) : Dev :=
  if d.dramUsable ≤ a then d
  else match e with
  | .clean => d
  | .single => dramCe d
  | .double => dramUe a d

/-- A core's write was discarded in favour of port E (R470): WLOST, core, address, count and the notification. -/
def noteLost (p : Plane) (c a : Nat) (d : Dev) : Dev :=
  raiseMem p .WRITE_LOST [c, a, d.rd .SYS_CYCNT] ((((d.wrP p .MEM_WLOST 1).wrP p .MEM_WLOST_CORE c).wrP p .MEM_WLOST_ADDR a).wrP p
    .MEM_WLOST_COUNT (satU 16 (d.rdP p .MEM_WLOST_COUNT + 1)))

end Sys2Proof.Machine
end

