-- ==== Sys2Proof/Machine/TimeBase.lean ====
section
/-! DEFINITION. The time bases (11_time_bases.md R305 to R331): rates, slews, first locks, steps, holdover, shaft time, the
IEEE 1588 stamp queues and the timed event outputs. -/

namespace Sys2Proof.Machine

/-- Base `b`. -/
def Dev.bs (d : Dev) (b : Nat) : BaseSt := d.time.bases.get b

/-- Passes the time unit's state through `f`. -/
def Dev.updTime (d : Dev) (f : TimeSt → TimeSt) : Dev := { d with time := f d.time }

/-- Passes base `b` through `f`. -/
def Dev.updBase (d : Dev) (b : Nat) (f : BaseSt → BaseSt) : Dev := d.updTime (fun t => { t with bases := t.bases.upd b f })

/-- Passes timed event output `o` through `f`. -/
def Dev.updTev (d : Dev) (o : Nat) (f : TevSt → TevSt) : Dev := d.updTime (fun t => { t with tev := t.tev.upd o f })

/-- This controller leads ring timing: it leads a port (R26, R390). -/
def Dev.leads (d : Dev) : Bool := (List.range 4).any (fun p => d.rd .LS_STATE_ROLE p == 1)

/-- Sources of TBn_CTL.SRC. -/
def srcFree : Nat := 0
def srcRing : Nat := 1
def srcPtp : Nat := 2
def srcPulse : Nat := 3
def srcFollow : Nat := 4
def srcFixed : Nat := 5

/-- The source of base `b`; TB3 is fixed (R305). -/
def Dev.src (d : Dev) (b : Nat) : Nat := if b = 3 then srcFixed else d.rd .TB_CTL_SRC b

/-! ### Rate and slew (R308, R309, R313, R314) -/

/-- The bound on rate and slew together: 1,000 ppm of the nominal increment. -/
def incBound : Int := 171798691

/-- A REFCLK period in units of 2^-16 ns. -/
def refPeriod : Nat := 40 * nsUnit

/-- The slew still to run: SREM, or for a FOLLOW base its distance from REF + OFS once REF has a value. -/
def Dev.slewLeft (d : Dev) (b : Nat) : Int :=
  if d.src b = srcFollow then
    if d.baseState (d.rd .TB_CTL_REF b) = 0 then 0
    else ((d.bs (d.rd .TB_CTL_REF b)).acc : Int) + signed 32 (d.rd .TB_OFS b) * 2 ^ 32 - (d.bs b).acc
  else (d.bs b).srem

/-- The slew term of one period before the bound: SLEW_PPM of the nominal increment, in whole units as the bound of R309 is,
toward the remaining slew (R314). -/
def Dev.slewTerm (d : Dev) (b : Nat) : Int :=
  let s := d.slewLeft b
  let t := d.rd .TB_CTL_SLEW_PPM b * nomInc / 1000000
  if s = 0 then 0 else if 0 < s then t else -t

/-- What a PULSE base gains in one REFCLK period between two counts, in 2^-32 ns: its last ρ in holdover, nothing behind the furthest
angle, else the period speed (R321 to R323). -/
def Dev.pulseInc (d : Dev) (b : Nat) : Int :=
  let x := d.bs b
  if d.baseState b = 2 then rdiv (x.rho * refPeriod * 65536) (2 ^ 24)
  else if x.pos < x.furthest then 0
  else max 0 (rdiv (signed 32 (d.rd .FB_SPER (16 + d.rd .TB_CTL_PI b)) * ((Sparse.find d.pat.bases b).getD {}).nsPerCount * refPeriod)
    (16 * secUnit))

/-- The rate term of a base, its slew term after the bound, and whether the bound was reached. FOLLOW takes the total
increment of REF, less NOM. -/
def Dev.terms (d : Dev) : Nat → Nat → Int × Int × Bool
  | 0, _ => (0, 0, false)
  | k + 1, b =>
    if d.src b = srcFixed then (0, 0, false)
    else
      let hold := decide (d.baseState b = 2)
      let rate :=
        if hold then (d.bs b).holdRate
        else if d.src b = srcFollow then
          if d.baseState (d.rd .TB_CTL_REF b) = 0 then 0 else
          if d.src (d.rd .TB_CTL_REF b) = srcPulse then d.pulseInc (d.rd .TB_CTL_REF b) - nomInc else
          let t := d.terms k (d.rd .TB_CTL_REF b)
          t.1 + t.2.1
        else signed 32 (d.rd .TB_RATE b)
      let slew := if hold then 0 else d.slewTerm b
      let all := clampI (-incBound) incBound (rate + slew)
      if all = rate + slew then (rate, slew, false)
      else if absI rate ≤ incBound then (rate, all - rate, true)
      else (all, 0, true)

/-- The terms of base `b`; a chain of FOLLOW bases has at most eight members. -/
def Dev.rateOf (d : Dev) (b : Nat) : Int × Int × Bool := d.terms 8 b

/-- One millisecond in units of 2^-32 ns. -/
def msec32 : Int := 1000000 * 2 ^ 32

/-- The status of the bound and of the remaining offset (R309, R314): one notification when either begins. -/
def baseNotes (b : Nat) (clamped : Bool) (d : Dev) : Dev :=
  let d1 :=
    if clamped && !(d.bs b).clampNoted then raise .RATE_CLAMP wShared [b] (d.wr .TB_STAT_CLAMP 1 b) else d
  let far := decide (msec32 < absI (d1.slewLeft b))
  let d2 := if far && !(d1.bs b).farNoted then raise .OFFSET_LARGE wShared [b] d1 else d1
  ((d2.updBase b (fun x => { x with clampNoted := clamped, farNoted := far })).wr .TB_STAT_FAR (b2n far) b)

/-- Shows the remaining slew of a base. -/
def showSrem (b : Nat) (d : Dev) : Dev := d.wr .TB_SREM (unsigned 32 (fitS 32 (rdiv (d.bs b).srem (2 ^ 32)))) b

/-- The bases that keep an accumulator and have a value: all but PULSE bases (R307). -/
def Dev.keepsAcc (d : Dev) (b : Nat) : Bool := d.baseState b != 0 && d.src b != srcPulse

/-- What `n` periods slew a base: SLEW_PPM in each, never past what is left (R314). -/
def Dev.slewOver (d : Dev) (n b : Nat) : Int :=
  let s := (d.rateOf b).2.1
  let left := d.slewLeft b
  if absI left ≤ absI (s * n) then left else s * n

/-- The slew that a base has run is no longer left; a FOLLOW base's distance follows from the bases themselves. -/
def Dev.lessSlew (d : Dev) (b : Nat) (s x : Int) : Int := if d.src b = srcFollow then x else x - s

/-- The REFCLK period that runs ends: every accumulator adds its total increment (R307). -/
def endPeriod (d : Dev) : Dev :=
  forN 8 (fun b e => if d.keepsAcc b then e.updBase b (fun x => { x with acc := x.acc + x.inc }) else e) d

/-- `n` whole periods pass after a REFCLK step. -/
def runPeriods (n : Nat) (d : Dev) : Dev :=
  forN 8 (fun b e =>
    if !d.keepsAcc b then e
    else
      let s := d.slewOver n b
      e.updBase b (fun x => { x with acc := x.acc + (nomInc + (d.rateOf b).1) * n + s, srem := d.lessSlew b s x.srem })) d

/-- A REFCLK period begins: the base takes the total increment of it, and its status is shown (R307, R309, R313; DEDUCED, log entry 197). -/
def latchInc (b : Nat) (d : Dev) : Dev :=
  if !d.keepsAcc b then d
  else
    let t := d.rateOf b
    let s := d.slewOver 1 b
    let d1 := if d.src b = srcFollow then d.wr .TB_RATE (unsigned 32 t.1) b else d
    baseNotes b t.2.2 (showSrem b (d1.updBase b (fun x => { x with
      inc := nomInc + t.1 + s, incSlew := s, srem := d.lessSlew b s x.srem })))

/-- A base takes the value `v` (2^-16 ns) now: its accumulator is what interpolates to it. -/
def setBase (b : Nat) (v : T96) (d : Dev) : Dev :=
  d.updBase b (fun x => { x with acc := (v : Int) * 65536 - x.inc * d.time.sub / subPeriod })

/-- What a PULSE base gains in `dt` parts of a REFCLK period, at its period speed, in 2^-32 ns (R321). -/
def Dev.pulseGo (d : Dev) (b dt : Nat) : Int :=
  max 0 (rdiv (signed 32 (d.rd .FB_SPER (16 + d.rd .TB_CTL_PI b)) * ((Sparse.find d.pat.bases b).getD {}).nsPerCount * refPeriod * dt)
    (16 * secUnit * subPeriod))

/-- A PULSE base runs for `dt` parts of a REFCLK period: at the period speed, never past the anchor of the next count; in holdover at its
last ρ; it holds while the shaft is behind the furthest angle (R321 to R323). -/
def runPulse (d0 : Dev) (dt b : Nat) (d : Dev) : Dev :=
  let x := d0.bs b
  if d0.baseState b = 2 then
    d.updBase b (fun y => { y with acc := y.acc + max 0 (rdiv (x.rho * dt * refPeriod * 65536) (2 ^ 24 * subPeriod)) })
  else if x.pos < x.furthest then d
  else d.updBase b (fun y => { y with
    acc := max y.acc (min (y.acc + d0.pulseGo b dt) (x.anchor + ((Sparse.find d0.pat.bases b).getD {}).nsPerCount)) })

/-- The age of a holdover in ms (R318). -/
def ageBase (dt b : Nat) (d : Dev) : Dev :=
  if d.baseState b = 2 then
    let d1 := d.updBase b (fun x => { x with age := x.age + dt })
    d1.wr .TB_AGE_HOLD_AGE (satU 32 ((d1.bs b).age / (1000000 * nsUnit))) b
  else d

/-- The REFCLK steps of `n` periods, the one that runs among them: TR adds 40 ns at each (R309, R312). -/
def refSteps (n : Nat) (d : Dev) : Dev :=
  if n = 0 then d
  else
    let d1 := runPeriods (n - 1) (endPeriod (d.updTime (fun t => { t with tr := if t.trRun then t.tr + n * refPeriod else t.tr })))
    forN 8 (fun b e => ageBase (n * refPeriod) b (latchInc b e)) d1

/-- TR and every base that has a value run for `dt` parts of a REFCLK period (R307, R312). -/
def runTime (dt : Nat) (d : Dev) : Dev :=
  let sum := d.time.sub + dt
  let d1 := refSteps (sum / subPeriod) (forN 8 (fun b e =>
    if d.baseState b != 0 && d.src b == srcPulse then runPulse d dt b e else e) d)
  d1.updTime (fun t => { t with sub := sum % subPeriod })

/-- The parts of a period, of increment `inc`, in which a base gains `gap`. -/
def partsOf (gap inc : Int) : Nat := if gap ≤ 0 || inc ≤ 0 then 0 else ((gap * subPeriod + inc - 1) / inc).toNat

/-- The parts of periods in which a base gains `gap`: the periods of the list, as a number and an increment, then ones of `last`. -/
def partsTo (gap last : Int) : List (Nat × Int) → Nat
  | [] => if last ≤ 0 then 0 else ((gap - 1) / last).toNat * subPeriod + partsOf (gap - (gap - 1) / last * last) last
  | (m, t) :: r =>
    if gap ≤ 0 then 0
    else if gap ≤ m * t then ((gap - 1) / t).toNat * subPeriod + partsOf (gap - (gap - 1) / t * t) t
    else m * subPeriod + partsTo (gap - m * t) last r

/-- The parts of REFCLK periods until a base that counts reads `t`, at the rate and slew that it has (R307, R558). -/
def Dev.partsUntil (d : Dev) (b : Nat) (t : T96) : Nat :=
  let x := d.bs b
  let gap : Int := (t : Int) * 65536 - x.acc
  if gap ≤ x.inc * d.time.sub / subPeriod then 0
  else if gap ≤ x.inc then partsOf gap x.inc - d.time.sub
  else
    let d1 := endPeriod d
    let r := d1.rateOf b
    let left := d1.slewLeft b
    let m := if r.2.1 = 0 then 0 else left.natAbs / r.2.1.natAbs
    let base := nomInc + r.1
    (subPeriod - d.time.sub) + partsTo (gap - x.inc) base
      (if r.2.1 = 0 then [] else [(m, base + r.2.1), (1, base + (left - r.2.1 * m))])

/-- The parts of REFCLK periods until TB0 reaches `t`. -/
def timeUntil (t : T96) (d : Dev) : Nat := d.partsUntil 0 t

/-- Every base runs until TB0 reaches the placed instant `t` (R558). -/
def runUntil (t : T96) (d : Dev) : Dev :=
  if d.baseState 0 = 0 then d else runTime (timeUntil t d) d

/-- The block idles for one REFCLK period of 40 ns (DESIGN CHOICE, log entry 31): no base passes the placed boundary. -/
def idleTick (d : Dev) : Dev :=
  if d.cyc.running && decide (timeUntil d.cyc.closeAt d ≤ subPeriod) then runUntil d.cyc.closeAt d else runTime subPeriod d

/-- The parts of REFCLK periods until a base reads `t`; none where it has no value, or stands or is held short of `t` (R322, R330). -/
def Dev.partsTill (d : Dev) (b : Nat) (t : T96) : Option Nat :=
  let x := d.bs b
  let gap : Int := (t : Int) * 65536 - d.baseAcc b
  if d.baseState b = 0 then none
  else if gap ≤ 0 then some 0
  else if d.src b ≠ srcPulse then some (d.partsUntil b t)
  else
    let one := d.pulseInc b
    let ns := ((Sparse.find d.pat.bases b).getD {}).nsPerCount
    if one ≤ 0 || (d.baseState b = 1 && x.anchor + ns < (t : Int) * 65536) then none else some (partsOf gap one + subPeriod / 2 ^ 16)

/-- A placed instant of base `b` (R558): time runs until the base reaches it, and none where it does not before the boundary that closes the
running cycle. -/
def reachInstant (b : Nat) (t : T96) (d : Dev) : Option Dev :=
  match d.partsTill b t with
  | none => none
  | some n =>
    let d1 := runTime n d
    if (d.cyc.running && decide (timeUntil d.cyc.closeAt d < n)) || decide (d1.base b < t) then none else some d1

/-! ### States of a base (R310 to R312, R318, R319) -/

/-- One TIME_MAP record of a base: base code, seconds and nanoseconds, stamped on TR (R312). -/
def timeMap (b : Nat) (d : Dev) : Dev :=
  recordAt d.time.tr 8 Code.TIME_MAP.num Kind.event.num wShared [b, t96Sl (d.base b), t96Ns (d.base b)] d

/-- A TIME_MAP record of every base that has a value (R312). -/
def timeMaps (d : Dev) : Dev := forN 8 (fun b d => if d.baseState b = 0 then d else timeMap b d) d

/-- A base enters holdover (R318): it keeps its rate term, and its slew stops. -/
def enterHold (b : Nat) (d : Dev) : Dev :=
  if d.baseState b = 1 && b != 3 then
    let r := (d.rateOf b).1
    let d1 := d.updBase b (fun x => { x with holdRate := r, age := 0, goodRun := 0 })
    raise (Code.HOLDOVER_ENTER.shift b) wShared [b] ((d1.wr .TB_STAT_STATE 2 b).wr .TB_AGE_HOLD_AGE 0 b)
  else d

/-- The first lock of a base at a value: VALID, event and interrupt source, and the TIME_MAP records (R310, R312). Under a live FORCE_HOLD of 1
it enters holdover at once (R318; DEDUCED, log entry 196). -/
def firstLock (b : Nat) (v : T96) (d : Dev) : Dev :=
  let d1 := (d.updBase b (fun x => { x with acc := (v : Int) * 65536, anchor := (v : Int) * 65536, inc := 0 })).wr .TB_STAT_STATE 1 b
  let d2 := if b = 0 then d1.updTime (fun t => { t with mapSec := v / secUnit }) else d1
  let d3 := timeMaps (raise (Code.BASE_VALID.shift b) wShared [b] (setBase b v (latchInc b d2)))
  if d.rd .TB_CTL_FORCE_HOLD b = 1 then enterHold b d3 else d3

/-- A base leaves holdover when neither FORCE_HOLD nor a trigger of R318 keeps it there (R319). A PULSE base re-bases its
anchor to its own value (R323). -/
def leaveHold (b : Nat) (d : Dev) : Dev :=
  if d.baseState b = 2 && d.rd .TB_CTL_FORCE_HOLD b == 0 && !(d.bs b).trigHold then
    let d1 := if d.src b = srcPulse then
        (d.updBase b (fun x => { x with anchor := x.acc, furthest := x.pos })).wr .TB_STAT_REV 0 b
      else d
    raise (Code.HOLDOVER_LEAVE.shift b) wShared [b] (d1.wr .TB_STAT_STATE 1 b)
  else d

/-- A trigger of R318 begins to hold for a base. -/
def trigHold (b : Nat) (d : Dev) : Dev := enterHold b (d.updBase b (fun x => { x with trigHold := true }))

/-- The trigger of a base no longer holds. -/
def trigGone (b : Nat) (d : Dev) : Dev := leaveHold b (d.updBase b (fun x => { x with trigHold := false }))

/-! ### Timed event outputs (R327 to R330) -/

/-- Event time T and period PER of an output. -/
def Dev.tevT (d : Dev) (o : Nat) : T96 := t96 (d.rd .TEV_T_NS o) (d.rd .TEV_T_SL o) (d.rd .TEV_T_SEC_HI o) (d.rd .TEV_T_FRAC o)
def Dev.tevPer (d : Dev) (o : Nat) : Nat := d.rd .TEV_PER o * nsUnit + d.rd .TEV_PERF_PER_FRAC o

/-- ARM clears in both copies and the schedule ends (R329). -/
def tevSpent (o : Nat) (d : Dev) : Dev :=
  ((d.wr .TEV_CFG_ARM 0 o).stage .TEV_CFG_ARM .A o 0 0).updTev o (fun x => { x with next := none, waiting := false })

/-- The first T + k × PER that is not before `lim`. -/
def gridFrom (t per lim : Nat) : Nat := if lim ≤ t || per = 0 then t else t + (lim - t + per - 1) / per * per

/-- The first-event rule at a boundary where the base reads `v`; periodic events before the first count as skipped (R329). -/
def firstEvent (o : Nat) (v : T96) (d : Dev) : Dev :=
  let lim := v + 1000 * nsUnit
  if d.rd .TEV_CFG_MODE o = 0 then
    if d.tevT o < lim then raise (Code.TEV_LATE.shift o) wShared [o] (tevSpent o (d.wr .TEV_STAT_LATE 1 o))
    else d.updTev o (fun x => { x with next := some (d.tevT o), waiting := false })
  else
    let t := gridFrom (d.tevT o) (d.tevPer o) lim
    let n := if d.tevPer o = 0 then 0 else (t - d.tevT o) / d.tevPer o
    (d.wr .TEV_STAT_SKIP (satU 8 (d.rd .TEV_STAT_SKIP o + n)) o).updTev o (fun x => { x with next := some t, waiting := false })

/-- An output is armed at a boundary: the first-event rule, or a wait for the first value of its base. -/
def armTev (o : Nat) (d : Dev) : Dev :=
  let b := d.rd .TEV_CFG_BASE o
  if d.baseState b = 0 then d.updTev o (fun x => { x with next := none, waiting := true })
  else firstEvent o (d.base b) d

/-- An event of an output is skipped (R330). -/
def skipEvent (o : Nat) (d : Dev) : Dev := raise (Code.TEV_SKIPPED.shift o) wShared [o] (d.incSat .TEV_STAT_SKIP o)

/-- A step of base `b` to `v` passes over the events of its outputs (R330). -/
def stepTevs (b : Nat) (v : T96) (d : Dev) : Dev :=
  forN 8 (fun o d =>
    match (d.time.tev.get o).next with
    | none => d
    | some n =>
      if d.rd .TEV_CFG_BASE o ≠ b || d.rd .TEV_CFG_ARM o = 0 then d
      else
        let lim := v + 1000 * nsUnit
        if d.rd .TEV_CFG_MODE o = 0 then if n < lim then tevSpent o (skipEvent o d) else d
        else
          let per := d.tevPer o
          let lo := gridFrom (d.tevT o) per (min n v)
          let hi := gridFrom (d.tevT o) per lim
          let d1 := forN (if per = 0 then 0 else (hi - lo) / per) (fun _ e => skipEvent o e) d
          d1.updTev o (fun x => { x with next := some hi })) d

/-- A TEV instant, once the base has reached the pin's first edge: the event is emitted, counted and, unless toile holds the pins, put on the
pin DLY before its instant. It waits where the base stands or is held short of it (R327, R328, R330). -/
def tevEvent (o : Nat) (d0 : Dev) : Dev :=
  let b := d0.rd .TEV_CFG_BASE o
  match (d0.time.tev.get o).next with
  | none => d0
  | some t =>
    let e := t - d0.rd .TEV_CFG_DLY o * nsUnit
    if d0.rd .TEV_CFG_ARM o = 0 then d0
    else
      match reachInstant b e d0 with
      | none => d0
      | some d =>
      let pulse : Option TevPulse := if d.rd .SYS_STATE_TOILE = 1 then none
        else some ⟨e, e + d.rd .TEV_CFG_WIDTH o * nsUnit, d.rd .TEV_CFG_POL o == 1⟩
      let d1 := (d.incWrap .TEV_STAT_COUNT o).updTev o (fun x => { x with pulse := pulse, next := some (t + d.tevPer o) })
      let d2 := if d.rd .TEV_CFG_MODE o = 0 then tevSpent o d1 else d1
      if d.rd .TEV_CFG_IRQ o = 1 then icuBoth (72 + o) d2 else d2

/-! ### TIME_INIT and TIME_STEP (R310, R316) -/

/-- Executes TIME_INIT: accepted for an INVALID base whose source is FREE or PTP. -/
def timeInit (b : Nat) (t : T96) (d : Dev) : Dev × Nat × Nat :=
  if b < 8 && (d.src b == srcFree || d.src b == srcPtp) && d.baseState b == 0 then
    (d.updBase b (fun x => { x with pendInit := some t }), 0, 0)
  else (raise .INIT_REFUSED wShared [b] d, Code.INIT_REFUSED.num, 0)

/-- Whether arm `a`, or auxiliary axis `m`, plans on base `b` in either plane. -/
def armPlansOn (d : Dev) (b a : Nat) : Bool :=
  [Plane.A, Plane.B].any (fun p => ((d.pl p).ppe.arms.get a).q.any (fun g => g.tbase == b))
def auxPlansOn (d : Dev) (b m : Nat) : Bool :=
  [Plane.A, Plane.B].any (fun p => (((d.pl p).ppe.aux.get m).move).any (fun v => v.tbase == b))

/-- Arm `a`, or the group of auxiliary axis `m`, is in STO. -/
def armSto (d : Dev) (a : Nat) : Bool := d.rd .SAF_ARM_STAT_STATE a == 4
def auxSto (d : Dev) (m : Nat) : Bool := d.rd .SAF_GRP_STAT_STATE ((Sparse.find d.pat.aux m).getD {}).group == 4

/-- Every arm and every auxiliary axis of the Pattern is in STO. -/
def allSto (d : Dev) : Bool := d.pat.arms.all (fun e => armSto d e.1) && d.pat.aux.all (fun e => auxSto d e.1)

/-- No node of another controller on the ring shows an axis outside STO (R316). -/
def ringSto (d : Dev) : Bool :=
  d.pat.ring.all (fun r => r.2.nodes.all (fun e =>
    let s := (d.ring.ports.get r.1).nodes.get e.1
    !(s.state == 3 && s.live && e.2.owner != r.2.self)))

/-- R316 refuses a step of base `b`: the base, the stage, a unit that plans on it, or ring timing. -/
def stepRefused (b : Nat) (d : Dev) : Bool :=
  decide (8 ≤ b) || d.src b == srcFixed || d.src b == srcPulse || d.src b == srcFollow || d.baseState b == 0 ||
  d.rd .SYS_STATE_STAGE != 8 ||
  d.pat.arms.any (fun e => armPlansOn d b e.1 && !armSto d e.1) ||
  d.pat.aux.any (fun e => auxPlansOn d b e.1 && !auxSto d e.1) ||
  (b == 0 && (!d.leads || !allSto d || !ringSto d))

/-- Executes TIME_STEP: an accepted step waits for its boundary, and behind a step of TB0 that a sync frame has announced for the one after
(R343). -/
def timeStep (b : Nat) (a : StepArg) (d : Dev) : Dev × Nat × Nat :=
  if stepRefused b d then (raise .STEP_REFUSED wShared [b] d, Code.STEP_REFUSED.num, 0)
  else (d.updBase b (fun x => if x.stepSent then { x with nextStep := some a } else { x with pendStep := some a }), 0, 0)

/-- A step takes effect: the value, SREM at zero, STEPPED, the event; the placed boundaries move with TB0. The kept instants of the
latest sync boundary and of the SYNC_IN edges do not move (DESIGN CHOICE, log entry 180). -/
def takeStep (b : Nat) (v : T96) (d : Dev) : Dev :=
  let old := d.base b
  let mv (t : T96) : T96 := t + v - old
  let d1 := setBase b v (d.updBase b (fun x => { x with inc := x.inc - x.incSlew, incSlew := 0, srem := 0, stepNow := true }))
  let d2 : Dev := if b = 0 then
      { d1 with
          cyc := { d1.cyc with
          openAt := mv d1.cyc.openAt, closeAt := mv d1.cyc.closeAt, nextAt := d1.cyc.nextAt.map mv } }
    else d1
  raise .BASE_STEP wShared [b] (stepTevs b v ((showSrem b d2).wr .TB_STAT_STEPPED 1 b))

/-- The pending step of a base at a boundary (R316, R317). A step of TB0 waits until a sync frame announced it; a follower
takes the step of the leader's sync frame. -/
def applyStep (b : Nat) (d : Dev) : Dev :=
  match (d.bs b).pendStep with
  | none => d
  | some a =>
    if b = 0 && !(d.bs b).stepSent then d
    else
      let d1 := d.updBase b (fun x => { x with pendStep := x.nextStep, nextStep := none, stepSent := false })
      let v : Int := match a with
        | .abs t => t
        | .off i => (d.base b : Int) + i
      if b = 0 && !d.leads then takeStep b v.toNat d1
      else if stepRefused b d || v < 0 then raise .STEP_REFUSED wShared [b] d1
      else if d.rd .SEC_PRESENCE_PRESENT = 0 then
        raise .PRESENCE_REQUIRED wShared [b] (d1.wr .PAT_STATUS_LAST_ERR Code.PRESENCE_REQUIRED.num)
      else takeStep b v.toNat d1

/-! ### The boundary (R317) -/

/-- Latches TBn_BSNAP of every base. -/
def snapBases (cnt : Nat) (d : Dev) : Dev :=
  forN 8 (fun b d =>
    let t := d.base b
    ((((d.wr .TB_BSNAP_NS (t96Ns t) b).wr .TB_BSNAP_SL (t96Sl t) b).wr .TB_BSNAP_SEC_HI (t96Hi t) b).wr
      .TB_BSNAP_FRAC (t96Frac t) b).wr .TB_BSNAP_CYC cnt b) d

/-- ρ of a PULSE base as S7.24: the signed ratio of the count rate to the nominal one (R321). -/
def rhoOf (d : Dev) (b : Nat) : Int :=
  let ns := ((Sparse.find d.pat.bases b).getD {}).nsPerCount
  fitS 32 (rdiv (d.fbSpeed (16 + d.rd .TB_CTL_PI b) * ns * 2 ^ 24) (16 * 1000000000 * 2 ^ 32))

/-- The boundary sample of a PULSE base: first lock, ρ, holdover and its end after 16 good samples (R310, R318, R319). -/
def pulseBoundary (b : Nat) (d : Dev) : Dev :=
  if d.fbBad (16 + d.rd .TB_CTL_PI b) then
    if d.baseState b = 0 then d else trigHold b (d.updBase b (fun x => { x with goodRun := 0 }))
  else
    let r := rhoOf d b
    if d.baseState b = 0 then
      if d.baseState 0 = 0 then d
      else (firstLock b (d.base 0) (d.updBase b (fun x => { x with rho := r, pos := 0, furthest := 0 }))).wr
        .TB_RHO (unsigned 32 r) b
    else
      let d1 := d.updBase b (fun x => { x with goodRun := x.goodRun + 1 })
      let d2 := if d1.baseState b = 2 && decide (16 ≤ (d1.bs b).goodRun) then trigGone b d1 else d1
      if d2.baseState b = 1 then (d2.updBase b (fun x => { x with rho := r })).wr .TB_RHO (unsigned 32 r) b else d2

/-- First locks at a boundary: FOLLOW once REF has a value, PTP and FREE with an accepted TIME_INIT. -/
def lockBoundary (b : Nat) (d : Dev) : Dev :=
  if d.baseState b ≠ 0 then d
  else if d.src b = srcFollow then
    let ref := d.rd .TB_CTL_REF b
    if b = 0 || d.baseState ref = 0 then d
    else firstLock b ((d.base ref : Int) + signed 32 (d.rd .TB_OFS b) * nsUnit).toNat d
  else
    match (d.bs b).pendInit with
    | some t => firstLock b t (d.updBase b (fun x => { x with pendInit := none }))
    | none => d

/-- What the time unit does at a boundary before its staged set: the snapshot, then the steps (R317). -/
def timeSteps (cnt : Nat) (d : Dev) : Dev :=
  forN 8 applyStep (forN 8 (fun b d => d.updBase b (fun x => { x with stepNow := false })) (snapBases cnt d))

/-- What it does after its staged set: first locks, PULSE samples, waiting outputs, and a TIME_MAP record of each base that
has a value when TB0 crosses a whole second (R312). -/
def timeBoundary (d : Dev) : Dev :=
  let d1 := forN 8 (fun b d => if d.src b = srcPulse then pulseBoundary b d else lockBoundary b d) d
  let d2 := forN 8 (fun o d =>
    if (d.time.tev.get o).waiting && d.baseState (d.rd .TEV_CFG_BASE o) != 0 then firstEvent o (d.base (d.rd .TEV_CFG_BASE o)) d
    else d) d1
  let s := d2.base 0 / secUnit
  if d2.baseState 0 ≠ 0 && s != d2.time.mapSec then
    timeMaps (d2.updTime (fun t => { t with mapSec := s }))
  else d2

/-! ### Shaft counts (R320 to R322) -/

/-- A count edge of PI `pi`: every PULSE base on it moves; forward beyond the furthest angle its anchor rises. -/
def shaftCount (pi : Nat) (up : Bool) (d : Dev) : Dev :=
  forN 8 (fun b d =>
    if d.src b ≠ srcPulse || d.rd .TB_CTL_PI b ≠ pi || d.baseState b ≠ 1 then d
    else
      let x := d.bs b
      let ns := ((Sparse.find d.pat.bases b).getD {}).nsPerCount
      let pos := if up then x.pos + 1 else x.pos - 1
      let fwd := decide (x.furthest < pos)
      let anchor := if fwd then x.anchor + ns else x.anchor
      (d.updBase b (fun y => { y with
        pos := pos
        furthest := max y.furthest pos
        anchor := anchor
        acc := if fwd then max y.acc anchor else y.acc })).wr .TB_STAT_REV (b2n (decide (pos < x.furthest))) b) d

/-! ### Reads and IEEE 1588 (R326) -/

/-- A read of TBn_NOW.NS latches the base's value. -/
def tbNowRead (b : Nat) (d : Dev) : Dev :=
  let t := d.base b
  (((d.wr .TB_NOW_NS (t96Ns t) b).wr .TB_NOW_SL (t96Sl t) b).wr .TB_NOW_SEC_HI (t96Hi t) b).wr .TB_NOW_FRAC (t96Frac t) b

/-- A PTP event message passes port `q`: its stamp is corrected and queued, to 8 ns (R324). `msg` is 0 to 3 for Sync, Delay_Req, Pdelay_Req
and Pdelay_Resp; other messages are not stamped (R325). An ingress Sync of the governing port ends a holdover (R319). -/
def ptpStamp (q seqId msg : Nat) (egress : Bool) (d : Dev) : Dev :=
  if 3 < msg || 1 < q then d
  else
    let tb3 := decide (d.baseState 1 = 0)
    let t := toGrid (8 * nsUnit) (d.base (if tb3 then 3 else 1))
    let lat := if egress then d.rd .PTP_LAT_TX_LAT q * nsUnit else d.rd .PTP_LAT_RX_LAT q * nsUnit
    let st : PtpStamp :=
      { seqId := seqId % 65536, msg := msg, egress := egress, onTb3 := tb3, t := if egress then t + lat else t - lat }
    let d1 :=
      if (d.time.ptpq.get q).length < 16 then
        icuBoth (82 + q) (d.updTime (fun x => { x with ptpq := x.ptpq.upd q (· ++ [st]) }))
      else raise (Code.PTP_STAMP_OVF.shift q) wShared [q] d
    if msg = 0 && !egress && d.rd .PTP_CFG_HOLD_SRC q == 1 && d.src 1 == srcPtp then trigGone 1 d1 else d1

/-- A read of PTPp_INFO latches the oldest stamp. -/
def ptpInfoRead (q : Nat) (d : Dev) : Dev :=
  match d.time.ptpq.get q with
  | [] => d.wr .PTP_INFO_VALID 0 q
  | s :: _ =>
    ((((((((d.wr .PTP_INFO_SEQ_ID s.seqId q).wr .PTP_INFO_MSG s.msg q).wr .PTP_INFO_DIR (b2n s.egress) q).wr
      .PTP_INFO_ON_TB3 (b2n s.onTb3) q).wr .PTP_INFO_VALID 1 q).wr .PTP_TS_NS (t96Ns s.t) q).wr
      .PTP_TS_SL (t96Sl s.t) q).wr .PTP_TS_SEC_HI (t96Hi s.t) q).wr .PTP_TS_FRAC (t96Frac s.t) q

/-- A read of PTPp_TS_SH removes the latched stamp. -/
def ptpTsRead (q : Nat) (d : Dev) : Dev :=
  if d.rd .PTP_INFO_VALID q = 1 then (d.updTime (fun x => { x with ptpq := x.ptpq.upd q (·.drop 1) })).wr .PTP_INFO_VALID 0 q
  else d

/-- No ingress Sync for SYNC_TMO on the governing port: TB1 enters holdover (R318). -/
def ptpTimeout (q : Nat) (d : Dev) : Dev :=
  if d.rd .PTP_CFG_HOLD_SRC q = 1 && d.src 1 == srcPtp && d.baseState 1 != 0 then trigHold 1 d else d

/-! ### The staged set of the TIME block -/

/-- The first field that APPLY refuses: base n, 8 + n for TEVn, 16 + p for a PTP port. -/
def timeRefused (d : Dev) : Option Nat :=
  let st (f : Fld) (i : Nat) : Nat := d.staged f .A i 0
  match (List.range 8).find? (fun b =>
      st .TB_CTL_SLEW_PPM b == 0 || decide (1000 < st .TB_CTL_SLEW_PPM b) ||
      decide (incBound < absI (signed 32 (st .TB_RATE b)))) with
  | some n => some n
  | none =>
    match (List.range 8).find? (fun o =>
        decide (st .TEV_CFG_WIDTH o < 5) || (st .TEV_CFG_MODE o == 1 &&
          decide (st .TEV_PER o * nsUnit + st .TEV_PERF_PER_FRAC o ≤ (st .TEV_CFG_WIDTH o + 10) * nsUnit))) with
    | some o => some (8 + o)
    | none =>
      ((List.range 2).find? (fun q =>
        decide (st .PTP_CFG_SYNC_TMO q < 10) || decide (60000 < st .PTP_CFG_SYNC_TMO q) ||
        (q == 1 && st .PTP_CFG_HOLD_SRC 0 == 1 && st .PTP_CFG_HOLD_SRC 1 == 1))).map (16 + ·)

/-- What becoming live means beside the fields: the rate of hardware-rated bases stays (R313), a written SLEW replaces SREM
(R314), FORCE_HOLD begins or ends a holdover (R318, R319), and ARM or a new timing starts the first-event rule (R329). -/
def timeLive (old new : Dev) : Dev :=
  let d1 := forN 8 (fun b d =>
    let s := d.src b
    let hw := s == srcFollow || s == srcPulse || s == srcFixed || (s == srcRing && !d.leads)
    let e1 := if hw then d.wr .TB_RATE (old.rd .TB_RATE b) b else d
    let e2 :=
      if (e1.bs b).slewPend then
        let v := signed 32 (e1.rd .TB_SLEW b) * 2 ^ 32
        let e := e1.updBase b (fun x => { x with slewPend := false })
        if s = srcFixed || s = srcPulse || s = srcFollow then e else showSrem b (e.updBase b (fun x => { x with srem := v }))
      else e1
    let f := e2.rd .TB_CTL_FORCE_HOLD b
    if f = 1 then enterHold b e2 else leaveHold b e2) new
  forN 8 (fun o d =>
    let ch (f : Fld) : Bool := old.rd f o != new.rd f o
    if d.rd .TEV_CFG_ARM o = 0 then d.updTev o (fun x => { x with next := none, waiting := false })
    else if ch .TEV_CFG_ARM || ch .TEV_CFG_BASE || ch .TEV_CFG_MODE || ch .TEV_T_NS || ch .TEV_T_SL || ch .TEV_T_SEC_HI ||
        ch .TEV_T_FRAC || ch .TEV_PER || ch .TEV_PERF_PER_FRAC then armTev o d
    else d) d1

/-- A sync frame enters TB0's rate on a follower (R313): the ring servo's rate. In holdover the base keeps its own (R318). -/
def servoRate (r : Int) (d : Dev) : Dev :=
  if d.baseState 0 = 2 then d else d.wr .TB_RATE (unsigned 32 (clampI (-incBound) incBound r)) 0

end Sys2Proof.Machine
end

