-- ==== Sys2Proof/Machine/Tasks.lean ====
section
/-! DEFINITION. The dispatcher (16_dispatch_interrupts.md R439 to R453): activations and queues, the choice of a task,
INTERRUPT-mode take and end, PREEMPT-mode contexts and switches, posts, messages and timers. -/

namespace Sys2Proof.Machine

/-! ### Tasks and queues -/

/-- The descriptor of a task (R439); a task without one is not used. -/
def Dev.taskDesc (d : Dev) (t : Nat) : TaskDesc := (Sparse.find d.pat.tasks t).getD {}

/-- The dispatcher of a plane. -/
def Dev.tsk (d : Dev) (p : Plane) : TaskSt := (d.pl p).task

/-- Passes the dispatcher of a plane through `f`. -/
def Dev.updTsk (d : Dev) (p : Plane) (f : TaskSt → TaskSt) : Dev := d.updPl p (fun x => { x with task := f x.task })

/-- Room in a task's queue. -/
def Dev.taskRoom (d : Dev) (p : Plane) (t : Nat) : Bool := decide (((d.tsk p).q.get t).length < (d.taskDesc t).qdepth)

/-- The core of a task is parked: its activations are discarded and not counted (R496). -/
def Dev.taskParked (d : Dev) (p : Plane) (t : Nat) : Bool := (d.core p (d.taskDesc t).core).parked

/-- An activation of the task is current on its core. -/
def Dev.taskCurrent (d : Dev) (p : Plane) (t : Nat) : Bool :=
  let k := d.core p (d.taskDesc t).core
  k.intTask == some t || k.curTask == some t

/-- A task is ready (R442): queued and not current, or pre-empted. A pre-empted activation is current until it ends. -/
def Dev.taskReady (d : Dev) (p : Plane) (t : Nat) : Bool :=
  ((d.tsk p).saved.get t).isSome || (!((d.tsk p).q.get t).isEmpty && !d.taskCurrent p t)

/-- The chosen task of a mode and a core (R442): highest PRIO, then lowest number. -/
def Dev.chosen (d : Dev) (p : Plane) (c : Nat) (preempt : Bool) : Option Nat :=
  (d.pat.tasks.foldl (fun (best : Option (Nat × Nat)) e =>
    if e.2.qdepth ≠ 0 && e.2.core == c && e.2.preempt == preempt && d.taskReady p e.1 then
      match best with
      | some (_, pr) => if pr < e.2.prio then some (e.1, e.2.prio) else best
      | none => some (e.1, e.2.prio)
    else best) none).map (·.1)

/-- Source c is raised while core c has a ready INTERRUPT-mode task and no current activation of that mode (R445). -/
def raiseDispatch (p : Plane) (c : Nat) (d : Dev) : Dev :=
  if (d.chosen p c false).isSome && (d.core p c).intTask.isNone && d.rdP p .ICU_SRC_PEND c == 0 then icuRaise p c d else d

/-- An activation is dropped, discarded or refused: OVF (R441). -/
def countOvf (p : Plane) (t : Nat) (d : Dev) : Dev := d.wrP p .TSK_TASK_OVF (satU 16 (d.rdP p .TSK_TASK_OVF t + 1)) t

/-- An activation enters the queue (R440). -/
def enqueue (p : Plane) (t : Nat) (a : Act) (d : Dev) : Dev :=
  raiseDispatch p (d.taskDesc t).core (d.updTsk p (fun x => { x with q := x.q.upd t (· ++ [a]) }))

/-- An activation of a time-triggered source (R441): discarded while EN is 0, dropped with ACT_OVERFLOW on a full queue. -/
def activate (p : Plane) (t : Nat) (a : Act) (d : Dev) : Dev :=
  if (d.taskDesc t).qdepth = 0 || d.taskParked p t then d
  else if d.rdP p .TSK_TASK_EN t = 0 then countOvf p t d
  else if d.taskRoom p t then enqueue p t a d
  else raiseP p .ACT_OVERFLOW [t] (countOvf p t d)

/-- Tasks whose source is `src` with an argument that `f` accepts. -/
def Dev.tasksOf (d : Dev) (src : Nat) (f : Nat → Bool) : List Nat :=
  (d.pat.tasks.filter (fun e => e.2.src == src && f e.2.srcarg)).map (·.1)

/-- The PHASE tasks of a phase start (R439, R440). -/
def phaseTasks (ph : Nat) (t : T96) (p : Plane) (d : Dev) : Dev :=
  let cnt := d.rd .SYS_CYCNT
  let due (a : Nat) : Bool := a % 8 == ph &&
    (if bit a 15 then d.rd .SYS_PHASE_TICK_POS == a / 512 % 64 else cnt % (a / 8 % 64 + 1) == a / 512 % 64)
  forL (d.tasksOf 1 due) (fun n => activate p n { t := t, base := 0, src := 1, arg := cnt }) d

/-- The SLOT tasks of an accepted slot frame (R440). -/
def slotTasks (port slot : Nat) (onS : Bool) (t : T96) (d : Dev) : Dev :=
  bothPlanes (fun p d => forL (d.tasksOf 2 (fun a => a % 4 == port && a / 4 % 1024 == slot))
    (fun n => activate p n { t := t, base := 0, src := 2, arg := slot + 1024 * port + 4096 * b2n onS }) d) d

/-- The SOLVER tasks of a flip (R440). -/
def solverTasks (p : Plane) (cls : Nat) (t : T96) (d : Dev) : Dev :=
  forL (d.tasksOf 6 (fun a => a % 2 == cls))
    (fun n => activate p n { t := t, base := 0, src := 6, arg := d.rdP p .SLV_BATCH_SEQ cls }) d

/-- The CAPTURE tasks of a trigger (R440). -/
def captureTasks (trg : Nat) (t : T96) (b : Nat) (d : Dev) : Dev :=
  bothPlanes (fun p d => forL (d.tasksOf 5 (fun a => a % 16 == trg))
    (fun n => activate p n { t := t, base := b, src := 5, arg := trg }) d) d

/-! ### Messages (R452) -/

/-- A message of node `x`, channel `ch` for task `t`: queued in order, held up to MSG_HOLD, or refused. -/
def msgTask (x ch : Nat) (a : Act) (p : Plane) (t : Nat) (d : Dev) : Dev :=
  let s := d.tsk p
  if (d.taskDesc t).qdepth = 0 || d.taskParked p t then d
  else if d.rdP p .TSK_TASK_EN t = 0 then countOvf p t d
  else if (s.held.get t).isEmpty && d.taskRoom p t then enqueue p t a d
  else if (s.held.get t).length < (d.taskDesc t).msgHold then d.updTsk p (fun y => { y with held := y.held.upd t (· ++ [a]) })
  else raiseP p .MSG_REFUSED [x, ch] (countOvf p t d)

/-- An accepted message reaches its MSG tasks in both planes (R440); `ofs` is its offset in the ring buffer. -/
def msgArrives (port x ch ofs : Nat) (t : T96) (d : Dev) : Dev :=
  bothPlanes (fun p d => forL (d.tasksOf 3 (fun a => a % 4 == port && a / 4 % 512 == x && a / 2048 % 8 == ch))
    (msgTask x ch { t := t, base := 0, src := 3, arg := ofs } p) d) d

/-- Room appears in the queue and the oldest held message enters it (R452). -/
def msgRelease (p : Plane) (t : Nat) (d : Dev) : Dev :=
  match (d.tsk p).held.get t with
  | [] => d
  | a :: r => if d.taskRoom p t then enqueue p t a (d.updTsk p (fun y => { y with held := y.held.set t r })) else d

/-! ### Posts (R450, R451) -/

/-- The current activation of a core, which gives a post its stamp. -/
def Core.current (k : Core) : Option Act :=
  if k.intTask.isSome then some k.intAct else if k.curTask.isSome then some k.curAct else none

/-- The record of a post by a core (R440). -/
def postAct (k : Core) : Act :=
  match k.current with
  | some a => { t := a.t, base := a.base, src := 7, arg := k.postArg.toNat }
  | none => { src := 7, arg := k.postArg.toNat, nostamp := true }

/-- A discarded post. -/
def dropPost (p : Plane) (t : Nat) (c : Code) (d : Dev) : Dev := raiseP p c [t] (countOvf p t d)

/-- A core's write of TSK_POST (R450): not permitted, to its own core, or to another core, which stalls on a full queue. -/
def tskPost (p : Plane) (c t : Nat) (d : Dev) : Dev :=
  let k := d.core p c
  let td := d.taskDesc t
  if !bit td.posters c || td.qdepth = 0 then dropPost p t .POST_DROP d
  else if d.taskParked p t then d
  else if d.rdP p .TSK_TASK_EN t = 0 then countOvf p t d
  else if d.taskRoom p t then enqueue p t (postAct k) d
  else if td.core = c then dropPost p t .POST_DROP d
  else d.setCore p c { k with stall := some { task := t, act := postAct k, since := d.time.tr } }

/-- Room appears and a stalled post completes (R450). -/
def postStallEnd (p : Plane) (c : Nat) (d : Dev) : Dev :=
  match (d.core p c).stall with
  | none => d
  | some s =>
    if d.taskParked p s.task then d.updCore p c (fun k => { k with stall := none })
    else if d.taskRoom p s.task then enqueue p s.task s.act (d.updCore p c (fun k => { k with stall := none })) else d

/-- A post stalled for 64 µs is discarded (R450). -/
def postTimeout (p : Plane) (c : Nat) (d : Dev) : Dev :=
  match (d.core p c).stall with
  | none => d
  | some s => dropPost p s.task .POST_TIMEOUT (d.updCore p c (fun k => { k with stall := none }))

/-- TASK_POST has room in both planes: the mailbox withholds it otherwise (R451). -/
def hostPostRoom (t : Nat) (d : Dev) : Bool := d.running.all (fun p => d.taskRoom p t || d.taskParked p t)

/-- Mailbox TASK_POST (R451): the host's bit of POSTERS, then the activation in both planes at the φ4 start. -/
def taskPost (t arg : Nat) (d : Dev) : Dev × Nat × Nat :=
  let td := d.taskDesc t
  if !bit td.posters 10 || td.qdepth = 0 then
    (bothPlanes (fun p => raiseP p .POST_DROP [t]) d, Code.POST_DROP.num, 0)
  else
    (bothPlanes (fun p d => activate p t { t := d.base 0, base := 0, src := 7, arg := arg % 2 ^ 32, host := true } d) d, 0, 0)

/-! ### Taking and ending (R445, R447, R449) -/

/-- An activation of task `t` starts on core `c`: SEQ advances and, with LOG, TASK_START is recorded with its own stamp. -/
def beginAct (p : Plane) (c t : Nat) (a : Act) (d : Dev) : Dev :=
  let seq := (d.rdP p .TSK_TASK_SEQ t + 1) % 2 ^ 32
  let d1 := (d.wrP p .TSK_TASK_SEQ seq t).updTsk p (fun x => { x with q := x.q.upd t List.tail })
  if (d.taskDesc t).log then recordP p a.t a.base Code.TASK_START.num 2 [t, c, seq, a.src] d1 else d1

/-- A read of TSK_TAKE by core `c` (R445): the state and the word read. -/
def tskTake (p : Plane) (c : Nat) (d : Dev) : Dev × Nat :=
  if (d.core p c).intTask.isSome then (raiseP p .TAKE_ERR [c] d, 0x30000)
  else
    match d.chosen p c false with
    | none => (d, 0x10000)
    | some t =>
      match (d.tsk p).q.get t with
      | [] => (d, 0x10000)
      | a :: _ => ((beginAct p c t a d).updCore p c (fun k => { k with intTask := some t, intAct := a }), t)

/-! ### Contexts (R438, R446, R447) -/

/-- A pc is always a multiple of 4 (R418). -/
def alignPc (n : Nat) : Word := BitVec.ofNat 32 (n / 4 * 4)

/-- Writes the context image of R438 at local address `a`. -/
def saveCtx (k : Core) (a : Nat) (m : Mem) : Mem :=
  let m1 := (m.write a 4 k.csw.toNat).write (a + 4) 4 k.pc.toNat
  let m2 := forN 31 (fun i m => m.write (a + 8 + 4 * i) 4 (k.rg (i + 1)).toNat) m1
  let m3 := forN 8 (fun i m => (m.write (a + 0x84 + 4 * i) 4 (k.rp i).toNat).write (a + 0xA4 + 4 * i) 4 (k.rm i).toNat) m2
  forN 4 (fun i m => m.write (a + 0xD0 + 16 * i) 16 (k.ra i).toNat) (m3.write (a + 0xC4) 12 0)

/-- The core's registers from the context image at local address `a`: EXC and LEVEL of the image are ignored (R438). -/
def loadCtx (k : Core) (a : Nat) (m : Mem) : Core :=
  let w (o : Nat) : Word := BitVec.ofNat 32 (m.read (a + o) 4)
  let k1 : Core := { k with
    csw := (w 0 &&& 0xF7) ||| (k.csw &&& 0xF08)
    pc := alignPc (m.read (a + 4) 4)
    entryWin := none }
  let k2 := forN 31 (fun i k => k.wg (i + 1) (w (8 + 4 * i))) k1
  let k3 := forN 8 (fun i k => (k.wp i (w (0x84 + 4 * i))).wm i (w (0xA4 + 4 * i))) k2
  forN 4 (fun i k => k.wa i (BitVec.ofNat 72 (m.read (a + 0xD0 + 16 * i) 9))) k3

/-- CSW0 of a core's CODE section (R419). -/
def Dev.csw0 (d : Dev) (c : Nat) : Nat := ((d.pat.code.find? (fun s => s.core == c)).map (·.csw0)).getD 0

/-- The registers with which an activation starts (R447). -/
def startCtx (d : Dev) (p : Plane) (c t : Nat) (a : Act) (k : Core) : Core :=
  let td := d.taskDesc t
  let seq := d.rdP p .TSK_TASK_SEQ t
  let k1 : Core := { k with
    g := ⟨0, []⟩, a := ⟨0, []⟩, p := ⟨0, []⟩, m := ⟨0, []⟩
    pc := alignPc td.entry
    csw := BitVec.ofNat 32 (b2n td.satmode + 2 + d.csw0 c / 4 % 2 * 4)
    entryWin := none
    curTask := some t
    curAct := a }
  ((k1.wg 1 (BitVec.ofNat 32 t)).wg 2 (BitVec.ofNat 32 a.arg)).wg 3 (BitVec.ofNat 32 seq)

/-- Priority of the context that runs, 0 for the base context and PRIO + 1 for a task: the base ranks below every task. -/
def Dev.runRank (d : Dev) (p : Plane) (c : Nat) : Nat :=
  match (d.core p c).curTask with
  | some t => (d.taskDesc t).prio + 1
  | none => 0

/-- Local address of the save area of the context that runs. -/
def Dev.saveArea (d : Dev) (p : Plane) (c : Nat) : Nat :=
  match (d.core p c).curTask with
  | some t => (d.taskDesc t).save
  | none => d.rdP p .TSK_CORE_BASE c

/-- Saves the running context (R446). -/
def saveRunning (p : Plane) (c : Nat) (s : Part) : Part :=
  let k := s.dev.core p c
  { s with
    mems := s.mems.setLoc p c (saveCtx k (s.dev.saveArea p c) (s.mems.loc p c))
    dev := noteStore p c (s.dev.saveArea p c) 0x110 (match k.curTask with
      | some t => s.dev.updTsk p (fun x => { x with saved := x.saved.set t (some k.curAct) })
      | none => s.dev) }

/-- One hardware switch is counted. -/
def countSwitch (p : Plane) (c : Nat) (d : Dev) : Dev :=
  d.wrP p .TSK_CORE_SWITCHES_COUNT (d.rdP p .TSK_CORE_SWITCHES_COUNT c + 1) c

/-- The core enters task `t`: it resumes a saved context or starts the oldest activation (R446, R447). -/
def enterTask (p : Plane) (c t : Nat) (s : Part) : Part :=
  let td := s.dev.taskDesc t
  match (s.dev.tsk p).saved.get t with
  | some a =>
    s.onDev (fun d =>
      countSwitch p c (((d.updTsk p (fun x => { x with saved := x.saved.set t none })).updCore p c
        (fun k => loadCtx { k with curTask := some t, curAct := a } td.save (s.mems.loc p c)))))
  | none =>
    match (s.dev.tsk p).q.get t with
    | [] => s
    | a :: _ => s.onDev (fun d =>
        let d1 := beginAct p c t a d
        countSwitch p c (d1.updCore p c (startCtx d1 p c t a)))

/-- The core returns to its base context (R442). -/
def enterBase (p : Plane) (c : Nat) (s : Part) : Part :=
  s.onDev (fun d => countSwitch p c (d.updCore p c (fun k =>
    loadCtx { k with curTask := none, curAct := {} } (d.rdP p .TSK_CORE_BASE c) (s.mems.loc p c))))

/-- A switch to a higher task is due (R446). -/
def Dev.switchDue (d : Dev) (p : Plane) (c : Nat) : Option Nat :=
  let k := d.core p c
  match d.chosen p c true with
  | none => none
  | some t =>
    if decide (d.runRank p c < (d.taskDesc t).prio + 1) && cswLevel k.csw == 0 && wbit k.csw cswIe && !wbit k.csw cswExc &&
        k.stall.isNone then some t
    else none

/-- PREEMPT_SWITCH (R446): at an instruction boundary the running context is saved and the chosen task entered. A save area in RACKED lines
waits for the end of racking (R285). -/
def preemptSwitch (p : Plane) (c : Nat) (s : Part) : Part :=
  if s.dev.coreActive p c then
    match s.dev.switchDue p c with
    | some t => if rackHolds s.dev c (s.dev.saveArea p c) 0x110 then s else enterTask p c t (saveRunning p c s)
    | none => s
  else s

/-- A write of DONE by core `c` (R445, R447): the INTERRUPT-mode activation ends, or the running PREEMPT task's, after which the
dispatcher chooses the next context. A DONE from the base context is ignored. -/
def tskDone (p : Plane) (c : Nat) (s : Part) : Part :=
  let k := s.dev.core p c
  if k.intTask.isSome then
    s.onDev (fun d => raiseDispatch p c (d.updCore p c (fun k => { k with intTask := none, intAct := {} })))
  else if k.curTask.isSome then
    let s1 := s.onDev (fun d => d.updCore p c (fun k => { k with curTask := none, curAct := {} }))
    match s1.dev.chosen p c true with
    | some t => enterTask p c t s1
    | none => enterBase p c s1
  else s

/-! ### Timers (R453) -/

/-- Timer `t` of a plane. -/
def Dev.tmr (d : Dev) (p : Plane) (t : Nat) : TimerSt := (d.tsk p).timers.get t

/-- Passes a timer through `f`. -/
def Dev.updTmr (d : Dev) (p : Plane) (t : Nat) (f : TimerSt → TimerSt) : Dev :=
  d.updTsk p (fun x => { x with timers := x.timers.upd t f })

/-- One activation of a timer's tasks at its programmed instant. -/
def timerGives (p : Plane) (t : Nat) (late : Bool) (d : Dev) : Dev :=
  let x := d.tmr p t
  let cnt := (d.rdP p .TSK_TMR_STAT_COUNT t + 1) % 2 ^ 16
  let d1 := d.wrP p .TSK_TMR_STAT_COUNT cnt t
  let d2 := if late then d1.wrP p .TSK_TMR_STAT_LATE 1 t else d1
  forL (d.tasksOf 4 (fun a => a % 64 == t))
    (fun n => activate p n { t := x.next, base := x.base, src := 4, arg := cnt, late := late }) d2

/-- DISARM. -/
def timerDisarm (p : Plane) (t : Nat) (d : Dev) : Dev := d.wrP p .TSK_TMR_CTL_ARMED 0 t

/-- ARM: the timer takes BASE, MODE, T and PER. Ignored while the base is INVALID, or with MODE 1 and PER 0. A ONCE instant less
than 1 µs ahead activates at once with LATE; a PERIODIC timer begins with its first instant that has not passed. -/
def timerArm (p : Plane) (t : Nat) (d : Dev) : Dev :=
  let b := d.rdP p .TSK_TMR_CTL_BASE t
  let per := d.rdP p .TSK_TMR_CTL_MODE t = 1
  let t0 := t96 (d.rdP p .TSK_TMR_T_NS t) (d.rdP p .TSK_TMR_T_SL t) (d.rdP p .TSK_TMR_T_SEC_HI t) (d.rdP p .TSK_TMR_T_FRAC t)
  let period := d.rdP p .TSK_TMR_PER t * nsUnit + d.rdP p .TSK_TMR_PERF_PER_FRAC t
  if d.baseState b = 0 || (per && d.rdP p .TSK_TMR_PER t = 0) then d
  else
    let now := d.base b
    let first := if per then gridFrom t0 period now else t0
    let d1 := (d.updTmr p t (fun _ => { base := b, periodic := per, t0 := t0, per := period, next := first })).wrP p
      .TSK_TMR_CTL_ARMED 1 t
    if !per && decide (t0 < now + 1000 * nsUnit) then timerDisarm p t (timerGives p t true d1) else d1

/-- The base reaches the timer's instant: ONCE activates and disarms, PERIODIC moves on by PER. The timer waits where its base stands or is
held short of the instant (R453, R558). -/
def timerExpiry (p : Plane) (t : Nat) (d0 : Dev) : Dev :=
  match if d0.rdP p .TSK_TMR_CTL_ARMED t = 0 then none else reachInstant (d0.tmr p t).base (d0.tmr p t).next d0 with
  | none => d0
  | some d =>
    let x := d.tmr p t
    let d1 := timerGives p t false d
    if x.periodic then d1.updTmr p t (fun y => { y with next := y.next + y.per }) else timerDisarm p t d1

/-- A step of base `b` to `v` passes instants: one LATE activation at the stepped boundary; a PERIODIC timer re-aligns (R453). -/
def stepTimers (b : Nat) (v : T96) (p : Plane) (d : Dev) : Dev :=
  forN 64 (fun t d =>
    let x := d.tmr p t
    if d.rdP p .TSK_TMR_CTL_ARMED t = 1 && x.base = b && decide (x.next ≤ v) then
      let d1 := timerGives p t true d
      if x.periodic then d1.updTmr p t (fun y => { y with next := gridFrom y.next y.per (v + 1) }) else timerDisarm p t d1
    else d) d

end Sys2Proof.Machine
end

