-- ==== Sys2Proof/Machine/Icu.lean ====
section
/-! DEFINITION. The interrupt controller (16_dispatch_interrupts.md R454 to R463): claim, delivery, return with chaining, sleep
and wake, and the writes of its registers. -/

namespace Sys2Proof.Machine

/-- Core `c` can take a source of level `l` (R455). -/
def Dev.canTake (d : Dev) (p : Plane) (c l : Nat) : Bool :=
  let k := d.core p c
  decide (c < 10) && d.runs p && !d.coreOff p c && k.started && !k.halted && wbit k.csw cswIe && !wbit k.csw cswExc &&
    k.stall.isNone && decide (d.rdP p .ICU_CORE_CTL_THRESH c < l) && decide (cswLevel k.csw < l)

/-- Cores of a source's TARGET, lowest first. -/
def Dev.targets (d : Dev) (p : Plane) (s : Nat) : List Nat :=
  (List.range 10).filter (fun c => bit (d.rdP p .ICU_SRC_TARGET s) c)

/-- The cores that may claim a source: its targets, or the fallback core when every target is OFF (R463). A TARGET of 0 has no
core (R454). -/
def Dev.claimants (d : Dev) (p : Plane) (s : Nat) : List Nat :=
  let ts := d.targets p s
  if ts.isEmpty then []
  else if ts.all (d.coreOff p) then
    let f := d.rdP p .ICU_FALLBACK_CORE
    if f < 10 && !d.coreOff p f then [f] else []
  else ts

/-- Every core of TARGET and the fallback are OFF (R463). -/
def Dev.noTarget (d : Dev) (p : Plane) (s : Nat) : Bool := !(d.targets p s).isEmpty && (d.claimants p s).isEmpty

/-- NO_TARGET is raised once for a pending source that no core can ever take as things stand (R463). -/
def noteNoTarget (p : Plane) (s : Nat) (d : Dev) : Dev :=
  if d.rdP p .ICU_SRC_PEND s = 1 && decide (0 < d.rdP p .ICU_SRC_LEVEL s) && d.noTarget p s &&
      !(d.tsk p).noTarget.contains s then
    raiseP p .NO_TARGET [s] (d.updTsk p (fun x => { x with noTarget := x.noTarget ++ [s] }))
  else d

/-- The core that claims source `s` now, if any: the lowest-numbered that can take it (R455). -/
def Dev.claimer (d : Dev) (p : Plane) (s : Nat) : Option Nat :=
  let l := d.rdP p .ICU_SRC_LEVEL s
  if d.rdP p .ICU_SRC_PEND s = 1 && decide (0 < l) then (d.claimants p s).find? (fun c => d.canTake p c l) else none

/-- The claim: PEND clears and the source is committed to core `c` at its level now (R455). -/
def commitClaim (p : Plane) (s c : Nat) (d : Dev) : Dev :=
  let l := d.rdP p .ICU_SRC_LEVEL s
  ((((((d.wrP p .ICU_SRC_PEND 0 s).wrP p .ICU_SRC_CLAIMED 1 s).wrP p .ICU_SRC_CORE c s).wrP p .ICU_CORE_STAT_CLAIM s c).updCore
    p c (fun k => { k with claims := k.claims ++ [(s, l)] })).updTsk p (fun x => { x with
      noTarget := x.noTarget.filter (· != s) }))

/-- INTERRUPT_CLAIM of source `s` in plane `p`. -/
def interruptClaim (p : Plane) (s : Nat) (d : Dev) : Dev :=
  match d.claimer p s with
  | some c => commitClaim p s c d
  | none => noteNoTarget p s d

/-- The source to go first among claimed ones above level `l`: highest level, then lowest number (R459). -/
def bestClaim (l : Nat) (claims : List (Nat × Nat)) : Option (Nat × Nat) :=
  claims.foldl (fun (best : Option (Nat × Nat)) x =>
    if x.2 ≤ l then best
    else match best with
      | some b => if b.2 < x.2 || (b.2 == x.2 && decide (x.1 < b.1)) then some x else best
      | none => some x) none

/-- Address of a source's vector (R456). -/
def Dev.vector (d : Dev) (p : Plane) (s : Nat) : Word := BitVec.ofNat 32 (d.rdP p .ICU_VBASE * 2 ^ 13 + s * 16)

/-- The core enters the handler of a claimed source: LEVEL, vector, and the claim is delivered. -/
def enterHandler (p : Plane) (c : Nat) (x : Nat × Nat) (d : Dev) : Dev :=
  (d.wrP p .ICU_SRC_CLAIMED 0 x.1).updCore p c (fun k => { k with
    csw := cswSetLevel k.csw x.2
    step := false
    pc := d.vector p x.1
    claims := k.claims.filter (fun y => y != x)
    entryWin := some x })

/-- Local address of the interrupt frame at depth `n` (R456). -/
def Dev.frameAt (d : Dev) (p : Plane) (c n : Nat) : Nat := d.rdP p .ICU_CORE_FBASE c + 8 * n

/-- INTERRUPT_DELIVERY (R456, R458): between instructions the highest claimed source above the running level is delivered. In the
entry window of a lower source no second frame is written, and the lower one stays claimed. A frame in a RACKED line waits for the end of
racking (R285). -/
def interruptDelivery (p : Plane) (c : Nat) (s : Part) : Part :=
  let d := s.dev
  let k := d.core p c
  if !d.coreActive p c || wbit k.csw cswExc || !wbit k.csw cswIe then s
  else
    match bestClaim (cswLevel k.csw) k.claims with
    | none => s
    | some x =>
      match k.entryWin with
      | some low => s.onDev (fun d =>
          (enterHandler p c x (d.updCore p c (fun k => { k with claims := k.claims ++ [low] }))).wrP p .ICU_SRC_CLAIMED 1 low.1)
      | none =>
        if 15 ≤ k.depth || rackHolds d c (d.frameAt p c (k.depth + 1)) 8 then s
        else
          let m := s.mems.loc p c
          let a := d.frameAt p c (k.depth + 1)
          { mems := s.mems.setLoc p c ((m.write a 4 k.pc.toNat).write (a + 4) 4 k.csw.toNat)
            dev := noteStore p c a 8 (enterHandler p c x (d.updCore p c (fun k => { k with depth := k.depth + 1 }))) }

/-- Pending sources that core `c` may claim in its exit window above level `l` (R459): it is their lowest-numbered claimant that
can take them, its own level counting as `l`. -/
def Dev.exitClaims (d : Dev) (p : Plane) (c l : Nat) : List (Nat × Nat) :=
  let k := d.core p c
  if !wbit k.csw cswIe || wbit k.csw cswExc then []
  else
    ((List.range 512).filter (fun s =>
      let v := d.rdP p .ICU_SRC_LEVEL s
      d.rdP p .ICU_SRC_PEND s == 1 && decide (l < v) && decide (d.rdP p .ICU_CORE_CTL_THRESH c < v) &&
        (d.claimants p s).find? (fun x => x == c || d.canTake p x v) == some c)).map (fun s => (s, d.rdP p .ICU_SRC_LEVEL s))

/-- RETI (R457, R459, R460): chains to the highest source that exceeds the level in the frame, else restores pc and CSW from the
frame; a return to level 0 with a switch due enters the task in place of the restore. At depth 0 it is illegal. -/
def reti (p : Plane) (c : Nat) (s : Part) : Part :=
  let d := s.dev
  if !d.coreActive p c then s
  else
    let k := d.core p c
    if k.depth = 0 then s.onDev (fun d => takeExc p c k excIllegal k.pc d)
    else
      let m := s.mems.loc p c
      let a := d.frameAt p c k.depth
      let csw : Word := BitVec.ofNat 32 (m.read (a + 4) 4) &&& 0xFFF
      let l := max (cswLevel csw) (d.rdP p .ICU_CORE_CTL_THRESH c)
      let held := if wbit k.csw cswIe && !wbit k.csw cswExc then bestClaim l k.claims else none
      let new := bestClaim l (d.exitClaims p c (cswLevel csw))
      match bestClaim l (held.toList ++ new.toList) with
      | some x =>
        let d1 := if k.claims.contains x then d else commitClaim p x.1 c d
        { s with dev := enterHandler p c x d1 }
      | none =>
        let s1 := s.onDev (fun d => d.updCore p c (fun k => { k with
          pc := alignPc (m.read a 4), csw := csw, depth := k.depth - 1, entryWin := none, step := false }))
        match s1.dev.switchDue p c with
        | some t =>
          if k.depth ≠ 1 then s1 else if rackHolds d c (d.saveArea p c) 0x110 then s else enterTask p c t (saveRunning p c s1)
        | none => s1

/-- SLEEP (R461): the core goes to sleep; the pc is at the next instruction. -/
def sleepI (p : Plane) (c : Nat) (d : Dev) : Dev := instrReg p c (fun k => { k with asleep := true }) d

/-- Something wakes core `c` (R461): a source of its TARGET with a level pends, one is claimed for it, or a PREEMPT-mode task of it
is ready above the sleeping context. -/
def Dev.wakes (d : Dev) (p : Plane) (c : Nat) : Bool :=
  !(d.core p c).claims.isEmpty ||
  (List.range 512).any (fun s => d.rdP p .ICU_SRC_PEND s == 1 && decide (0 < d.rdP p .ICU_SRC_LEVEL s) &&
    bit (d.rdP p .ICU_SRC_TARGET s) c) ||
  (match d.chosen p c true with
   | some t => decide (d.runRank p c < (d.taskDesc t).prio + 1)
   | none => false)

/-- CORE_WAKE (R461): an OFF core is never woken. -/
def coreWake (p : Plane) (c : Nat) (d : Dev) : Dev :=
  if (d.core p c).asleep && !d.coreOff p c && d.wakes p c then d.updCore p c (fun k => { k with asleep := false }) else d

/-- A write of ICU_RAISE in plane `p` (R454): doorbells 10 to 13 and software sources 448 to 511. -/
def icuRaiseWrite (p : Plane) (n : Nat) (d : Dev) : Dev :=
  if (10 ≤ n && n ≤ 13) || (448 ≤ n && n ≤ 511) then noteNoTarget p n (icuRaise p n d) else d

/-- A write of ICU_SRCs (R462): LEVEL and TARGET take the value, a 1 clears PEND and MERGED. -/
def icuSrcWrite (p : Plane) (s w : Nat) (d : Dev) : Dev :=
  let d1 := (d.wrP p .ICU_SRC_LEVEL w s).wrP p .ICU_SRC_TARGET (w / 16) s
  let d2 := if bit w 14 then d1.wrP p .ICU_SRC_PEND 0 s else d1
  noteNoTarget p s (if bit w 20 then d2.wrP p .ICU_SRC_MERGED 0 s else d2)

/-- A write of THRESH (R462). -/
def icuThreshWrite (p : Plane) (c w : Nat) (d : Dev) : Dev := d.wrP p .ICU_CORE_CTL_THRESH w c

/-- A write of ICU_FALLBACK: 10 to 14 are ignored. -/
def icuFallbackWrite (p : Plane) (w : Nat) (d : Dev) : Dev :=
  if w % 16 < 10 || w % 16 = 15 then d.wrP p .ICU_FALLBACK_CORE w else d

/-! ### Fields that show the dispatcher and the ICU

These register fields have no copy of their own: a read computes them from the state they show. -/

/-- A task runs: an activation of it is current or saved. -/
def Dev.taskRun (d : Dev) (p : Plane) (t : Nat) : Bool := ((d.tsk p).saved.get t).isSome || d.taskCurrent p t

/-- The live value of any field (TSK_STATUS, TSK_COREc, TSK_TASKn, ICU_COREc, the age of presence and HST_STATUS.CYCLE are computed, every other is its register). -/
def Dev.live (d : Dev) (f : Fld) (p : Plane) (i j : Nat) : Nat :=
  if f = .TSK_STATUS_NTASK then (d.pat.tasks.filter (fun e => e.2.qdepth != 0)).length
  else if f = .TSK_STATUS_QUSED then (d.pat.tasks.map (fun e => ((d.tsk p).q.get e.1).length)).foldl (· + ·) 0
  else if f = .TSK_CORE_STAT_CUR then (d.core p i).curTask.getD 0x3FF
  else if f = .TSK_CORE_STAT_CUR_INT then b2n (d.core p i).intTask.isSome
  else if f = .TSK_CORE_STAT_PRIO then ((d.core p i).curTask.map (fun t => (d.taskDesc t).prio)).getD 0
  else if f = .TSK_CORE_STAT_STALL then b2n (d.core p i).stall.isSome
  else if f = .TSK_TASK_QLEVEL then ((d.tsk p).q.get i).length
  else if f = .TSK_TASK_RUN then b2n (d.taskRun p i)
  else if f = .ICU_CORE_STAT_LEVEL then cswLevel (d.core p i).csw
  else if f = .ICU_CORE_STAT_DEPTH then (d.core p i).depth
  else if f = .ICU_CORE_STAT_ASLEEP then b2n (d.core p i).asleep
  else if f = .ICU_CORE_STAT_OFF then b2n (d.coreOff p i)
  else if f = .ICU_CORE_STAT_DEFER then b2n (!(d.core p i).claims.isEmpty)
  else if f = .SEC_PRESENCE_AGE then
    match d.boot.presAt with
    | some t => satU 24 ((d.time.tr - t) / (1000000 * nsUnit))
    | none => 0
  else if f = .HST_STATUS_CYCLE then b2n d.cycleRuns
  else d.rdAt f p i j

end Sys2Proof.Machine
end

