-- ==== Sys2Proof/Machine/Capture.lean ====
section
/-! DEFINITION. The capture engine, the trigger bus and the drain of the cellar book (14_capture_cellar_book.md R392 to R415). The
streams go to DRAM as bytes; the capture SRAM between is drained at once, since a plan that passes R408 never fills it. -/

namespace Sys2Proof.Machine

/-- Passes the capture engine through `f`. -/
def Dev.updCap (d : Dev) (f : CapSt → CapSt) : Dev := { d with cap := f d.cap }

/-- Capture states of CAP_STAT. -/
def capIdle : Nat := 0
def capRun : Nat := 1
def capPost : Nat := 2
def capStop : Nat := 3

/-- Capture writes records (R403). -/
def Dev.capturing (d : Dev) : Bool := d.rd .CAP_STAT_STATE == capRun || d.rd .CAP_STAT_STATE == capPost

/-- The plan's base (R399). -/
def Dev.capBase (d : Dev) : Nat := d.rd .CAP_CFG_BASE

/-- An instant of TB0 on the plan's base, by the two bases' values now. -/
def Dev.toPlan (d : Dev) (t : T96) : T96 := ((t : Int) + (d.base d.capBase : Int) - (d.base 0 : Int)).toNat

/-- A channel is enabled: EN with a divider other than 0 (R394). -/
def Dev.chOn (d : Dev) (c : Nat) : Bool := d.rd .CAP_CH_CFG_EN c == 1 && d.rd .CAP_CH_CFG_DIV c != 0

/-- Enabled channels, lowest first. -/
def Dev.chsOn (d : Dev) : List Nat := (List.range 256).filter d.chOn

/-! ### The stream (R396, R397, R407) -/

/-- Ticks of 31.25 ns from the reference, rounded to nearest with ties away from zero (R397). -/
def capTicks (ref t : T96) : Nat := (rdiv ((t : Int) - ref) 2048000).toNat

/-- The bytes of a T96 (R6). -/
def t96Bytes (t : T96) : List Byte := bytesOf 2 (t96Frac t) ++ bytesOf 4 (t96Ns t) ++ bytesOf 6 (t / secUnit)

/-- The bytes of a record (R396). -/
def capBytes (base : Nat) (ref : T96) : CapRec → List Byte
  | .ord c t v => bytesOf 4 (c % 256 + 256 * capTicks ref t) ++ bytesOf 4 (unsigned 32 v)
  | .esc k a t => bytesOf 4 (base % 16 + 16 * (k % 16) + 256 * (a % 256) + 0xFFFF0000) ++ t96Bytes t

/-- The 8 bytes of a PAD record. -/
def padBytes (base : Nat) : List Byte := bytesOf 4 (base % 16 + 240 + 0xFFFF0000) ++ bytesOf 4 0

/-- HEAD has overtaken the host's read position: OVERWRITE and one notification until CAP_RD is written again (R407). -/
def capOverwrite (d : Dev) : Dev :=
  if d.cap.written < d.cap.readTo + d.rd .CAP_SIZE || d.cap.overNoted then d
  else raise .CAP_OVERWRITE wCap [] ((d.wr .CAP_STAT_OVERWRITE 1).updCap (fun x => { x with overNoted := true }))

/-- Appends bytes to the circular region and moves HEAD; `mark` says that an ANCHOR or ARM begins here. -/
def capAppend (bs : List Byte) (mark : Bool) (s : Part) : Part :=
  let d := s.dev
  let size := d.rd .CAP_SIZE
  if size = 0 then s
  else
    let at_ := d.cap.written
    let now := at_ + bs.length
    let marks := ((if mark then d.cap.marks ++ [at_] else d.cap.marks)).filter (fun m => decide (now ≤ m + size))
    { mems := { s.mems with dram := s.mems.dram.writeBytes (d.pat.mem.capture.base + at_ % size) bs }
      dev := capOverwrite (((d.updCap (fun x => { x with written := now, marks := marks })).wr .CAP_HEAD (now % size)).wr .CAP_OLDEST
        ((marks.head?.getD 0) % size)) }

/-- Writes one record: no record crosses the region end (R407); escape records but TRIGGER set t_ref (R397). -/
def capWrite (r : CapRec) (s : Part) : Part :=
  let size := s.dev.rd .CAP_SIZE
  let bs := capBytes s.dev.capBase s.dev.cap.tRef r
  let room := size - s.dev.cap.written % size
  let s1 := if room < bs.length then capAppend (padBytes s.dev.capBase) false s else s
  match r with
  | .ord _ _ _ => capAppend bs false s1
  | .esc k _ t =>
    let s2 := capAppend bs (k == 0 || k == 2) s1
    if k = 1 then s2 else s2.onDev (fun d => d.updCap (fun x => { x with tRef := t, lastT := t }))

/-- Writes an ordinary record, with an ANCHOR at its own time before it when DT would be too large (R398). -/
def capOrd (c : Nat) (t : T96) (v : Int) (s : Part) : Part :=
  let s1 := if 0xFFFEFF < capTicks s.dev.cap.tRef t then capWrite (.esc 0 0 t) s else s
  (capWrite (.ord c t v) s1).onDev (fun d => d.updCap (fun x => { x with
    lastT := t, ch := x.ch.upd c (fun y => { y with recv := v }) }))

/-- The latest sampled value of a channel. -/
def Dev.chLast (d : Dev) (c : Nat) : Int := signed 32 (d.rd .CAP_CH_LAST_VALUE c)

/-- Refresh records of channels, with delta 0 (R395). -/
def refresh (chs : List Nat) (s : Part) : Part :=
  forL chs (fun c s => capOrd c s.dev.cap.tRef (s.dev.chLast c) s) s

/-! ### Triggers (R400 to R403) -/

/-- The instant of a trigger in its registers. -/
def showTrg (n : Nat) (t : T96) (d : Dev) : Dev :=
  (((d.wr .CAP_TRG_T_NS (t96Ns t) n).wr .CAP_TRG_T_SL (t96Sl t) n).wr .CAP_TRG_T_SEC_HI (t96Hi t) n).wr .CAP_TRG_T_FRAC (t96Frac t) n

/-- The firing of a trigger (R403) at `t` on the plan's base, unless it lies in the holdoff (R401). -/
def fire (n : Nat) (t : T96) (s : Part) : Part :=
  if t < s.dev.cap.quiet.get n then s
  else
    let s1 := if s.dev.capturing then capWrite (.esc 1 n t) s else s
    s1.onDev (fun d =>
      let d1 := (showTrg n t d).wr .CAP_TRG_STAT_COUNT (d.rd .CAP_TRG_STAT_COUNT n + 1) n
      let d2 := (d1.wr .CAP_TRG_STAT_FIRED 1 n).updCap (fun x => { x with
        quiet := x.quiet.set n (t + d.rd .CAP_TRG_HOLD_HOLDOFF n * 1000 * nsUnit)
        outs := if d.rd .CAP_TRG_CFG_OUT_EN n = 1 then x.outs ++ [{ line := d.rd .CAP_TRG_CFG_OUT_LINE n }] else x.outs })
      let d3 := captureTasks n t d.capBase (if d.rd .CAP_TRG_CFG_IRQ n = 1 then icuBoth (256 + n) d2 else d2)
      if d.rd .CAP_TRG_CFG_STOP n = 1 && d.rd .CAP_STAT_STATE == capRun then
        ((d3.wr .CAP_STAT_STATE capPost).wr .CAP_STAT_STOP_TRG n).updCap (fun x => { x with
          postUntil := t + d.rd .CAP_CFG_POST_T * 1000000 * nsUnit, postDone := false })
      else d3)

/-- The crossing instant of R402, in 256ths of the interval. -/
def crossing (lvl v0 v1 : Int) (t0 t1 : T96) : T96 :=
  let f := if v0 < v1 then rdiv (256 * (lvl - v0)) (v1 - v0) else rdiv (256 * (v0 - lvl)) (v0 - v1)
  ((t0 : Int) + rdiv (f * ((t1 : Int) - t0)) 256).toNat

/-- The instant at which trigger `n` fires between two samples, if it does (R400, R402). -/
def trigHit (d : Dev) (n : Nat) (v0 v1 : Int) (t0 t1 : T96) : Option T96 :=
  let a := signed 32 (d.rd .CAP_TRG_A n)
  let b := signed 32 (d.rd .CAP_TRG_B n)
  let dir := d.rd .CAP_TRG_CFG_DIR n
  let up := dir == 0 || dir == 2
  let down := dir == 1 || dir == 2
  match d.rd .CAP_TRG_CFG_TYPE n with
  | 1 =>
    if (up && decide (v0 < a) && decide (a ≤ v1)) || (down && decide (a ≤ v0) && decide (v1 < a)) then
      some (crossing a v0 v1 t0 t1)
    else none
  | 2 =>
    let x := bit (unsigned 32 v0) (unsigned 32 a % 32)
    let y := bit (unsigned 32 v1) (unsigned 32 a % 32)
    if (up && !x && y) || (down && x && !y) then some t1 else none
  | 3 =>
    let in0 := decide (a ≤ v0) && decide (v0 ≤ b)
    let in1 := decide (a ≤ v1) && decide (v1 ≤ b)
    if up && !in0 && in1 then some (crossing (if v0 < a then a else b) v0 v1 t0 t1)
    else if down && in0 && !in1 then some (crossing (if v1 < a then a else b) v0 v1 t0 t1)
    else none
  | 4 =>
    let m := BitVec.ofInt 32 b
    let y : Word := BitVec.ofInt 32 a
    if (BitVec.ofInt 32 v1 &&& m) = y && (BitVec.ofInt 32 v0 &&& m) != y then some t1 else none
  | _ => none

/-- Every trigger of a channel tests the sample, recorded or not (R401). -/
def testSample (c : Nat) (v : Int) (t : T96) (s : Part) : Part :=
  match (s.dev.cap.ch.get c).prev with
  | none => s
  | some (v0, t0) =>
    forN 16 (fun n s =>
      if s.dev.rd .CAP_TRG_CFG_CH n = c then
        match trigHit s.dev n v0 v t0 t with
        | some x => fire n x s
        | none => s
      else s) s

/-! ### Samples (R392 to R395) -/

/-- A pulse, as its leading edge and its width in ns, is active at instant `t`. -/
def pulseAt (t : T96) (x : Option (T96 × Nat)) : Bool := x.any (fun p => decide (p.1 ≤ t) && decide (t < p.1 + p.2 * nsUnit))

/-- The levels of the trigger bus lines at an instant of TB0: a line held active, a pulse stamped, a pulse driven (R392, R410). -/
def Dev.busLevels (d : Dev) (t : T96) : Nat :=
  forN 4 (fun l m => setBit m l (bit d.cap.levels l || pulseAt t (d.cap.seen.get l) || pulseAt t (d.cap.driven.get l))) 0

/-- The raw value of a source at instant `t` of TB0, with its faulty mark. -/
def capRaw (s : Part) (t : T96) : CapSrc → Nat × Bool
  | .field f i j => (s.dev.live f (if f.blk.starred then s.dev.active else .A) i j, false)
  | .setPos a => (unsigned 64 (s.dev.spOf s.dev.active a).pos, false)
  | .setVel a => (unsigned 32 (s.dev.spOf s.dev.active a).vel, false)
  | .setTrq a => (unsigned 32 (s.dev.spOf s.dev.active a).trq, false)
  | .loopSp a => (unsigned 64 (s.dev.lax s.dev.active a).pSp, false)
  | .loopFb a => (unsigned 64 (s.dev.meas s.dev.active a), false)
  | .loopCmd a => (unsigned 64 (s.dev.lax s.dev.active a).pCmd, false)
  | .cmdVel a => (unsigned 32 (s.dev.lax s.dev.active a).vCmd, false)
  | .cmdTrq a => (unsigned 32 (s.dev.lax s.dev.active a).tCmd, false)
  | .fbVel a => (unsigned 32 ((s.dev.lax s.dev.active a).vFb.getD 0), false)
  | .force a => (unsigned 32 ((s.dev.lax s.dev.active a).force.getD 0), false)
  | .state a => ((s.mems.pl s.dev.active).state.read a 8, false)
  | .fbPos c => (unsigned 64 (signed 48 (s.dev.fb c).cnt), s.dev.fbBad c)
  | .fbSpeed c => (unsigned 32 (s.dev.fbSpeed c), s.dev.fbBad c)
  | .ai c => (unsigned 32 (s.dev.field.ai.get c).last, (s.dev.field.ai.get c).lastBad)
  | .si => (s.dev.rd .SAF_SI_LEVEL, false)
  | .so => (s.dev.rd .SAF_SO_RB, false)
  | .bus => (s.dev.busLevels t, false)

/-- The value of a channel at instant `t` of TB0: 32 bits from its slice; a faulty sample keeps the previous value (R394). -/
def capValue (s : Part) (c : Nat) (t : T96) : Int :=
  match Sparse.find s.dev.pat.cap.srcs c with
  | none => s.dev.chLast c
  | some (src, lo) =>
    let r := capRaw s t src
    if r.2 then s.dev.chLast c else signed 32 (r.1 / 2 ^ lo)

/-- The sample is recorded (R395): a change beyond DB, or of any bit. -/
def recorded (d : Dev) (c : Nat) (v : Int) : Bool :=
  let r := (d.cap.ch.get c).recv
  if d.rd .CAP_CH_CFG_FMT c = 1 then decide (v ≠ r)
  else decide (d.rd .CAP_CH_DB c < (absI (signed 32 (unsigned 32 (v - r)))).toNat)

/-- A sample is shown, tested by every trigger, and becomes v(k − 1). -/
def takeSample (c : Nat) (v : Int) (t : T96) (s : Part) : Part :=
  (testSample c v t s).onDev (fun d => (d.wr .CAP_CH_LAST_VALUE (unsigned 32 v) c).updCap (fun x => { x with
    ch := x.ch.upd c (fun y => { y with prev := some (v, t) }) }))

/-- One internal channel at the φ5 start: every DIV-th cycle from the arming boundary, stamped with the opening boundary (R393).
The ordinary record precedes the TRIGGER records of the sample, as the worked example shows. -/
def internalSample (c : Nat) (s : Part) : Part :=
  if s.dev.cap.armAge % s.dev.rd .CAP_CH_CFG_DIV c = 0 then
    let v := capValue s c s.dev.cyc.openAt
    let t := s.dev.cap.bT
    takeSample c v t (if s.dev.capturing && recorded s.dev c v then capOrd c t v s else s)
  else s

/-- Writes the fast records held since the boundary, in order of time (R397). -/
def flushHeld (s : Part) : Part :=
  forL s.dev.cap.hold (fun r s => match r with
    | .ord c t v => if s.dev.capturing then capOrd c t v s else s
    | .esc k a t => capWrite (.esc k a t) s) (s.onDev (fun d => d.updCap (fun x => { x with hold := [], flushed := true })))

/-- The φ5 start (R393, R397): internal channels, then the fast records held since the boundary. -/
def capPhase5 (s : Part) : Part := flushHeld (forL ((s.dev.chsOn).filter (fun c => decide (16 ≤ c))) internalSample s)

/-- Holds a fast record in order of time. -/
def holdRec (r : CapRec) (t : T96) : List CapRec → List CapRec
  | [] => [r]
  | x :: l => match x with
    | .ord _ u _ => if t < u then r :: x :: l else x :: holdRec r t l
    | .esc _ _ _ => x :: holdRec r t l

/-- FAST_CHANNEL_SAMPLE (R394): channel `c` at boundary + k × DIV µs of this cycle. -/
def fastSample (c k : Nat) (s : Part) : Part :=
  let d := s.dev
  let ofs := k * d.rd .CAP_CH_CFG_DIV c * 1000 * nsUnit
  if 16 ≤ c || !d.chOn c || d.cycLen ≤ ofs then s
  else
    let v := capValue s c (d.cyc.openAt + ofs)
    let t := d.cap.bT + ofs
    let s1 := if d.capturing && recorded d c v then
        (if d.cap.flushed then capOrd c t v s
         else s.onDev (fun d => d.updCap (fun x => { x with
           hold := holdRec (.ord c t v) t x.hold
           ch := x.ch.upd c (fun y => { y with recv := v }) })))
      else s
    takeSample c v t s1

/-! ### Arming and the boundary (R398, R404 to R406) -/

/-- A write of ARM (R404). -/
def capArm (d : Dev) : Dev :=
  if d.capturing then d
  else if d.chsOn.isEmpty || d.baseState d.capBase = 0 then raise .CAP_ARM_REFUSED wCap [] (d.wr .CAP_ARM_ARM_ERR 1)
  else d.updCap (fun x => { x with armReq := true })

/-- A write of STOP (R404). -/
def capStopWrite (d : Dev) : Dev := if d.capturing then d.updCap (fun x => { x with stopReq := true }) else d

/-- POST_T has elapsed after the stop trigger: capture stops at the next boundary (R405). -/
def postExpiry (d : Dev) : Dev :=
  if d.rd .CAP_STAT_STATE = capPost then d.updCap (fun x => { x with postDone := true }) else d

/-- Ends a run with an END record at `t` (R404, R405). -/
def capEnd (arg st : Nat) (t : T96) (s : Part) : Part :=
  let s1 := if s.dev.capturing then capWrite (.esc 3 arg t) s else s
  s1.onDev (fun d => (d.wr .CAP_STAT_STATE st).updCap (fun x => { x with stopReq := false, postDone := false, hold := [] }))

/-- A Pattern activation writes the records held, ends capture with END 2 and leaves IDLE (R405). The END record carries the instant of
the activation, or the time of the latest record where that is later (R397; DEDUCED, log entry 203). -/
def capActivation (s : Part) : Part :=
  if s.dev.capturing then
    let s1 := flushHeld s
    capEnd 2 capIdle (max (s1.dev.base s1.dev.capBase) s1.dev.cap.lastT) s1
  else s.onDev (fun d => d.wr .CAP_STAT_STATE capIdle)

/-- What capture does at a boundary, in order: the new reference instant, STEP when the base was stepped, PLAN and refresh for the
channels `changed` by a set that became live, STOP, POST_T, ARM, and the periodic anchor. -/
def capBoundary (stepped live : Bool) (changed : List Nat) (s0 : Part) : Part :=
  let s := s0.onDev (fun d => d.updCap (fun x => { x with
    bT := d.base d.capBase
    flushed := false
    armAge := x.armAge + 1
    ch := forL changed (fun c t => t.upd c (fun y => { y with prev := none })) x.ch }))
  let t := s.dev.cap.bT
  let s1 := if stepped && s.dev.capturing then capWrite (.esc 4 0 t) s else s
  let s2 := if live && s1.dev.capturing then refresh (changed.filter s1.dev.chOn) (capWrite (.esc 5 0 t) s1) else s1
  let s3 := if s2.dev.cap.stopReq && s2.dev.capturing then capEnd 0 capStop t s2 else s2
  let s4 :=
    if s3.dev.rd .CAP_STAT_STATE = capPost && (s3.dev.cap.postDone || decide (s3.dev.cap.postUntil ≤ t)) then
      (capEnd 1 capStop t s3).onDev (icuBoth 272)
    else s3
  let s5 :=
    if s4.dev.cap.armReq then
      let a := s4.onDev (fun d => (d.wr .CAP_STAT_STATE capRun).updCap (fun x => { x with
        armReq := false
        armAge := 0
        ch := forN 256 (fun c y => y.upd c (fun z => { z with prev := none })) x.ch }))
      refresh a.dev.chsOn (capWrite (.esc 2 0 t) a)
    else s4
  if s5.dev.capturing && decide (s5.dev.cap.tRef + 495000000 * nsUnit ≤ t) then
    refresh s5.dev.chsOn (capWrite (.esc 0 0 t) s5)
  else s5

/-- A write of CAP_RD (R407): the read position, and OVERWRITE is noted again. -/
def capRdWrite (w : Nat) (d : Dev) : Dev :=
  let size := d.rd .CAP_SIZE
  let back := if size = 0 then 0 else (d.rd .CAP_HEAD + size - w / 8 * 8 % size) % size
  (d.wr .CAP_RD (w / 8 * 8)).updCap (fun x => { x with readTo := x.written - back, overNoted := false })

/-! ### Staged CAP sets (R408 and the CAP tables) -/

/-- Whether a channel's source is an analog input. -/
def Dev.aiSource (d : Dev) (c : Nat) : Bool :=
  match Sparse.find d.pat.cap.srcs c with
  | some (.ai _, _) => true
  | _ => false

/-- The rate term of a channel in 10^-6 B/s (R408). -/
def rateCh (d : Dev) (c div : Nat) : Nat :=
  if 16 ≤ c then 8 * 10 ^ 6 * secUnit / (div * d.minCycle)
  else if d.aiSource c then min (8 * 10 ^ 15 / (div * 999)) (8 * 50000 * 10 ^ 6)
  else 8 * 10 ^ 15 / (div * 999)

/-- What APPLY refuses in the staged CAP set: a channel, or 256 + a trigger. Each item's own rules are checked, then the rates are
added: anchors and refresh, channels, triggers; the first item that passes 200 MB/s ends the check. -/
def capRefused (d : Dev) : Option Nat :=
  let st (f : Fld) (i : Nat) : Nat := d.staged f .A i 0
  let on (c : Nat) : Bool := st .CAP_CH_CFG_EN c == 1 && st .CAP_CH_CFG_DIV c != 0
  let badCh := (List.range 16).find? (fun c => decide (1000 < st .CAP_CH_CFG_DIV c) ||
    (d.aiSource c && st .CAP_CH_CFG_DIV c != 0 && decide (st .CAP_CH_CFG_DIV c < 20)))
  let badTrg := (List.range 16).find? (fun n =>
    decide (5 < st .CAP_TRG_CFG_TYPE n) || st .CAP_TRG_CFG_DIR n == 3 || decide (st .CAP_TRG_HOLD_HOLDOFF n < 100) ||
    (st .CAP_TRG_CFG_TYPE n == 3 && decide (signed 32 (st .CAP_TRG_B n) < signed 32 (st .CAP_TRG_A n))))
  match badCh, badTrg with
  | some c, _ => some c
  | none, some n => some (256 + n)
  | none, none =>
    let lim := 200 * 10 ^ 12
    let start := (16 + 8 * ((List.range 256).filter on).length) * 10 ^ 10 / 4995
    let chs := (List.range 256).foldl (fun (acc : Nat × Option Nat) c =>
      if acc.2.isSome || !on c then acc
      else
        let v := acc.1 + rateCh d c (st .CAP_CH_CFG_DIV c)
        (v, if lim < v then some c else none)) (start, none)
    ((List.range 16).foldl (fun (acc : Nat × Option Nat) n =>
      if acc.2.isSome || st .CAP_TRG_CFG_TYPE n == 0 then acc
      else
        let v := acc.1 + 16 * 10 ^ 12 / st .CAP_TRG_HOLD_HOLDOFF n
        (v, if lim < v then some (256 + n) else none)) chs).2

/-- Channels whose configuration differs between two devices. -/
def capChanged (old new : Dev) : List Nat :=
  (List.range 256).filter (fun c => old.rd .CAP_CH_CFG_EN c != new.rd .CAP_CH_CFG_EN c ||
    old.rd .CAP_CH_CFG_DIV c != new.rd .CAP_CH_CFG_DIV c || old.rd .CAP_CH_DB c != new.rd .CAP_CH_DB c)

/-! ### The trigger bus (R410 to R412) -/

/-- Length of the calibration sequence and of one window. -/
def calLen : Nat := 25600000 * nsUnit
def calWin : Nat := 400000 * nsUnit

/-- Own controller index. -/
def Dev.ctrl (d : Dev) : Nat := d.rd .CAP_TBUS_CTL_INDEX

/-- Declared controllers but this one. -/
def Dev.others (d : Dev) : List Nat := (List.range 16).filter (fun j => bit (d.rd .CAP_TBUS_CTL_PRESENT) j && j != d.ctrl)

/-- Every declared delay is VALID. -/
def Dev.delaysValid (d : Dev) : Bool :=
  (List.range 4).all (fun l => d.others.all (fun j => d.rdAt .CAP_TBUS_DLY_VALID .A l j == 1))

/-- A calibration that has run its 25.6 ms ends: complete, to be repeated, or failed after 16 repetitions (R412). -/
def calFinish (d : Dev) : Dev :=
  match d.cap.calAt with
  | none => d
  | some t0 =>
    if d.base 0 < t0 + calLen then d
    else
      let d1 := (d.wr .CAP_TBUS_STAT_CAL_RUN 0).updCap (fun x => { x with calAt := none, lead := ⟨none, []⟩ })
      if d.delaysValid then icuBoth 275 ((d1.wr .CAP_TBUS_STAT_CAL_DONE 1).updCap (fun x => { x with calRuns := 0 }))
      else if 17 ≤ d.cap.calRuns then raise .TRG_CAL_FAIL wCap [] (d1.updCap (fun x => { x with calRuns := 0 }))
      else d1.updCap (fun x => { x with calReq := true })

/-- A write of CAL: a calibration at the next TB0 multiple of 4 s (R412). -/
def calWrite (d : Dev) : Dev := (calFinish d).updCap (fun x => { x with calReq := true, calRuns := 0 })

/-- TRG_CALIBRATION: at a TB0 multiple of 4 s the windows begin, for the first time in stage SEWN or on request (R412). The own
pulses of windows 4i to 4i + 3 become due. -/
def trgCalibration (d0 : Dev) : Dev :=
  let d := calFinish d0
  let t := d.base 0 / (4 * secUnit) * (4 * secUnit)
  if d.baseState 0 = 0 || d.rd .SYS_STATE_STAGE ≠ 8 || d.cap.calAt.isSome || !(d.cap.calReq || !d.cap.calFirst) then d
  else
    (d.wr .CAP_TBUS_STAT_CAL_RUN 1).updCap (fun x => { x with
      calReq := false, calFirst := true, calRuns := x.calRuns + 1, calAt := some t
      outs := x.outs ++ (List.range 4).map (fun l => { line := l, due := some (t + calWin * (4 * d.ctrl + l)) }) })

/-- The index whose pulse width lies within ±10 ns of a measured width (R410). -/
def senderOf (width : Nat) : Option Nat := (List.range 16).find? (fun j => decide (190 + 40 * j ≤ width) && decide (width ≤ 210 + 40 * j))

/-- The delay of controller `j` on a line in ns; the own pulses have delay 0. None when not measured. -/
def Dev.trgDelay (d : Dev) (l j : Nat) : Option Nat :=
  if j = d.ctrl then some 0
  else if d.rdAt .CAP_TBUS_DLY_VALID .A l j = 1 then some (d.rdAt .CAP_TBUS_DLY_DELAY .A l j) else none

/-- A pulse of unknown width or sender (R411): the payload gives the line, the width, the mark that the instant is uncompensated, and in
a continuation record the instant (R413). -/
def unknownPulse (l width : Nat) (t : T96) (d : Dev) : Dev :=
  raiseLong .TRG_UNKNOWN wCap [l, width, 1] [t] (d.incSat .CAP_TBUS_STAT_UNKNOWN)

/-- BUS triggers of a line (R400, R411): the leading edge is rising, the trailing edge falling. -/
def busTriggers (l width : Nat) (t : T96) (s : Part) : Part :=
  forN 16 (fun n s =>
    let d := s.dev
    if d.rd .CAP_TRG_CFG_TYPE n = 5 && d.rd .CAP_TRG_CFG_LINE n = l then
      let dir := d.rd .CAP_TRG_CFG_DIR n
      let s1 := if dir = 0 || dir = 2 then fire n (d.toPlan t) s else s
      if dir = 1 || dir = 2 then fire n (d.toPlan (t + width * nsUnit)) s1 else s1
    else s) s

/-- The window of the calibration sequence that an instant lies in (R412). -/
def calWindow (t : T96) : Option Nat := if t % (4 * secUnit) < calLen then some (t % (4 * secUnit) / calWin) else none

/-- The controller whose calibration window on line `l` an instant lies in, when this controller is one of the present, SEWN ones. -/
def Dev.calSender (d : Dev) (l : Nat) (t : T96) : Option Nat :=
  match calWindow t with
  | some k => if k % 4 = l && d.rd .SYS_STATE_STAGE = 8 && bit (d.rd .CAP_TBUS_CTL_PRESENT) d.ctrl then some (k / 4) else none
  | none => none

/-- A pulse that is no part of a calibration: its instant is compensated and it fires the BUS triggers, or it is unknown (R411). -/
def busOrUnknown (l width : Nat) (t : T96) (j : Nat) (s : Part) : Part :=
  match s.dev.trgDelay l j with
  | none => s.onDev (unknownPulse l width t)
  | some dl => busTriggers l width (t - dl * nsUnit) s

/-- A pulse of controller `j` in the calibration window of controller `i` on line `l` (R412): `i`'s pulse in the first 10 µs is the
calibration pulse, which every other controller echoes; every later pulse of another controller is an echo of it, and the sender
measures the round trip of each (DEDUCED, log entry 203). -/
def calPulse (l i j width : Nat) (t : T96) (s : Part) : Part :=
  let d := s.dev
  if j = i && t % (4 * secUnit) % calWin < 10000 * nsUnit then
    s.onDev (fun d => d.updCap (fun x => { x with
      lead := x.lead.set l (some (i, t))
      outs := if i = d.ctrl then x.outs else x.outs ++ [{ line := l, due := some (t + (10000 + 20000 * d.ctrl) * nsUnit) }] }))
  else
    match d.cap.lead.get l with
    | some (i0, t0) =>
      if i0 = i && decide (j ≠ i) && decide (t0 ≤ t) && decide (t < t0 + calWin) then
        if i = d.ctrl then
          let rt : Int := ((t : Int) - t0) / nsUnit
          s.onDev (fun d => (d.wrAt .CAP_TBUS_DLY_DELAY .A l j (fitU 16 (rdiv (rt - 10000 - 20000 * j) 2))).wrAt
            .CAP_TBUS_DLY_VALID .A l j 1)
        else s
      else busOrUnknown l width t j s
    | none => busOrUnknown l width t j s

/-- TRG_PULSE (R411, R412): a pulse on line `l` with leading edge `t` on TB0 and measured width in ns. -/
def trgPulse (l width : Nat) (t : T96) (s0 : Part) : Part :=
  let s := s0.onDev (fun d => (calFinish d).updCap (fun x => { x with seen := x.seen.set l (some (t, width)) }))
  match senderOf width, s.dev.calSender l t with
  | none, _ => s.onDev (unknownPulse l width t)
  | some j, some i => calPulse l i j width t s
  | some j, none => busOrUnknown l width t j s

/-- A line stays active for more than 2 µs (R411). -/
def trgLineFault (l : Nat) (d : Dev) : Dev :=
  if bit (d.rd .CAP_TBUS_STAT_LINE_FLT) l then d
  else
    raise .TRG_LINE_FAULT wCap [l] ((d.wr .CAP_TBUS_STAT_LINE_FLT (setBit (d.rd .CAP_TBUS_STAT_LINE_FLT) l true)).updCap
      (fun x => { x with levels := setBit x.levels l true }))

/-- A faulty line has been idle for 10 ms (R411). -/
def trgLineIdle (l : Nat) (d : Dev) : Dev :=
  (d.wr .CAP_TBUS_STAT_LINE_FLT (setBit (d.rd .CAP_TBUS_STAT_LINE_FLT) l false)).updCap (fun x => { x with
    levels := setBit x.levels l false })

/-- Removes the first element that satisfies a test. -/
def dropFirst {α : Type} (f : α → Bool) : List α → List α
  | [] => []
  | x :: t => if f x then t else x :: dropFirst f t

/-- Line `l` may be driven: it is not held active, and 1 µs has passed since its latest pulse ended (R410). -/
def Dev.lineFree (d : Dev) (l : Nat) : Bool :=
  let past (x : Option (T96 × Nat)) : Bool := x.all (fun p => decide (p.1 + (p.2 + 1000) * nsUnit ≤ d.base 0))
  !(bit d.cap.levels l) && past (d.cap.seen.get l) && past (d.cap.driven.get l)

/-- TRG_OUTPUT_PULSE (R410, R412): the oldest pulse that may be driven leaves on line `l` with the width of the own index, once the line
is free: a calibration pulse or an echo from its due instant on, a trigger pulse outside calibration. -/
def trgOutput (l : Nat) (d0 : Dev) : Dev :=
  let d := calFinish d0
  let ready (o : TrgOut) : Bool := o.line == l && d.lineFree l && (match o.due with
    | some t => decide (t ≤ d.base 0)
    | none => d.cap.calAt.isNone)
  if d.cap.outs.any ready then
    d.updCap (fun x => { x with
      outs := dropFirst ready x.outs
      driven := x.driven.set l (some (d.base 0, 200 + 40 * d.ctrl)) })
  else d

/-! ### The cellar region (R413, R415) -/

/-- The 32 bytes of a cellar record (R413). -/
def celBytes (r : CelRec) : List Byte :=
  t96Bytes r.t ++ bytesOf 1 (r.base % 16 + 16 * b2n r.hold + 32 * (r.kind % 4)) ++ bytesOf 1 (r.ctrl % 16 + 16 * (r.writer % 16)) ++
    bytesOf 4 r.seq ++ bytesOf 2 r.code ++
    (if r.code = Code.HOST_NOTE.num then (List.range 12).map (fun i => BitVec.ofInt 8 (r.payload.getD i 0))
     else (List.range 12).map (Config.payloadByte r.code r.payload))

/-- HEAD of the cellar region has overtaken the host (R415). -/
def celOverwrite (d : Dev) : Dev :=
  if d.cellar.written < d.cellar.readTo + d.rd .CEL_SIZE || d.cellar.overNoted then d
  else raise .CEL_OVERWRITE wCap [] { d with cellar := { d.cellar with overNoted := true } }

/-- One record reaches the region; OLDEST is the oldest record still intact. -/
def celStore (r : CelRec) (s : Part) : Part :=
  let size := s.dev.rd .CEL_SIZE
  if size < 32 then s
  else
    let at_ := s.dev.cellar.written
    let now := at_ + 32
    { mems := { s.mems with dram := s.mems.dram.writeBytes (s.dev.pat.mem.cellar.base + at_ % size) (celBytes r) }
      dev := celOverwrite ((({ s.dev with cellar := { s.dev.cellar with written := now } }).wr .CEL_HEAD (now % size)).wr .CEL_OLDEST
        (if now ≤ size then 0 else now % size)) }

/-- Space returns: one CELLAR_LOSS record per affected writer (R415). -/
def lossRecords (d : Dev) : Dev :=
  forN 9 (fun w d =>
    let n := d.cellar.discarded.get w
    if n = 0 then d
    else raise .CELLAR_LOSS w [n] { d with cellar := { d.cellar with discarded := d.cellar.discarded.set w 0 } }) d

/-- The staging buffer drains to the region, then losses are recorded (R415). -/
def cellarDrain (s : Part) : Part :=
  let rs := s.dev.cellar.staging
  let s1 := s.onDev (fun d => { d with cellar := { d.cellar with staging := [] } })
  (forL rs celStore s1).onDev lossRecords

/-- A write of CEL_RD. -/
def celRdWrite (w : Nat) (d : Dev) : Dev :=
  let size := d.rd .CEL_SIZE
  let back := if size = 0 then 0 else (d.rd .CEL_HEAD + size - w / 32 * 32 % size) % size
  let d1 := d.wr .CEL_RD (w / 32 * 32)
  { d1 with cellar := { d1.cellar with readTo := d1.cellar.written - back, overNoted := false } }

end Sys2Proof.Machine
end

