-- ==== Sys2Proof/Machine/Hash.lean ====
section
/-! DEFINITION. The SM3 hash and the verification of an SM2 signature, which the Pattern's checks of R49 to R53 and R59 use. The spec
names both by their standards and gives no constant of them: PRESUMED, GB/T 32905 and GB/T 32918 (log entry 164). Byte strings stand for
numbers with the first byte most significant, as GB/T 32918 orders them. -/

namespace Sys2Proof.Machine

/-! ### SM3 -/

/-- A byte string as a number, first byte most significant. -/
def numOf (bs : List Byte) : Nat := bs.foldl (fun n b => n * 256 + b.toNat) 0

/-- A number as `n` bytes, most significant first. -/
def bytesFrom (n v : Nat) : List Byte := (List.range n).map (fun k => BitVec.ofNat 8 (v / 256 ^ (n - 1 - k)))

/-- Rotation of a 32-bit word to the left, by less than 32. -/
def rotW (k x : Nat) : Nat := x * 2 ^ k % 2 ^ 32 + x / 2 ^ (32 - k)

/-- The permutations P0 and P1. -/
def permW0 (x : Nat) : Nat := Nat.xor (Nat.xor x (rotW 9 x)) (rotW 17 x)
def permW1 (x : Nat) : Nat := Nat.xor (Nat.xor x (rotW 15 x)) (rotW 23 x)

/-- The next `n` words of the expansion; the words so far stand last first. -/
def expandW : Nat → List Nat → List Nat
  | 0, w => w
  | n + 1, w =>
    let x := permW1 (Nat.xor (Nat.xor (w.getD 15 0) (w.getD 8 0)) (rotW 15 (w.getD 2 0)))
    expandW n (Nat.xor (Nat.xor x (rotW 7 (w.getD 12 0))) (w.getD 5 0) :: w)

/-- The registers A to H of the compression. -/
structure Sm3Regs where
  a : Nat
  b : Nat
  c : Nat
  d : Nat
  e : Nat
  f : Nat
  g : Nat
  h : Nat
  deriving DecidableEq, Repr

/-- Round `j` of the compression with the words W and W' of the round. -/
def roundW (j w w' : Nat) (v : Sm3Regs) : Sm3Regs :=
  let t := rotW (j % 32) (if j < 16 then 0x79CC4519 else 0x7A879D8A)
  let r := rotW 12 v.a
  let s1 := rotW 7 ((r + v.e + t) % 2 ^ 32)
  let s2 := Nat.xor s1 r
  let ff := if j < 16 then Nat.xor (Nat.xor v.a v.b) v.c else Nat.lor (Nat.lor (Nat.land v.a v.b) (Nat.land v.a v.c)) (Nat.land v.b v.c)
  let gg := if j < 16 then Nat.xor (Nat.xor v.e v.f) v.g else Nat.lor (Nat.land v.e v.f) (Nat.land (2 ^ 32 - 1 - v.e) v.g)
  { a := (ff + v.d + s2 + w') % 2 ^ 32, b := v.a, c := rotW 9 v.b, d := v.c
    e := permW0 ((gg + v.h + s1 + w) % 2 ^ 32), f := v.e, g := rotW 19 v.f, h := v.g }

/-- The rounds from `j` on, over the words W. -/
def roundsW : Nat → List Nat → Sm3Regs → Sm3Regs
  | j, w :: x1 :: x2 :: x3 :: x4 :: t, v =>
    if j < 64 then roundsW (j + 1) (x1 :: x2 :: x3 :: x4 :: t) (roundW j w (Nat.xor w x4) v) else v
  | _, _, v => v

/-- The compression of one block of 16 words. -/
def compressW (v : Sm3Regs) (blk : List Nat) : Sm3Regs :=
  let x := roundsW 0 (expandW 52 blk.reverse).reverse v
  ⟨Nat.xor v.a x.a, Nat.xor v.b x.b, Nat.xor v.c x.c, Nat.xor v.d x.d, Nat.xor v.e x.e, Nat.xor v.f x.f, Nat.xor v.g x.g,
    Nat.xor v.h x.h⟩

/-- The words of a byte string. -/
def wordsW : List Byte → List Nat
  | a :: b :: c :: d :: t => numOf [a, b, c, d] :: wordsW t
  | _ => []

/-- The compression over every whole block, `n` at most. -/
def blocksW : Nat → List Nat → Sm3Regs → Sm3Regs
  | 0, _, v => v
  | n + 1, ws, v => if ws.isEmpty then v else blocksW n (ws.drop 16) (compressW v (ws.take 16))

/-- The SM3 hash of a byte string, as a number of 256 bits. -/
def sm3 (m : List Byte) : Nat :=
  let fill := m ++ [0x80] ++ List.replicate ((119 - m.length % 64) % 64) 0 ++ bytesFrom 8 (8 * m.length)
  let v := blocksW fill.length (wordsW fill)
    ⟨0x7380166F, 0x4914B2B9, 0x172442D7, 0xDA8A0600, 0xA96F30BC, 0x163138AA, 0xE38DEE4D, 0xB0FB0E4E⟩
  [v.a, v.b, v.c, v.d, v.e, v.f, v.g, v.h].foldl (fun n x => n * 2 ^ 32 + x) 0

/-! ### SM2 -/

/-- The prime, the coefficients, the order and the base point of the curve of GB/T 32918.5. -/
def sm2P : Nat := 0xFFFFFFFEFFFFFFFFFFFFFFFFFFFFFFFFFFFFFFFF00000000FFFFFFFFFFFFFFFF
def sm2A : Nat := 0xFFFFFFFEFFFFFFFFFFFFFFFFFFFFFFFFFFFFFFFF00000000FFFFFFFFFFFFFFFC
def sm2B : Nat := 0x28E9FA9E9D9F5E344D5A9E4BCF6509A7F39789F515AB8F92DDBCBD414D940E93
def sm2N : Nat := 0xFFFFFFFEFFFFFFFFFFFFFFFFFFFFFFFF7203DF6B21C6052B53BBF40939D54123
def sm2Gx : Nat := 0x32C4AE2C1F1981195F9904466A39C9948FE30BBFF2660BE1715A4589334C74C7
def sm2Gy : Nat := 0xBC3736A2F4F6779C59BDCEE36B692153D0A9877CC62A474002DF32E52139F0A0

/-- A point of the curve: x = X / Z², y = Y / Z³; the point at infinity has Z = 0. -/
structure EcPoint where
  x : Nat
  y : Nat
  z : Nat
  deriving DecidableEq, Repr

/-- Product and difference modulo the prime. -/
def mulP (a b : Nat) : Nat := a * b % sm2P
def subP (a b : Nat) : Nat := (a + sm2P - b % sm2P) % sm2P

/-- Twice a point. -/
def ecDbl (p : EcPoint) : EcPoint :=
  let g := mulP p.y p.y
  let b := mulP p.x g
  let zz := mulP p.z p.z
  let al := mulP 3 (mulP (subP p.x zz) (p.x + zz))
  let x := subP (mulP al al) (8 * b)
  { x := x, y := subP (mulP al (subP (4 * b) x)) (8 * mulP g g), z := mulP 2 (mulP p.y p.z) }

/-- The sum of two points. -/
def ecAdd (p q : EcPoint) : EcPoint :=
  if p.z = 0 then q
  else if q.z = 0 then p
  else
    let z1 := mulP p.z p.z
    let z2 := mulP q.z q.z
    let u1 := mulP p.x z2
    let h := subP (mulP q.x z1) u1
    let s1 := mulP p.y (mulP z2 q.z)
    let r := subP (mulP q.y (mulP z1 p.z)) s1
    if h = 0 then (if r = 0 then ecDbl p else { x := 1, y := 1, z := 0 })
    else
      let hh := mulP h h
      let hhh := mulP h hh
      let v := mulP u1 hh
      let x := subP (mulP r r) (hhh + 2 * v)
      { x := x, y := subP (mulP r (subP v x)) (mulP s1 hhh), z := mulP h (mulP p.z q.z) }

/-- s·G + t·P from bit `k - 1` down; `sum` is G + P. -/
def ecComb (s t : Nat) (g p sum : EcPoint) : Nat → EcPoint → EcPoint
  | 0, acc => acc
  | k + 1, acc =>
    let d := ecDbl acc
    ecComb s t g p sum k (match bit s k, bit t k with
      | true, true => ecAdd d sum
      | true, false => ecAdd d g
      | false, true => ecAdd d p
      | false, false => d)

/-- The hash Z of the signer: the default identifier of GB/T 32918.2, the curve and the public key. -/
def sm2Z (key : List Byte) : Nat :=
  sm3 ([0x00, 0x80] ++ ([0x31, 0x32, 0x33, 0x34, 0x35, 0x36, 0x37, 0x38, 0x31, 0x32, 0x33, 0x34, 0x35, 0x36, 0x37, 0x38] : List Byte) ++
    bytesFrom 32 sm2A ++ bytesFrom 32 sm2B ++ bytesFrom 32 sm2Gx ++ bytesFrom 32 sm2Gy ++ key)

/-- The signature `sig` (r ‖ s) over the message `msg` verifies under the public key `key` (x ‖ y). -/
def sm2Verify (key sig msg : List Byte) : Bool :=
  let px := numOf (key.take 32)
  let py := numOf (key.drop 32)
  let r := numOf (sig.take 32)
  let s := numOf (sig.drop 32)
  let e := sm3 (bytesFrom 32 (sm2Z key) ++ msg)
  let t := (r + s) % sm2N
  let g : EcPoint := ⟨sm2Gx, sm2Gy, 1⟩
  let p : EcPoint := ⟨px, py, 1⟩
  let q := ecComb s t g p (ecAdd g p) 256 ⟨1, 1, 0⟩
  let x := (r + sm2N - e % sm2N) % sm2N
  let zz := mulP q.z q.z
  key.length == 64 && sig.length == 64 && decide (px < sm2P) && decide (py < sm2P) &&
  mulP py py == (mulP px (mulP px px) + mulP sm2A px + sm2B) % sm2P &&
  decide (1 ≤ r) && decide (r < sm2N) && decide (1 ≤ s) && decide (s < sm2N) && t != 0 && q.z != 0 &&
  (mulP x zz == q.x || (decide (x + sm2N < sm2P) && mulP (x + sm2N) zz == q.x))

end Sys2Proof.Machine
end

