-- ==== Sys2Proof/Machine/RingFrames.lean ====
section
/-! DEFINITION. The bytes of Lockstitch frames (12_lockstitch_schedule.md R338 to R358, 13_lockstitch_startup_healing.md R371, R373): header,
check values and delimiters, the receiver's checks, and the payloads as bytes. -/

namespace Sys2Proof.Machine

/-! ### The frame (R338, R339) -/

/-- TYPE codes of R338. -/
def tySync : Nat := 1
def tyCycle : Nat := 2
def tySlot : Nat := 3
def tyTack : Nat := 4
def tyClaim : Nat := 5

/-- WIN of sync and tack frames. -/
def winNone : Nat := 0x3FF

/-- The header bytes 0x00 to 0x09. -/
def headBytes (type ver flags src win len cyc : Nat) : List Nat :=
  leBytes 1 (type % 16 + 16 * ver) ++ leBytes 1 flags ++ leBytes 2 src ++ leBytes 2 win ++ leBytes 2 len ++ leBytes 2 cyc

/-- The header of a frame that this controller sends, with HCRC. -/
def TxFrame.header (f : TxFrame) : List Nat :=
  let h := headBytes f.type f.ver f.flags f.src f.win f.pay.length f.cyc
  h ++ leBytes 2 (crc16 h)

/-- The FCS of a frame: the CRC-32 of IEEE 802.3 over header and payload. -/
def TxFrame.fcs (f : TxFrame) : Nat := crc32 0xFFFFFFFF (f.header ++ f.pay)

/-- A character on a lane: data, or a control character by its name. -/
inductive LaneChar where
  | data (b : Nat)
  | k27_7 | k29_7 | k30_7
  deriving DecidableEq, Repr

/-- The characters of a frame, delimiters and all. -/
def TxFrame.chars (f : TxFrame) : List LaneChar :=
  let h := f.header
  [.k27_7, .data (h.getD 0 0)] ++ (h ++ f.pay ++ leBytes 4 f.fcs).map .data ++
    (match f.fin with | .good => [.k29_7, .k29_7] | .aborted => [.k29_7, .k30_7])

/-- How long a frame with `len` payload bytes occupies a lane, in ns. -/
def frameNs (len : Nat) : Nat := (len + 20) * 2

/-- Header bytes as received, and whether HCRC or the FCS fails over them. -/
def RxHead.bytes (h : RxHead) (src : Nat) : List Nat :=
  headBytes h.type h.ver h.flags (src % 512 + 512 * h.srcHigh) h.win h.len h.cyc

/-- HCRC or the FCS fails (R339). -/
def RxHead.crcBad (h : RxHead) (src : Nat) (pay : List Nat) : Bool :=
  let b := h.bytes src
  crc16 b != h.hcrc || crc32 0xFFFFFFFF (b ++ leBytes 2 h.hcrc ++ pay) != h.fcs

/-- The other checks of R339 for a frame of type `type` with `lo` to `hi` payload bytes; `res` says that a reserved bit of its payload is 1. -/
def RxHead.formBad (h : RxHead) (type lo hi : Nat) (res : Bool) (pay : List Nat) : Bool :=
  h.type != type || (h.ver != 1 && h.ver != 2) || decide (h.len < lo) || decide (hi < h.len) || h.len != pay.length ||
  decide (4 ≤ h.flags) || h.srcHigh != 0 || res

/-- The header with which a frame that a sender formed well arrives. -/
def TxFrame.rx (f : TxFrame) : RxHead :=
  { type := f.type, ver := f.ver, flags := f.flags, win := f.win, len := f.pay.length, cyc := f.cyc
    hcrc := crc16 (headBytes f.type f.ver f.flags f.src f.win f.pay.length f.cyc), fcs := f.fcs, fin := f.fin }

/-- A frame that arrives is the one that was sent. -/
def TxFrame.same (f : TxFrame) (h : RxHead) (pay : List Nat) : Bool := h == f.rx && pay == f.pay

/-! ### Sync, tack, claim (R341, R358) -/

/-- The 44 bytes of a sync payload. -/
def SyncFrame.bytes (f : SyncFrame) : List Nat :=
  t96Le f.tBnd ++ leBytes 4 f.cycnt ++ leBytes 4 (f.len / 65536) ++ leBytes 2 (f.len % 65536) ++ [f.mode % 4 + 4 * (f.next % 4), f.rank % 256] ++
    leBytes 4 f.sched ++ [b2n f.step.isSome, 0, 0, 0] ++ t96Le (f.step.getD 0)

/-- What the bytes of a sync payload say. -/
def SyncRx.frame (r : SyncRx) : SyncFrame :=
  let p := r.pay
  let m := p.getD 0x16 0
  { tBnd := leT96 p 0, cycnt := le p 0x0C 4, len := le p 0x10 4 * 65536 + le p 0x14 2, mode := m % 4, next := m / 4 % 4
    rank := p.getD 0x17 0, sched := le p 0x18 4, step := if p.getD 0x1C 0 % 2 = 1 then some (leT96 p 0x20) else none
    src := r.src, err := r.err }

/-- A reserved bit of a sync payload is 1. -/
def SyncRx.res (r : SyncRx) : Bool :=
  let p := r.pay
  decide (64 ≤ p.getD 0x05 0) || decide (16 ≤ p.getD 0x16 0) || decide (2 ≤ p.getD 0x1C 0) || !zeroBytes p 0x1D 0x20 ||
    decide (64 ≤ p.getD 0x25 0)

/-- The 16 bytes of a tack payload, and of a claim payload. -/
def tackBytes (rank lsVer res sched ident : Nat) : List Nat :=
  [rank % 256, lsVer % 256] ++ leBytes 2 res ++ leBytes 4 sched ++ leBytes 8 ident
def claimBytes (slot lsVer tr sched ident : Nat) : List Nat :=
  leBytes 2 slot ++ [lsVer % 256, tr % 256] ++ leBytes 4 sched ++ leBytes 8 ident

/-- IDENT of a node: bytes 0x00 to 0x07 of its identity record, as the node list records it (R371). -/
def nodeIdent (type cls addr : Nat) : Nat := type % 2 ^ 32 + 2 ^ 32 * (cls % 65536) + 2 ^ 48 * (addr % 512)

/-! ### Slot payloads (R348, R371) -/

/-- The 24 bytes of an identity record, and the record that 24 bytes are. -/
def Ident.bytes (r : Ident) : List Nat :=
  leBytes 4 r.type ++ leBytes 2 r.cls ++ leBytes 2 r.addr ++ [r.lsVer % 256, r.sfVer % 256] ++ leBytes 2 r.res ++ leBytes 8 r.serial ++
    leBytes 4 r.fwRev
def identOf (b : List Nat) : Ident :=
  { type := le b 0 4, cls := le b 4 2, addr := le b 6 2, lsVer := b.getD 8 0, sfVer := b.getD 9 0, res := le b 10 2
    serial := le b 12 8, fwRev := le b 20 4 }

/-- A drive status record: 20 bytes, 24 of a web drive. -/
def DriveRec.bytes (web : Bool) (r : DriveRec) : List Nat :=
  leBytes 8 (unsigned 64 r.pos) ++ leBytes 4 (unsigned 32 r.vel) ++ leBytes 4 (unsigned 32 r.trq) ++ leBytes 4 r.stat ++
    (if web then leBytes 4 (unsigned 32 r.force) else [])

/-- The bytes of a slot payload; `webs` says of each axis of the node whether it is a web drive's. -/
def SlotPayload.bytes (webs : List Bool) : SlotPayload → List Nat
  | .ident r => r.bytes
  | .process subs recs msgs =>
    subs.flatten ++ ((List.range recs.length).zip recs).flatMap (fun e => e.2.bytes (webs.getD e.1 false)) ++ msgs.flatMap (·.bytes)

/-- A reserved bit of a slot payload is 1. -/
def SlotPayload.res : SlotPayload → Bool
  | .ident r => decide (512 ≤ r.addr) || r.res != 0
  | .process _ recs _ => recs.any (fun r => decide (2 ^ 22 ≤ r.stat))

/-! ### Safety sub-frames (R354) -/

/-- The initial value of the CRC of a sender's sub-frames; `b` for a permission sub-frame of channel B. -/
def safInit (node : Nat) (b : Bool) : Nat := Nat.xor (Nat.xor 0xFFFF0000 node) (if b then 0x10000 else 0)

/-- The 20-byte header of a sub-frame. -/
def safHead (type ver num status seq : Nat) (stamp : List Nat) : List Nat :=
  [type % 256, ver % 256, num % 256, status % 256] ++ leBytes 4 seq ++ stamp

/-- A sub-frame of header and body with its CRC. -/
def safSub (init : Nat) (head body : List Nat) : List Nat :=
  let b := head ++ body
  b ++ leBytes 4 (crc32 init b)

/-- The CRC of a sub-frame is right under the initial value. -/
def safCrcOk (init : Nat) (b : List Nat) : Bool :=
  let n := b.length - 4
  le b n 4 == crc32 init (b.take n)

/-- The permission map of a version: bit `a` mod 8 of byte `a` div 8 is 1 for the nodes of `on`. -/
def permMap (ver : Nat) (on : List Nat) : List Nat :=
  (List.range (if ver = 2 then 64 else 32)).map (fun i =>
    ((List.range 8).map (fun k => if on.contains (8 * i + k) then 2 ^ k else 0)).sum)

/-- The permission sub-frame of a channel in a version, from the node `id`. -/
def permSub (b : Bool) (ver seq : Nat) (t : T96) (id : Nat) (on : List Nat) : List Nat :=
  safSub (safInit id b) (safHead (if b then 0x12 else 0x11) ver 0 0 seq (t96Le t)) (permMap ver on)

/-- SFTYPE of a channel's permission sub-frame. -/
def permType (b : Bool) : Nat := if b then 0x12 else 0x11

/-- The CRC of a permission sub-frame with map `map` is right under an initial value. -/
def PermHead.crcOk (h : PermHead) (init seq : Nat) (map : List Nat) : Bool :=
  crc32 init (safHead h.sfType h.ver h.num h.status seq h.stamp ++ map) == h.crc

/-! ### Cycle frames (R344) -/

/-- Puts bytes at an offset of an area, which grows with zeros. -/
def putAt (acc : List Nat) (o : Nat) (b : List Nat) : List Nat :=
  (acc ++ List.replicate (o - acc.length) 0).take o ++ b ++ acc.drop (o + b.length)

/-- A command record as bytes: 16 of a stepper's, 12 of a drive's; and the record that such bytes are. -/
def recordBytes (stepper : Bool) (r : List Int) : List Nat :=
  let f (i : Nat) : Int := r.getD i 0
  if stepper then
    leBytes 4 (unsigned 32 (f 0)) ++ leBytes 4 (unsigned 32 (f 1)) ++ leBytes 2 (unsigned 16 (f 2)) ++ leBytes 2 (unsigned 16 (f 3)) ++
      leBytes 2 (unsigned 16 (f 4)) ++ [unsigned 8 (f 5), 0]
  else leBytes 4 (unsigned 32 (f 0)) ++ leBytes 4 (unsigned 32 (f 1)) ++ leBytes 2 (unsigned 16 (f 2)) ++ [0, 0]
def recordOf (stepper : Bool) (b : List Nat) (o : Nat) : List Int :=
  if stepper then [le b o 4, leInt b (o + 4) 4, leInt b (o + 8) 2, leInt b (o + 10) 2, le b (o + 12) 2, b.getD (o + 14) 0]
  else [leInt b o 4, leInt b (o + 4) 4, le b (o + 8) 2]
def recordLen (stepper : Bool) : Nat := if stepper then 16 else 12

/-- The payload of a cycle frame from its three areas, each of a multiple of 4 bytes. -/
def cyclePay (saf cmd words : List Nat) : List Nat :=
  let pad (l : List Nat) : List Nat := l ++ List.replicate ((4 - l.length % 4) % 4) 0
  leBytes 2 (pad saf).length ++ leBytes 2 (pad cmd).length ++ leBytes 2 (pad words).length ++ [0, 0] ++ pad saf ++ pad cmd ++ pad words

/-- The lengths of the directory, the command area and the word area of a cycle payload. -/
def safLen (p : List Nat) : Nat := le p 0 2
def cmdLen (p : List Nat) : Nat := le p 2 2
def wordLen (p : List Nat) : Nat := le p 4 2
def cmdArea (p : List Nat) : List Nat := (p.drop (8 + safLen p)).take (cmdLen p)
def wordArea (p : List Nat) : List Nat := (p.drop (8 + safLen p + cmdLen p)).take (wordLen p)

/-- A reserved bit of a cycle payload is 1: in the directory, or an area of no whole words. -/
def cycleRes (p : List Nat) : Bool :=
  !zeroBytes p 6 8 || safLen p % 4 != 0 || cmdLen p % 4 != 0 || wordLen p % 4 != 0 ||
  p.length != 8 + safLen p + cmdLen p + wordLen p

/-- A correction record: corr_in and corr_out in 1/16 ns (R373). -/
def corrBytes (i o : Int) : List Nat := leBytes 2 (unsigned 16 i) ++ leBytes 2 (unsigned 16 o)

end Sys2Proof.Machine
end

