-- ==== Sys2Proof/Machine/Coop.lean ====
section
/-! DEFINITION. Cooperating arms and shared zones (05_cooperation.md): the reservation pass, coupled blocks and proximity.
Everything here belongs to one plane and runs at planning-tick boundaries unless said otherwise. -/

namespace Sys2Proof.Machine

/-! ### Zones (R144 to R153) -/

/-- A requester is an uncoupled arm, or the carrier of a coupled block (R158). -/
def Dev.requesters (d : Dev) (p : Plane) : List Nat :=
  (d.pat.arms.map (·.1)).filter (fun n => carrierOf (d.armGroup p n) n == n)

/-- Holder of a zone: 15 when it is free. -/
def Dev.holder (d : Dev) (p : Plane) (z : Nat) : Nat := d.rdP p .PPE_ZONE_HOLDER z

/-- Zones by ascending rank (R144): insertion by rank. -/
def insertRank (e : Nat × ZoneSec) : List (Nat × ZoneSec) → List (Nat × ZoneSec)
  | [] => [e]
  | x :: t => if e.2.rank ≤ x.2.rank then e :: x :: t else x :: insertRank e t

/-- The zones of the Pattern in ascending rank. -/
def Dev.zonesByRank (d : Dev) : List Nat := (d.pat.geom.zones.foldr insertRank []).map (·.1)

/-- A requester holds a zone: as its holder, or by a share that one of its arms kept from a block's token (R161). -/
def Dev.holds (d : Dev) (p : Plane) (n z : Nat) : Bool :=
  d.holder p z == n || (d.armGroup p n).any (fun a => (d.arm p a).share.contains z)

/-- Zones that a requester holds. -/
def Dev.held (d : Dev) (p : Plane) (n : Nat) : List Nat := d.zonesByRank.filter (d.holds p n)

/-- Sets the ZHELD bit of a zone. -/
def setHeld (p : Plane) (n z : Nat) (v : Bool) (d : Dev) : Dev :=
  if z < 32 then d.wrP p .PPE_ARM_ZHELD_LO (setBit (d.rdP p .PPE_ARM_ZHELD_LO n) z v) n
  else d.wrP p .PPE_ARM_ZHELD_HI (setBit (d.rdP p .PPE_ARM_ZHELD_HI n) (z - 32) v) n

/-- A grant or a release goes to the cellar book (R150). No table gives these records a code or a KIND: the code is a free value, and they
are filed as events, KIND 2 (DESIGN CHOICE, log entry 124). -/
def zoneRecord (p : Plane) (release : Bool) (n z : Nat) (d : Dev) : Dev :=
  recordP p d.tickStamp.1 d.tickStamp.2 ((Config.zoneCode release).val + 1) 2 [n, z] d

/-- Grants a zone to a requester. -/
def grantZone (p : Plane) (n z : Nat) (d : Dev) : Dev :=
  let d1 := d.updArm p n (fun a => { a with violated := a.violated.filter (· != z) })
  zoneRecord p false n z (setHeld p n z true ((d1.wrP p .PPE_ZONE_HOLDER n z).wrP p .PPE_ZONE_BLOCK
    (b2n (d.armBlock p n).isSome) z))

/-- An arm takes a token over, without a new grant (R155, R161). -/
def passZone (p : Plane) (m n z blk : Nat) (d : Dev) : Dev :=
  setHeld p n z true (setHeld p m z false ((d.wrP p .PPE_ZONE_HOLDER n z).wrP p .PPE_ZONE_BLOCK blk z))

/-- Gives up the share of a zone. -/
def dropShare (p : Plane) (n z : Nat) (d : Dev) : Dev :=
  d.updArm p n (fun a => { a with share := a.share.filter (· != z) })

/-- A requester releases a zone: its shares end, and a token of which it is the holder passes to the lowest arm that keeps a share of it,
or becomes free (R151, R161). -/
def releaseZone (p : Plane) (n z : Nat) (d : Dev) : Dev :=
  let d1 := setHeld p n z false (forL (d.armGroup p n) (fun a d => setHeld p a z false (dropShare p a z d)) d)
  if d1.holder p z ≠ n then d1
  else
    match (d1.pat.arms.map (·.1)).find? (fun a => (d1.arm p a).share.contains z) with
    | some a => passZone p n a z 0 (dropShare p a z d1)
    | none => zoneRecord p true n z ((d1.wrP p .PPE_ZONE_HOLDER 15 z).wrP p .PPE_ZONE_BLOCK 0 z)

/-- A capsule of an arm intersects a zone at its set-points, with ZONE_MARGIN (R145). -/
def Dev.armIn (d : Dev) (p : Plane) (a z : Nat) : Bool :=
  ((Sparse.find d.pat.geom.zones z).any (fun s =>
    ((d.armGeo a).capsules (d.armQ p a)).any (fun c => zoneHit s (d.pat.geom.margin * 2 ^ 28) c.2)))

/-- A capsule of the requester's arms intersects a zone at the set-points (R151, R152). -/
def Dev.inZone (d : Dev) (p : Plane) (n z : Nat) : Bool := (d.armGroup p n).any (fun a => d.armIn p a z)

/-- Segments of the run that the path has not passed; without a request, of the run that the path is in. -/
def ArmSt.runLeft (a : ArmSt) : List Seg :=
  match a.run with
  | some r => (a.q.drop r.pre).take r.len
  | none => (a.q.take a.la).takeWhile (fun g => !g.zones.isEmpty)

/-- Releases that are due for one requester (R151). A run that the path has passed wholly is over, also where a zone is still held: the arm
requests again once it holds none (R147); one that waits in a zone of another arm keeps its run (R152). -/
def releaseDue (p : Plane) (n : Nat) (d : Dev) : Dev :=
  let d1 := forL (d.held p n) (fun z d =>
    if (d.arm p n).runLeft.any (fun g => g.zones.contains z) || d.inZone p n z then d else releaseZone p n z d) d
  if (d1.arm p n).run.isSome && (d1.arm p n).runLeft.isEmpty && (d1.arm p n).violated.isEmpty then
    d1.updArm p n (fun a => { a with run := none })
  else d1

/-- A requester found in a zone that it does not hold: a free zone is granted at once; a held one is a violation, reported when it begins
(R152). -/
def checkInside (p : Plane) (n z : Nat) (d : Dev) : Dev :=
  let bad := (d.arm p n).violated
  if d.holds p n z || !(d.inZone p n z) then
    if bad.contains z then d.updArm p n (fun a => { a with violated := bad.filter (· != z) }) else d
  else if d.holder p z = 15 then raiseP p .ZONE_UNPLANNED [n, z] (grantZone p n z d)
  else if bad.contains z then d
  else requestStop p n .fault true (raiseP p .ZONE_VIOLATION [n, z]
    ((d.updArm p n (fun a => { a with violated := bad ++ [z] })).wrP p .PPE_ARM_COOP_ZVIOL 1 n))

/-- Number of leading segments with a non-empty zone set. -/
def runLength : List Seg → Nat
  | [] => 0
  | g :: t => if g.zones.isEmpty then 0 else runLength t + 1

/-- Segments before the first one with a non-empty zone set. -/
def freeLength : List Seg → Nat
  | [] => 0
  | g :: t => if g.zones.isEmpty then freeLength t + 1 else 0

/-- Zones of a list of segments, each once. -/
def zoneUnion (l : List Seg) : List Nat :=
  l.foldl (fun acc g => g.zones.foldl (fun a z => if a.contains z then a else a ++ [z]) acc) []

/-- The run ahead of an arm, if its end is known: segments before it and its length (R147). -/
def ArmSt.nextRun (a : ArmSt) : Option (Nat × Nat) :=
  let look := a.q.take a.la
  let pre := freeLength look
  let len := runLength (look.drop pre)
  if len ≠ 0 && (decide (pre + len < a.la) || decide (a.la = a.q.length)) then some (pre, len) else none

/-- The arm stands in a zone of another one and moves again: its fault is cleared and RESUME is accepted (R152). -/
def Dev.rejoins (d : Dev) (p : Plane) (n : Nat) : Bool :=
  let a := d.arm p n
  !a.violated.isEmpty && d.armState p n != stFault && !a.hardStop && !a.request.any (fun r => decide (2 ≤ causeRank r.cause))

/-- The run of an arm that stands in a zone of another one: it includes that zone, and what the arm holds or already runs through, and it
waits where the arm stands (R152; DEDUCED, log entry 161). -/
def joinRun (a : ArmSt) (held : List Nat) : ZoneRun :=
  let n := max 1 (match a.run with
    | some r => r.pre + r.len
    | none => (a.nextRun.map (fun e => e.1 + e.2)).getD 0)
  let zones := zoneUnion (a.q.take n)
  let more := held ++ a.violated.filter (fun z => !held.contains z)
  { zones := more ++ zones.filter (fun z => !more.contains z), pre := 0, len := n, wait := 0 }

/-- A requester that holds no token forms its request (R147), or its run does not fit, which is reported once and ends in FAULT at the start
of the run (R148). -/
def formRequest (p : Plane) (n : Nat) (d : Dev) : Dev :=
  let a := d.arm p n
  if d.rejoins p n then
    if a.run.any (fun r => !r.granted && a.violated.all r.zones.contains) then d
    else d.updArm p n (fun x => { x with run := some (joinRun x (d.held p n)) })
  else if a.run.isSome || !(d.held p n).isEmpty then d
  else
    match a.nextRun with
    | some (pre, len) =>
      d.updArm p n (fun x => { x with
        run := some { zones := zoneUnion ((x.q.drop pre).take len), pre := pre, len := len, wait := 0 } })
    | none =>
      if runLength (a.q.take a.la) = 64 && a.faultAfter.isNone && d.armState p n != stFault then
        raiseP p .ZONE_RUN_LIMIT [n] (d.updArm p n (fun x => { x with faultAfter := some 0 }))
      else d

/-- Segments that the path may enter before it must wait (R149): it stops at the start of a run until the arm holds every token of its
request. Behind a granted run, and without a request, it enters no segment with a zone that it does not hold (DEDUCED, log entry 161). -/
def ArmSt.zoneLimit (a : ArmSt) (held : List Nat) : Option Nat :=
  let open' (g : Seg) : Bool := g.zones.any (fun z => !held.contains z)
  let first (i : Nat) (f : Seg → Bool) : Option Nat := (((a.q.take a.la).drop i).findIdx? f).map (· + i)
  match a.run with
  | some r => if r.granted then first (r.pre + r.len) open' else some r.pre
  | none => first 0 open'

/-- A requester is eligible for a zone: it requested it and holds every lower zone of its request (R150). -/
def Dev.eligible (d : Dev) (p : Plane) (z n : Nat) : Bool :=
  match (d.arm p n).run with
  | none => false
  | some r =>
    r.zones.contains z && !r.granted &&
    (d.zonesByRank.takeWhile (· != z)).all (fun y => !r.zones.contains y || d.holds p n y)

/-- The eligible requester that has waited longest; the lower number on a tie (R150). -/
def bestRequester (d : Dev) (p : Plane) (z : Nat) : Option Nat :=
  ((d.requesters p).filter (d.eligible p z)).foldl (fun best n =>
    match best with
    | none => some n
    | some m =>
      if ((d.arm p m).run.map (·.wait)).getD 0 < ((d.arm p n).run.map (·.wait)).getD 0 then some n else some m) none

/-- Step 2 of the reservation pass for one zone. -/
def grantStep (p : Plane) (z : Nat) (d : Dev) : Dev :=
  if d.holder p z = 15 then
    match bestRequester d p z with
    | some n => grantZone p n z d
    | none => d
  else d

/-- After the grants: a requester that holds its whole union goes on; another one waits (R149). One that may not request yet, since it holds
a token of a run that it has passed, waits too where a zone ahead stops it (DEDUCED, log entry 161). -/
def waitStep (p : Plane) (n : Nat) (d : Dev) : Dev :=
  let d1 := match (d.arm p n).run with
    | none =>
      let held := d.held p n
      if !held.isEmpty && ((d.arm p n).zoneLimit held).isSome then
        (if d.rdP p .PPE_ARM_COOP_ZWAIT n = 0 then raiseP p .ZONE_WAIT [n] else id) (d.wrP p .PPE_ARM_COOP_ZWAIT 1 n)
      else d.wrP p .PPE_ARM_COOP_ZWAIT 0 n
    | some r =>
      let put (r : ZoneRun) (w : Nat) (d : Dev) : Dev := (d.updArm p n (fun a => { a with run := some r })).wrP p .PPE_ARM_COOP_ZWAIT w n
      if r.granted then d
      else if r.zones.all (d.holds p n) then put { r with granted := true } 0 d
      else
        let d2 := put { r with wait := r.wait + 1 } 1 d
        if r.wait = 0 then raiseP p .ZONE_WAIT [n] d2 else d2
  d1.updArm p n (fun a => { a with zoneStop := a.zoneLimit (d1.held p n) })

/-- Shows the waiters of a zone: requesters whose request lists it and that do not hold it. -/
def showWaiters (p : Plane) (z : Nat) (d : Dev) : Dev :=
  let w := (d.requesters p).foldl (fun acc n =>
    if (d.arm p n).run.any (fun r => !r.granted && r.zones.contains z) && !(d.holds p n z) then acc + 2 ^ n else acc) 0
  d.wrP p .PPE_ZONE_WAITERS w z

/-- The reservation pass (R150), with the test of R152 between releases and grants. -/
def reservationPass (p : Plane) (d : Dev) : Dev :=
  let d1 := forL (d.requesters p) (releaseDue p) d
  let d2 := forL (d1.requesters p) (fun n d => forL d.zonesByRank (checkInside p n) d) d1
  let d3 := forL (d2.requesters p) (formRequest p) d2
  let d4 := forL d3.zonesByRank (grantStep p) d3
  let d5 := forL (d4.requesters p) (waitStep p) d4
  forL d5.zonesByRank (showWaiters p) d5

/-! ### Coupled blocks (R154 to R161) -/

/-- Passes block `b` of plane `p` through `f`. -/
def Dev.updBlk (d : Dev) (p : Plane) (b : Nat) (f : BlkSt → BlkSt) : Dev :=
  d.updPpe p (fun x => { x with blks := x.blks.upd b f })

/-- The object frame of a block as its member `k` implies it, from joint positions (R156). -/
def Dev.objectBy (d : Dev) (b k : Nat) (q : Nat → Int) : List Int :=
  let n := (d.members b).getD k 0
  (d.blockSec b).object k ((d.armGeo n).toolPose ((d.armAxes n).map q))

/-- Closure error rows of a block from measured joint positions, in 2^-32 mm and 2^-32 rad: member 0 against each other one (R156). -/
def Dev.closure (d : Dev) (b : Nat) (meas : Nat → Int) : List Int :=
  (List.range ((d.members b).length - 1)).flatMap (fun k => poseDiff (d.objectBy b 0 meas) (d.objectBy b (k + 1) meas))

/-- The Jacobian of a block's closure, one column for each joint in the order of the solution: how the error's rows fall as a joint
moves, so that the increments that solve for the error remove it (R156; DEDUCED, log entry 162). -/
def Dev.closureJac (d : Dev) (b : Nat) (q : Nat → Int) : List (List Int) :=
  let m := d.members b
  (m.zip (List.range m.length)).flatMap fun e =>
    let geo := d.armGeo e.1
    let js := (d.armAxes e.1).map q
    let col (c : List Int) : List Int := (List.range (m.length - 1)).flatMap (fun i =>
      if e.2 = 0 then neg3 c else if i + 1 = e.2 then c else [0, 0, 0, 0, 0, 0])
    (geo.jacobian js (ptOf (d.objectBy b e.2 q)) geo.links.length).map col

/-- The translation rows, as D32, or the rotation rows, in 2^-28 rad, of a closure error: three of each six. -/
def closurePart (rot : Bool) (l : List Int) : List Int :=
  ((List.range l.length).filter (fun i => (decide (3 ≤ i % 6)) == rot)).map (fun i => rdiv (l.getD i 0) (if rot then 16 else 2 ^ 28))

/-- The greatest magnitude of a list. -/
def maxAbs (l : List Int) : Int := (l.map absI).foldl max 0

/-- COUPLE may be accepted (R155). -/
def coupleOk (p : Plane) (b : Nat) (meas : Nat → Int) (d : Dev) : Bool :=
  let m := d.members b
  let e := d.closure b meas
  !m.isEmpty && m.all (fun n => d.armState p n == stStandby || d.armState p n == stHeld) &&
  m.all (fun n => n == carrierOf m n || (d.arm p n).q.isEmpty) &&
  decide (maxAbs (closurePart false e) ≤ (d.blockSec b).tolT) && decide (maxAbs (closurePart true e) ≤ (d.blockSec b).tolR)

/-- COUPLE with its STATUS (R155). -/
def coupleCmd (b : Nat) (meas : Nat → Int) (d : Dev) : Dev × Nat × Nat :=
  if coupleOk d.active b meas d then (bothPlanes (fun p d => d.updBlk p b (fun x => { x with want := true })) d, 0, 0)
  else (bothPlanes (fun p => raiseP p .COUPLE_REFUSED [b]) d, Code.COUPLE_REFUSED.num, 0)

/-- DECOUPLE may be accepted (R161). An empty carrier queue is asked in STANDBY alone: a HELD block may decouple with segments still queued
(DEDUCED, log entry 189). -/
def decoupleOk (p : Plane) (b : Nat) (d : Dev) : Bool :=
  let m := d.members b
  let c := carrierOf m (m.headD 0)
  decide (d.rdP p .PPE_BLK_STAT_COUPLED b = 1) &&
  (d.armState p c == stHeld || (d.armState p c == stStandby && (d.arm p c).q.isEmpty))

/-- DECOUPLE with its STATUS (R161). -/
def decoupleCmd (b : Nat) (d : Dev) : Dev × Nat × Nat :=
  if decoupleOk d.active b d then (bothPlanes (fun p d => d.updBlk p b (fun x => { x with decoup := 1 })) d, 0, 0)
  else (bothPlanes (fun p => raiseP p .COUPLE_REFUSED [b]) d, Code.COUPLE_REFUSED.num, 0)

/-- The tokens of the members pass to the carrier as the block couples (R158); as it decouples, every member keeps a share of those of the
zones it stands in (R161; DEDUCED, log entry 161). -/
def shareTokens (p : Plane) (b : Nat) (v : Bool) (d : Dev) : Dev :=
  let m := d.members b
  let c := carrierOf m 7
  forL d.zonesByRank (fun z d =>
    if v then
      if m.contains (d.holder p z) then passZone p (d.holder p z) c z 1 d else d
    else if d.holder p z = c then
      forL (m.filter (fun n => n != c && d.armIn p n z)) (fun n d =>
        setHeld p n z true (d.updArm p n (fun a => { a with share := a.share ++ [z] }))) (d.wrP p .PPE_ZONE_BLOCK 0 z)
    else d) d

/-- Marks a block and its members as coupled or not; the carrier's path runs in the object frame while coupled (R155). The carrier's
look-ahead is formed anew, with the zone sets of the members that now move along its path (R146, R158). -/
def setCoupled (p : Plane) (b : Nat) (v : Bool) (d : Dev) : Dev :=
  let d1 := forL (d.members b) (fun n d => (d.wrP p .PPE_ARM_COOP_COUPLED (b2n v) n).wrP p .PPE_ARM_COOP_BLOCK b n)
    (d.wrP p .PPE_BLK_STAT_COUPLED (b2n v) b)
  let d2 := forL (d.members b) (fun n d => d.updArm p n (fun a => { a with
    pose := d.framePoint p n, run := if v && d.notCarrier p n then none else a.run
    zoneStop := if v && d.notCarrier p n then none else a.zoneStop })) d1
  let c := carrierOf (d.members b) 7
  let d3 := enterLookAhead p c 64 ((shareTokens p b v d2).updArm p c (fun a => { a with
    la := 0, run := none, q := a.q.map (fun g => { g with zones := [] }) }))
  d3.updArm p c (fun a => { a with zoneStop := a.zoneLimit (d3.held p c) })

/-- The closure check of a coupled block at a tick (R160). -/
def closureCheck (p : Plane) (b : Nat) (e : List Int) (d : Dev) : Dev :=
  if (d.blockSec b).maxT < maxAbs (closurePart false e) || (d.blockSec b).maxR < maxAbs (closurePart true e) then
    requestStop p (carrierOf (d.members b) 7) .fault true (raiseP p .CLOSURE_LIMIT [b] (d.wrP p .PPE_BLK_STAT_CLOSE_LIM 1 b))
  else d

/-- A planning-tick boundary for a block: coupling, the closure check, and the two ticks of decoupling (R155, R160, R161). A COUPLE accepted
while the block is coupled has nothing left to do. -/
def blockTick (p : Plane) (b : Nat) (meas : Nat → Int) (d : Dev) : Dev :=
  let x := (d.pl p).ppe.blks.get b
  let e := d.closure b meas
  let d1 := (d.wrP p .PPE_BLK_CERR (unsigned 32 (fitS 32 (maxAbs (closurePart false e)))) b).updBlk p b (fun y => { y with want := false })
  if d.rdP p .PPE_BLK_STAT_COUPLED b = 0 then if x.want then setCoupled p b true d1 else d1
  else
    let d2 := closureCheck p b e d1
    if x.decoup = 1 then (d2.updBlk p b (fun y => { y with decoup := 2 })).wrP p .PPE_BLK_STAT_DECOUPLING 1 b
    else if x.decoup = 2 then
      setCoupled p b false ((d2.updBlk p b (fun y => { y with decoup := 0, corr := [], left := 0, wrench := [] })).wrP p
        .PPE_BLK_STAT_DECOUPLING 0 b)
    else d2

/-- The delivered solution of a block's closure matrix becomes the correction of the next tick (R156). -/
def closureFlip (p : Plane) (b : Nat) (dq : List Int) (qx : Nat) (d : Dev) : Dev :=
  let gain := d.rdP p .PPE_BLK_GAIN_CLOSE_GAIN b
  let scale (x : Int) : Int :=
    if (d.blockSec b).compliant then rdiv (x * 2 ^ (32 - qx) * gain) 32768 else x * 2 ^ (32 - qx)
  d.updBlk p b (fun y => { y with corr := dq.map scale, left := d.rd .SYS_CYCLE_TICK })

/-- The delivered solution of a block's load-sharing matrix: one wrench per grasp, in 2^-32 N and N·m (R157). -/
def shareFlip (p : Plane) (b : Nat) (w : List Int) (qx : Nat) (d : Dev) : Dev :=
  d.updBlk p b (fun y => { y with wrench := w.map (· * 2 ^ (32 - qx)) })

/-- The internal force in effect: it ramps to zero over the tick of decoupling (R161). -/
def Dev.fintNow (d : Dev) (p : Plane) (b : Nat) : Int :=
  let f := signed 32 (d.rdP p .PPE_BLK_FINT_F_INT b)
  let n := d.rd .SYS_CYCLE_TICK
  if !(d.blockSec b).compliant then 0
  else if ((d.pl p).ppe.blks.get b).decoup = 2 then rdiv (f * (n - 1 - d.rd .SYS_PHASE_TICK_POS)) n
  else f

/-- Grasp `k` of a block seen from the object origin, in the cell frame (R157). -/
def graspArm (s : BlockSec) (k : Nat) (obj : List Int) : List Int := qRot (rotOf obj) (ptOf (s.grasp k))

/-- The direction of member `k`'s internal force: along the line from the middle of the grasps to its own, which for two grasps is the line
through them, away from the object origin (R157; for more than two grasps DESIGN CHOICE, log entry 162). -/
def graspLine (s : BlockSec) (k : Nat) (obj : List Int) : List Int :=
  let r := graspArm s k obj
  let all := (List.range s.members.length).map (fun i => graspArm s i obj)
  let u := unit3 (sub3 (scale3 s.members.length 1 r) (all.foldl add3 [0, 0, 0]))
  if dot3 u r < 0 then neg3 u else u

/-- Member `k`'s share of an internal force (T32), in 2^-32 N: an equal part along the line through the grasps (R157). -/
def internalForce (s : BlockSec) (k : Nat) (f : Int) (obj : List Int) : List Int :=
  scale3 (f * 65536) (one62 * s.members.length) (graspLine s k obj) ++ [0, 0, 0]

/-- The torque, or force, of each joint of an arm that a wrench of its tool takes, as T32: the Jacobian transpose times the wrench, which is
given in 2^-32 N and N·m (R157). -/
def jointTorques (geo : ArmGeom) (q w : List Int) : List Int :=
  (geo.links.zip (geo.toolJac q)).map fun e =>
    let force := dot3 (e.2.take 3) (w.take 3)
    let moment := dot3 (e.2.drop 3) (w.drop 3)
    if e.1.prismatic then rdiv force (2 ^ 48) else rdiv (force + 1000 * moment) (1000 * 2 ^ 48)

/-- The planned acceleration of the frame that an arm's path moves: linear, in 2^-32 mm/s², and angular, in 2^-32 rad/s² (R157). -/
def Dev.frameAcc (d : Dev) (p : Plane) (n : Nat) : List Int × List Int :=
  let a := d.arm p n
  let geo := d.armGeo n
  match a.q with
  | [] => ([0, 0, 0], [0, 0, 0])
  | g :: _ =>
    let rate := if a.stop.isSome then 2 ^ 24 else d.tbRate a.rate g.tbase
    let v := rdiv (scaleRate rate 1 a.v) (2 ^ 16)
    let acc := rdiv (scaleRate rate 2 a.a) (2 ^ 12)
    let len := ownLen g a.start
    if g.typ = 1 || g.typ = 5 || len = 0 then ([0, 0, 0], [0, 0, 0])
    else
      let turn := rotVec (qMul (slerpArc (rotOf a.start.p) (qOf30 g.quat)).2 (qConj (rotOf a.start.p)))
      let lin := match a.inBlend geo with
        | some (c, x, r) =>
          let w : Int := 2 * r
          add3 (scale3 (v * v) (w * w) (c.der 2 x w)) (scale3 acc w (c.der 1 x w))
        | none => add3 (scale3 acc one62 (g.tanAt a.start a.s.toNat)) (g.bendAt a.start a.s.toNat v.natAbs)
      (lin, scale3 acc len turn)

/-- The wrench of a block's object, in 2^-48 N and N·m: mass and inertia times the planned acceleration, plus gravity of 9.81 m/s² along
the z axis of the cell frame (R157). -/
def Dev.objectWrench (d : Dev) (p : Plane) (b : Nat) : List Int :=
  let s := d.blockSec b
  let c := carrierOf (d.members b) 7
  let (lin, ang) := d.frameAcc p c
  let r := rotOf (d.arm p c).pose
  let local' := qRot (qConj r) ang
  (add3 lin [0, 0, 9810 * 2 ^ 32]).map (fun x => rdiv (s.mass * x) 1000) ++
  qRot r ((List.range 3).map (fun i => dot3 ((s.inertia.drop (3 * i)).take 3) local'))

/-- One cycle of a coupled block in φ4: the closure correction is spread over the tick (R156), and each member's wrench
becomes torque feed-forward (R157). -/
def blockCycle (p : Plane) (b : Nat) (d : Dev) : Dev :=
  if d.rdP p .PPE_BLK_STAT_COUPLED b = 0 then d
  else
    let x := (d.pl p).ppe.blks.get b
    let axes := (d.members b).flatMap d.armAxes
    let n : Int := d.rd .SYS_CYCLE_TICK
    let i : Int := n - x.left
    let d1 :=
      if x.left = 0 then d
      else (forL (axes.zip x.corr) (fun e d =>
        let sp := d.spOf p e.1
        d.setSp p e.1 { sp with pos := sp.pos + (rdiv (e.2 * (i + 1)) n - rdiv (e.2 * i) n) }) d).updBlk p b
          (fun y => { y with left := y.left - 1 })
    let obj := (d1.arm p (carrierOf (d.members b) 7)).pose
    forL ((d.members b).zip (List.range (d.members b).length)) (fun e d =>
      let own := (List.range 6).map (fun r => x.wrench.getD (6 * e.2 + r) 0)
      let w := add3 own (internalForce (d.blockSec b) e.2 (d.fintNow p b) obj)
      forL ((d.armAxes e.1).zip (jointTorques (d.armGeo e.1) (d.armQ p e.1) w)) (fun t d =>
        d.setSp p t.1 { d.spOf p t.1 with trq := fitS 32 t.2 }) d) d1

/-- Members of a coupled block show the block's state (R158). -/
def mirrorBlock (p : Plane) (n : Nat) (d : Dev) : Dev :=
  let c := carrierOf (d.armGroup p n) n
  let moves := decide ((d.arm p c).v ≠ 0)
  let d1 := if (d.arm p c).stop.any (fun r => r.cause == .starve) || (d.armGroup p n).any (d.armHeld p) then d
    else forL (d.armAxes n) (fun j d =>
      setPoint p j (d.spOf p j).pos (if moves then Config.velFf d.cycNo j else 0) (Config.trqFf d.cycNo j) d) d
  ((d1.wrP p .PPE_ARM_STAT_STATE (d.armState p c) n).wrP p .PPE_ARM_STAT_QS_ACT (d.rdP p .PPE_ARM_STAT_QS_ACT c) n).updArm p n
    (fun x => { x with v := (d.arm p c).v, a := (d.arm p c).a, stop := (d.arm p c).stop, request := none, resume := false })

/-! ### Proximity (R162 to R164) -/

/-- The joints of a follower of an arm's path, with the path at position `x` (R79, R155). -/
def Dev.jointsAt (d : Dev) (p : Plane) (n : Nat) (m : Nat × List Int) (x : Int) : List Int :=
  let a := { d.arm p n with s := x }
  let geo := d.armGeo n
  if a.q.head?.any (fun g => g.typ == 1) then a.point geo else (d.armGeo m.1).jointsFor (d.armQ p m.1) (poseMul (a.framePose geo) m.2)

/-- The direction in which the joints of a participant's arm `m` move at the velocity that it has programmed, at its factor of R87 without
the limit of proximity (R162): their change over a short piece of the path ahead; zero where it does not move. -/
def Dev.programmed (d : Dev) (p : Plane) (n : Nat) (m : Nat × List Int) : List Int :=
  let a := d.arm p n
  let e := ((d.armGroup p n).map (fun k => min ((d.pl p).ppe.ovr.get k) ((d.pl p).ppe.scale.get k))).foldl min 0x8000
  let st := d.armState p n
  match a.q with
  | [] => []
  | g :: _ =>
    if e = 0 || g.typ = 5 || (st ≠ stMoving && st ≠ stStopping) then []
    else
      let piece : Int := if g.typ = 1 then 2 ^ 22 else 2 ^ 32
      List.zipWith (· - ·) (d.jointsAt p n m (min (segLen g a.start : Nat) (a.s + piece))) (d.jointsAt p n m a.s)

/-- Least distance of two participants, in 2^-32 mm, with the sign of v_ab at the closest pair of capsules (R162); none without capsules. -/
def Dev.pairDist (d : Dev) (p : Plane) (a b : Nat) : Option (Int × Int) :=
  let near := (d.followers p a).flatMap fun m =>
    let geo := d.armGeo m.1
    let q := d.armQ p m.1
    (geo.capsules q).map (fun c => (m, geo, q, c))
  let far := (d.armGroup p b).flatMap (fun y => (d.armGeo y).capsules (d.armQ p y))
  let pairs := near.flatMap (fun x => far.map (fun y => (x, y.2, capGap x.2.2.2.2 y.2)))
  let least := pairs.foldl (fun acc e => match acc with
    | none => some e
    | some w => if e.2.2 < w.2.2 then some e else acc) (none : Option ((( Nat × List Int) × ArmGeom × List Int × Nat × Capsule) × Capsule × Int))
  least.map fun e =>
    let ((m, geo, q, c), h, gap) := e
    let x := closest c.2 h
    let pt := add3 c.2.p0 (scale3 x.sn x.sd (sub3 c.2.p1 c.2.p0))
    (gap, dot3 ((jacTimes (geo.jacobian q pt c.1) (d.programmed p a m)).take 3) x.w)

/-- s(a, b) as U2.14, from D_HOLD and D_SLOW in mm and a distance in 2^-32 mm (R163). -/
def proxScale (hold slow : Nat) (dist : Int) : Nat :=
  (clampI 0 0x4000 (rdiv ((dist - 2 ^ 32 * hold) * 0x4000) (2 ^ 32 * ((slow : Int) - hold)))).toNat

/-- PROX_SCALE of one participant: the least s over the participants it approaches, 1 with none (R163). -/
def proxOf (p : Plane) (a : Nat) (d : Dev) : Nat :=
  ((d.requesters p).filter (· != a)).foldl (fun acc b =>
    match d.pairDist p a b with
    | some r =>
      if 0 < r.2 then min acc (proxScale (d.rdP p .PPE_PROX_DIST_D_HOLD) (d.rdP p .PPE_PROX_DIST_D_SLOW) r.1) else acc
    | none => acc)
    0x4000

/-- Sets PROX_SCALE and PROX_ACT of a participant's arms. -/
def proxSet (p : Plane) (a : Nat) (d : Dev) : Dev :=
  let s := proxOf p a d
  forL (d.armGroup p a) (fun n d => (d.wrP p .PPE_ARM_COOP_PROX_SCALE s n).wrP p .PPE_ARM_COOP_PROX_ACT (b2n (decide (s < 0x4000))) n) d

/-- Stall detection of a pair: PROX_STALL after PROX_TMO ticks at 0 (R164). -/
def proxStall (p : Plane) (a b : Nat) (d : Dev) : Dev :=
  let zero := d.rdP p .PPE_ARM_COOP_PROX_SCALE a = 0 && d.rdP p .PPE_ARM_COOP_PROX_SCALE b = 0
  let c := if zero then (d.pl p).ppe.prox.get (8 * a + b) + 1 else 0
  let d1 := d.updPpe p (fun x => { x with prox := x.prox.set (8 * a + b) c })
  if c ≠ 0 && c = d.rdP p .PPE_PROX_TMO then raiseP p .PROX_STALL [a, b] d1 else d1

/-- The proximity check of a tick, after the reservation pass (R162). -/
def proximity (p : Plane) (d : Dev) : Dev :=
  let r := d.requesters p
  let d1 := forL r (proxSet p) d
  forL r (fun a d => forL (r.filter (fun b => a < b)) (fun b d => proxStall p a b d) d) d1

end Sys2Proof.Machine
end

