-- ==== Sys2Proof/Machine/LinAlg.lean ====
section
/-! DEFINITION. The solver's arithmetic (04_solver.md R115, R118 to R120, R131 to R134): fixed-point factorisation and
solution on raw 32-bit values, each result rounded once to nearest with ties away from zero and saturated. Where the spec
leaves the form of an inner product open, the model takes the form of log entry 7. -/

namespace Sys2Proof.Machine

/-- Raw value rounded by a shift: `x / 2^sh` for `sh ≥ 0`, else `x · 2^(-sh)`. -/
def shiftR (x : Int) (sh : Int) : Int := if 0 ≤ sh then rdiv x (2 ^ sh.toNat) else x * 2 ^ (-sh).toNat

/-- A raw value outside 32 bits (R120). -/
def outOf32 (x : Int) : Bool := decide (x < -(2 ^ 31)) || decide (2 ^ 31 - 1 < x)

/-- Element of a matrix kept as rows. -/
def at2 (m : List (List Int)) (i j : Nat) : Int := (m.getD i []).getD j 0

/-- Replaces an element. -/
def set2 (m : List (List Int)) (i j : Nat) (v : Int) : List (List Int) := m.modify i (fun r => r.set j v)

/-- A matrix from a function of its indices. -/
def mat (n k : Nat) (f : Nat → Nat → Int) : List (List Int) :=
  (List.range n).map (fun i => (List.range k).map (fun j => f i j))

/-- Exact sum over indices below `n`. -/
def sumN (n : Nat) (f : Nat → Int) : Int := (List.range n).foldl (fun acc i => acc + f i) 0

/-- Correctly rounded square root of a raw value with `q` fraction bits, to nearest with ties away from zero. -/
def sqrtQ (x : Int) (q : Nat) : Int :=
  let n := x.toNat * 2 ^ q
  let r := isqrt n
  if r * r + r < n then r + 1 else r

/-- Correctly rounded reciprocal of a raw value with `q` fraction bits, on the grid of `q` fraction bits. It is a step of a
division, not a result that QF holds: it does not saturate (log entry 7). -/
def recipQ (x : Int) (q : Nat) : Int :=
  if x = 0 then 0 else if 0 < x then rdiv (2 ^ (2 * q)) x else -(rdiv (2 ^ (2 * q)) (-x))

/-- An exact value rounded once by a shift and saturated (R119, R120), and whether it saturated. -/
def toFormat (v : Int) (sh : Int) : Int × Bool := (satS 32 (shiftR v sh), outOf32 (shiftR v sh))

/-- A factorisation: factor rows, reciprocal pivots, row permutation, first tiny pivot, and whether a result saturated. -/
structure Factor where
  op : Nat
  n : Nat
  l : List (List Int)
  u : List (List Int)
  inv : List Int
  perm : List Nat
  piv : Option Nat
  sat : Bool

/-- Replacement of a tiny pivot (R131): thresholds are 2^(31 - TAU_EXP) and 2^(31 - REG_EXP) in raw form. -/
def regPivot (symPos : Bool) (tau reg : Nat) (d : Int) : Int × Bool :=
  let t : Int := 2 ^ (31 - tau)
  let r : Int := 2 ^ (31 - reg)
  if symPos then
    if d < t then ((if 0 < d then d + r else r), true) else (d, false)
  else if absI d < t then ((if 0 < d then d + r else if d < 0 then d - r else r), true)
  else (d, false)

/-- Factorises an assembled matrix in QF: Cholesky (1, 4), LDLT (2), LU with partial pivoting (3), triangular (5). Each
element of a factor is one exact sum, rounded once, times the reciprocal of its pivot where it has one (log entry 7). -/
def factorise (op n qf tau reg : Nat) (a0 : List (List Int)) : Factor := Id.run do
  let mut a := a0
  let mut l := mat n n (fun _ _ => 0)
  -- LU: the upper factor; LDLT: the elements of `l` before their division by the pivot; Cholesky: as `l`
  let mut u := l
  let mut inv : List Int := []
  let mut perm := List.range n
  let mut piv : Option Nat := none
  let mut sat := false
  for j in List.range n do
    let mut col : List Int := List.replicate n 0
    for i in List.range n do
      if j ≤ i then
        let dot := if op = 3 then sumN j (fun k => at2 l i k * at2 u k j) else sumN j (fun k => at2 u i k * at2 l j k)
        let s := if op = 5 then (at2 a i j, false) else toFormat (at2 a i j * 2 ^ qf - dot) qf
        if s.2 then sat := true
        col := col.set i s.1
    if op = 3 then
      -- the entry of largest magnitude in rows j to n - 1, the lowest row on a tie (R132)
      let mut best := j
      for i in List.range n do
        if j < i && absI (col.getD best 0) < absI (col.getD i 0) then best := i
      a := swap j best a []
      l := swap j best l []
      perm := swap j best perm 0
      col := swap j best col 0
    let r := regPivot (op = 1 || op = 4) tau reg (col.getD j 0)
    if r.2 && piv.isNone then piv := some j
    if outOf32 r.1 then sat := true
    let d := if op = 1 || op = 4 then sqrtQ (satS 32 r.1) qf else satS 32 r.1
    if outOf32 d then sat := true
    let iv := recipQ (satS 32 d) qf
    inv := inv ++ [iv]
    if op = 5 then
      for i in List.range n do l := set2 l i j (col.getD i 0)
    else
      for i in List.range n do
        if j < i then
          let f := toFormat (col.getD i 0 * iv) qf
          if f.2 then sat := true
          l := set2 l i j f.1
          u := if op = 3 then u else set2 u i j (if op = 2 then col.getD i 0 else f.1)
    if op = 1 || op = 4 then l := set2 l j j (satS 32 d)
    if op = 3 then
      for c in List.range n do
        if j < c then
          let v := toFormat (at2 a j c * 2 ^ qf - sumN j (fun k => at2 l j k * at2 u k c)) qf
          if v.2 then sat := true
          u := set2 u j c v.1
  return { op := op, n := n, l := l, u := u, inv := inv, perm := perm, piv := piv, sat := sat }
where
  swap {α : Type} (i j : Nat) (x : List α) (z : α) : List α := (x.set i (x.getD j z)).set j (x.getD i z)

/-- Solves with a factor: the right-hand side has `fr` fraction bits, the solution `fx`, the vectors between them QF. -/
def solveFactor (f : Factor) (qf fr fx : Nat) (b : List Int) : List Int × Bool := Id.run do
  let n := f.n
  let mut sat := false
  let mut y : List Int := List.replicate n 0
  -- forward; a triangular matrix ends here, its solution in the destination format
  for i in List.range n do
    let r := b.getD (if f.op = 3 then f.perm.getD i i else i) 0
    let fy := if f.op = 5 then fx else qf
    let s := toFormat (r * 2 ^ (qf + fy) - sumN i (fun k => at2 f.l i k * y.getD k 0) * 2 ^ fr) ((fr : Int) + fy)
    let v := if f.op = 2 || f.op = 3 then s else toFormat (s.1 * f.inv.getD i 0) (2 * (qf : Int) - fy)
    if s.2 || v.2 then sat := true
    y := y.set i v.1
  if f.op = 5 then return (y, sat)
  if f.op = 2 then
    for i in List.range n do
      let v := toFormat (y.getD i 0 * f.inv.getD i 0) qf
      if v.2 then sat := true
      y := y.set i v.1
  -- backward
  let mut x : List Int := List.replicate n 0
  for r in List.range n do
    let i := n - 1 - r
    let up (k : Nat) : Int := if f.op = 3 then at2 f.u i k else at2 f.l k i
    let sum := sumN (n - 1 - i) (fun k => up (i + 1 + k) * x.getD (i + 1 + k) 0)
    let s := toFormat (y.getD i 0 * 2 ^ fx - sum) (if f.op = 2 then qf else fx)
    let v := if f.op = 2 then s else toFormat (s.1 * f.inv.getD i 0) (2 * (qf : Int) - fx)
    if s.2 || v.2 then sat := true
    x := x.set i v.1
  return (x, sat)

end Sys2Proof.Machine
end

