-- ==== Sys2Proof/Machine/Solver.lean ====
section
/-! DEFINITION. The solver (04_solver.md): delta records, cuts, matrix stages, deadlines and flips, for one plane each. -/

namespace Sys2Proof

/-! ### Shape of a matrix (R115, R117) -/

/-- Operations with a lower triangle stored: CHOL, LDLT, TRI. -/
def MatDesc.tri (m : MatDesc) : Bool := m.op == 1 || m.op == 2 || m.op == 5
/-- Columns of the stored input. -/
def MatDesc.cols (m : MatDesc) : Nat := if m.op = 4 || m.op = 6 then m.k else m.n
/-- Stored entries. -/
def MatDesc.stored (m : MatDesc) : Nat := if m.tri then m.n * (m.n + 1) / 2 else m.n * m.cols
/-- Right-hand-side entries. -/
def MatDesc.rhs (m : MatDesc) : Nat := if m.op = 6 then m.k else m.n
/-- Length of the solution. -/
def MatDesc.len (m : MatDesc) : Nat := if m.op = 4 then m.k else m.n
/-- Position of a stored entry. -/
def MatDesc.pos (m : MatDesc) (r c : Nat) : Nat :=
  if m.tri then (if r < c then c * (c + 1) / 2 + r else r * (r + 1) / 2 + c) else r * m.cols + c

/-- A matrix has an arm or axis consumer: codes 0x10 to 0x3F (R136). -/
def MatDesc.moves (m : MatDesc) : Bool := m.cons.any (fun c => decide (0x10 ≤ c) && decide (c ≤ 0x3F))

end Sys2Proof

namespace Sys2Proof.Machine

/-- Passes the solver of plane `p` through `f`. -/
def Dev.updSlv (d : Dev) (p : Plane) (f : SlvSt → SlvSt) : Dev := d.updPl p (fun x => { x with slv := f x.slv })

/-- The solver of plane `p`. -/
def Dev.slv (d : Dev) (p : Plane) : SlvSt := (d.pl p).slv

/-- Matrix `m` of plane `p`. -/
def Dev.matSt (d : Dev) (p : Plane) (m : Nat) : MatSt := (d.slv p).mats.get m

/-- Passes matrix `m` of plane `p` through `f`. -/
def Dev.updMat (d : Dev) (p : Plane) (m : Nat) (f : MatSt → MatSt) : Dev :=
  d.updSlv p (fun x => { x with mats := x.mats.upd m f })

/-- The descriptor of a resident matrix. -/
def Dev.matDesc (d : Dev) (m : Nat) : Option MatDesc := Sparse.find d.pat.solver.mats m

/-- Resident matrices of a batch class: 0 cycle batch, 1 tick batch (R113). -/
def Dev.classMats (d : Dev) (cls : Nat) : List Nat :=
  (d.pat.solver.mats.filter (fun e => e.2.cls == cls)).map (·.1)

/-! ### Deltas (R121 to R124) -/

/-- A delta record from its two words (R121). -/
def Delta.ofWords (lo hi : Nat) : Delta :=
  { mat := lo % 256, row := lo / 256 % 32, col := lo / 65536 % 32, tgt := lo / 2 ^ 24 % 4
    reserved := lo / 8192 % 8 + 8 * (lo / 2 ^ 21 % 8) + 64 * (lo / 2 ^ 26 % 64), value := signed 32 hi }

/-- The entry that a delta names, when it passes the checks of R122 for its producer. A delta to the right-hand side with COL not 0, or to
the damping with ROW or COL not 0, names no entry and is refused (DESIGN CHOICE, log entry 186). -/
def deltaEntry (d : Dev) (prod : Nat) (x : Delta) : Option Nat :=
  match d.matDesc x.mat with
  | none => none
  | some m =>
    let idx : Option Nat :=
      if x.reserved ≠ 0 then none
      else if x.tgt = 0 then (if x.row < m.n && x.col < m.cols then some (m.pos x.row x.col) else none)
      else if x.tgt = 1 then (if x.row < m.rhs && x.col = 0 then some (m.stored + x.row) else none)
      else if x.tgt = 2 && m.op = 4 && x.row = 0 && x.col = 0 then some (m.stored + m.rhs)
      else none
    match idx with
    | some i => if m.map.getD i 255 = prod then some i else none
    | none => none

/-- Shows the queue level. -/
def showDeltas (p : Plane) (d : Dev) : Dev := d.wrP p .SLV_STATUS_QLEVEL (d.slv p).q.length

/-- Room in the delta queue (R123). -/
def Dev.deltaRoom (d : Dev) (p : Plane) : Bool := decide ((d.slv p).q.length < 4096)

/-- A record reaches the queue, or is refused and discarded (R122). -/
def enqueueDelta (p : Plane) (prod : Nat) (x : Delta) (d : Dev) : Dev :=
  match deltaEntry d prod x with
  | some _ => showDeltas p (d.updSlv p (fun s => { s with q := s.q ++ [(prod, x)] }))
  | none => raiseP p .DELTA_REFUSED [x.mat, x.row, x.col, x.tgt, x.reserved, x.value, prod] d

/-- The record of window `prod` that core `w`, or the PPE as 10, writes: it waits when the queue is full, and behind the writer's own
records that wait (R123). The hardware does not check that a core writes its own window. -/
def pushDelta (p : Plane) (w prod : Nat) (x : Delta) (d : Dev) : Dev :=
  if d.deltaRoom p && !((d.slv p).stalled.any (fun y => y.core == w)) then enqueueDelta p prod x d
  else d.updSlv p (fun s => { s with stalled := s.stalled ++ [{ core := w, producer := prod, delta := x }] })

/-- A host record through window 11: held for the next φ4 start in both planes, at most 64 in a cycle (R124). -/
def hostDelta (x : Delta) (d : Dev) : Dev :=
  if (d.slv .A).hostCnt < 64 then
    bothPlanes (fun p d => d.updSlv p (fun s => { s with hostHeld := s.hostHeld ++ [x], hostCnt := s.hostCnt + 1 })) d
  else raise .HOST_DELTA_DROP wShared [x.mat, x.row, x.col, x.tgt, x.value] (d.wrBoth .SLV_STATUS_HOST_DROP 1)

/-- A write of the HI word of window `n` by core `w` or the host (R123, R124): windows 0 to 9 are the cores, 11 the host, 10 is
ignored. With a full queue the core of the window stalls, also where the host writes it (DESIGN CHOICE, log entry 187). -/
def deltaHi (p : Plane) (w : Option Nat) (n hi : Nat) (d : Dev) : Dev :=
  let x := Delta.ofWords ((d.slv p).lo.get n) hi
  if n < 10 then pushDelta p (w.getD n) n x d else if n = 11 then hostDelta x d else d

/-- A write of the LO word of window `c`. -/
def deltaLo (p : Plane) (c lo : Nat) (d : Dev) : Dev := d.updSlv p (fun s => { s with lo := s.lo.set c (lo % 2 ^ 32) })

/-- The queue of every plane that computes takes `n` more records beside those that wait (R123). -/
def deltasFit (n : Nat) (d : Dev) : Bool :=
  [Plane.A, Plane.B].all (fun p =>
    decide ((d.slv p).q.length + (d.slv p).hostHeld.length + (d.slv p).mailHeld.length + n ≤ 4096))

/-- Mailbox SLV_DELTA: the records are enqueued at the φ4 start behind the BAR0 records (R123, R124). -/
def mailDeltas (l : List Delta) (d : Dev) : Dev × Nat × Nat :=
  (bothPlanes (fun p d => d.updSlv p (fun s => { s with mailHeld := s.mailHeld ++ l })) d, 0, 0)

/-- Held host records enter while there is room; those beyond it stay held (R123, R124). -/
def enqueueHeld (p : Plane) : List Delta → Dev → List Delta × Dev
  | [], d => ([], d)
  | x :: t, d => if d.deltaRoom p then enqueueHeld p t (enqueueDelta p 11 x d) else (x :: t, d)

/-- The φ4 start: held host records, then mailbox records, are enqueued (R124). -/
def takeHeldDeltas (p : Plane) (d : Dev) : Dev :=
  let s := d.slv p
  let r := enqueueHeld p (s.hostHeld ++ s.mailHeld) d
  let n := r.1.length - s.mailHeld.length
  r.2.updSlv p (fun x => { x with hostHeld := r.1.take n, mailHeld := r.1.drop n })

/-- The BAR0 records of a cell cycle are counted from its opening boundary (R124). -/
def freshHostDeltas (d : Dev) : Dev := bothPlanes (fun p d => d.updSlv p (fun s => { s with hostCnt := 0 })) d

/-! ### Cuts (R125 to R127) -/

/-- Sets the state of a batch. -/
def setBatch (p : Plane) (cls v : Nat) (d : Dev) : Dev :=
  if cls = 0 then d.wrP p .SLV_STATUS_CYC v else d.wrP p .SLV_STATUS_TICK v

/-- Merges one queued delta into its entry (R125). -/
def mergeDelta (p : Plane) (e : Nat × Delta) (d : Dev) : Dev :=
  match deltaEntry d e.1 e.2 with
  | some i => d.updMat p e.2.mat (fun m => { m with ent := m.ent.set i e.2.value })
  | none => d

/-- The delta belongs to a matrix of the class. -/
def ofClass (d : Dev) (cls : Nat) (e : Nat × Delta) : Bool := (d.matDesc e.2.mat).any (fun m => m.cls == cls)

/-- The cut of a batch: its queued deltas merge in queue order, its matrices start on a copy of their entries; an empty
class completes at once (R125, R127, R130). -/
def doCut (p : Plane) (cls : Nat) (d : Dev) : Dev :=
  let d1 := forL ((d.slv p).q.filter (ofClass d cls)) (mergeDelta p) d
  let d2 := d1.updSlv p (fun s => { s with
    q := s.q.filter (fun e => !(ofClass d cls e)), sig := s.sig.filter (fun e => e.1 != cls), cut := s.cut.set cls true })
  if d.holding then showDeltas p d2
  else
    let d3 := forL (d.classMats cls) (fun m d => d.updMat p m (fun x => { x with
      work := x.ent, active := true, stage := 0, pivIdx := none, sat := false, resFail := false, iters := []
      final := false })) (showDeltas p d2)
    setBatch p cls (if (d.classMats cls).isEmpty then 2 else 1) d3

/-- Producers declared for a class (R126). -/
def Dev.producers (d : Dev) (cls : Nat) : List Nat := d.pat.solver.prods.getD cls []

/-- Declared producers that have not signalled; below RUN a cut waits for CC0 only (R496). -/
def missing (d : Dev) (p : Plane) (cls : Nat) : List Nat :=
  (d.producers cls).filter (fun c => !((d.slv p).sig.contains (cls, c)) && (!d.holding || c == 8))

/-- The class may be cut now: in φ4, once a cycle; the tick batch in the cycle with TICK_POS 0, after the cycle batch
(R126, R127). Where the cycle batch of that cycle is not complete before its deadline, the tick has no tick cut (DESIGN CHOICE, log
entry 150). -/
def cutOpen (d : Dev) (p : Plane) (cls : Nat) : Bool :=
  decide (d.rd .SYS_PHASE = 4) && !((d.slv p).cut.get cls) &&
  (cls == 0 || (d.rd .SYS_PHASE_TICK_POS == 0 && (decide (2 ≤ d.batchState p 0) || (d.holding && (d.slv p).cut.get 0))))

/-- Producers that a cut does not wait for any more: PROD_LATE (R126). -/
def prodLate (p : Plane) (cls : Nat) (m : List Nat) (d : Dev) : Dev :=
  if m.isEmpty then d
  else raiseP p .PROD_LATE ((cls : Int) :: m.map (fun (c : Nat) => (c : Int))) (d.wrP p .SLV_STATUS_PROD_LATE 1)

/-- Cuts a class once its cut is open, when every declared producer has signalled or its CUT_MAX has passed (R126). -/
def tryCut (p : Plane) (cls : Nat) (d : Dev) : Dev :=
  let m := missing d p cls
  if cutOpen d p cls && (m.isEmpty || (d.slv p).late.get cls) then doCut p cls (prodLate p cls m d) else d

/-- At the φ4 start no CUT_MAX of this φ4 has passed. -/
def freshCuts (p : Plane) (d : Dev) : Dev := d.updSlv p (fun s => { s with late := ⟨false, []⟩ })

/-- A producer signals done for the next cut of a class; a second signal before it has no effect (R126). -/
def signalDone (p : Plane) (cls c : Nat) (d : Dev) : Dev :=
  if (d.slv p).sig.contains (cls, c) then d else d.updSlv p (fun s => { s with sig := s.sig ++ [(cls, c)] })

/-- A core's write of SLV_CUT: its own bits only (R126). -/
def slvCut (p : Plane) (core : Nat) (done tdone : Bool) (d : Dev) : Dev :=
  tryCut p 1 (tryCut p 0 (whenD tdone (signalDone p 1 core) (whenD done (signalDone p 0 core) d)))

/-- CUT_MAX after the φ4 start: the cut happens without the missing producers, which are reported; that of the tick batch as soon as the
cycle batch is complete (R126, R127). -/
def cutMaxExpiry (p : Plane) (cls : Nat) (d : Dev) : Dev :=
  if d.rd .SYS_PHASE ≠ 4 || (d.slv p).cut.get cls then d
  else tryCut p 1 (tryCut p 0 (d.updSlv p (fun s => { s with late := s.late.set cls true })))

/-- Entries of a matrix that the PPE produces. -/
def ppeEntries (m : MatDesc) : List Nat := (List.range m.map.length).filter (fun i => m.map.getD i 255 == 10)

/-- The delta record of an entry. -/
def entryDelta (id : Nat) (m : MatDesc) (i : Nat) (v : Int) : Delta :=
  if i < m.stored then
    let rc := ((List.range m.n).flatMap (fun r => (List.range m.cols).map (fun c => (r, c)))).find? (fun e => m.pos e.1 e.2 == i)
    { mat := id, row := (rc.getD (0, 0)).1, col := (rc.getD (0, 0)).2, tgt := 0, reserved := 0, value := v }
  else if i < m.stored + m.rhs then { mat := id, row := i - m.stored, col := 0, tgt := 1, reserved := 0, value := v }
  else { mat := id, row := 0, col := 0, tgt := 2, reserved := 0, value := v }

/-- A value of 2^-32 of its unit, or of 2^-32 mm for a `len`gth, in a matrix's unit of length and with `q` fraction bits. -/
def inMat (m : MatDesc) (q : Nat) (len : Bool) (x : Int) : Int := rdiv (x * 2 ^ q) (2 ^ 32 * (if len then m.perLen else 1))

/-- An entry of a Jacobian (columns over 2^-32 units, six rows to a pose) or of the error beside it, for a delta's place. -/
def poseEntry (m : MatDesc) (jac : List (List Int)) (err : List Int) (x : Delta) : Option Int :=
  let len := decide (x.row % 6 < 3)
  if x.tgt = 0 then some (inMat m m.qin len ((jac.getD x.col []).getD x.row 0))
  else if x.tgt = 1 then some (inMat m m.qx len (err.getD x.row 0))
  else none

/-- The pose that the tool of an arm shall have: that of its path, or the object's composed with its grasp (R79, R155). In a JOINT segment
the set-points themselves give it. -/
def Dev.toolTarget (d : Dev) (p : Plane) (n : Nat) : List Int :=
  let c := carrierOf (d.armGroup p n) n
  if (d.arm p c).q.head?.any (fun g => g.typ == 1) then d.toolPose p n
  else
    let grasp := ((d.followers p c).find? (fun m => m.1 == n)).map (·.2)
    poseMul (d.arm p c).pose (grasp.getD poseOne)

/-- An entry of the grasp matrix, or of the object's wrench (R157). -/
def graspEntry (d : Dev) (p : Plane) (b : Nat) (m : MatDesc) (x : Delta) : Option Int :=
  let r := graspArm (d.blockSec b) (x.col / 6) (d.arm p (carrierOf (d.members b) 7)).pose
  let c := x.col % 6
  if x.tgt = 1 then some (rdiv ((d.objectWrench p b).getD x.row 0 * 2 ^ m.qx) (2 ^ 48))
  else if x.tgt ≠ 0 then none
  else if x.row = c then some (2 ^ m.qin)
  else if x.row < 3 || 3 ≤ c then some 0
  else
    let v := (cross3 r ((List.range 3).map (fun i => if i = c then 1 else 0))).getD (x.row - 3) 0
    some (rdiv (v * 2 ^ m.qin) (1000 * 2 ^ 32))

/-- What the PPE writes into an entry that it produces: Jacobian and pose error of an arm's inverse kinematics (R128; DEDUCED, log entry
162), the closure error with the members' Jacobians (R156), and the grasp matrix with the object's wrench (R157). For a matrix of another
purpose no rule says what it writes, and the value is free. -/
def Dev.ppeValue (d : Dev) (p : Plane) (id : Nat) (m : MatDesc) (i : Nat) (x : Delta) : Int :=
  let arm := (m.cons.find? (fun c => decide (0x10 ≤ c) && decide (c < 0x20))).map (· - 0x10)
  let known : Option Int := match d.pat.geom.blocks.find? (fun b => b.2.closeMat == id || b.2.shareMat == id) with
    | some b => if b.2.closeMat = id then poseEntry m (d.closureJac b.1 (fun a => (d.spOf p a).pos)) (d.closure b.1 (d.meas p)) x
                else graspEntry d p b.1 m x
    | none => match arm with
      | some n => if m.op = 4 && m.n = 6 then poseEntry m ((d.armGeo n).toolJac (d.armQ p n)) (poseDiff (d.toolTarget p n) (d.toolPose p n)) x
                  else none
      | none => none
  fitS 32 (known.getD (Config.ppeEntry d.cycNo id i))

/-- The PPE signals done for its classes, unless records of it still wait for room (R123, R126). -/
def ppeDone (p : Plane) (d : Dev) : Dev :=
  if (d.slv p).stalled.any (fun x => x.core == 10) then d
  else tryCut p 1 (tryCut p 0 (forL (d.slv p).ppeWait (fun cls => signalDone p cls 10) (d.updSlv p (fun s => { s with ppeWait := [] }))))

/-- A record leaves the full queue and the oldest stalled store completes (R123). -/
def deltaStallEnd (p : Plane) (d : Dev) : Dev :=
  match (d.slv p).stalled with
  | [] => d
  | x :: t =>
    if d.deltaRoom p then
      let d1 := enqueueDelta p x.producer x.delta (d.updSlv p (fun s => { s with stalled := t }))
      if x.core = 10 then ppeDone p d1 else d1
    else d

/-- The PPE ends its φ4 interpolation: it writes its entries of the batches that are due and signals done (R35, R123). -/
def ppeSignals (p : Plane) (d : Dev) : Dev :=
  if d.holding then tryCut p 1 (tryCut p 0 d)
  else
    let classes := if d.rd .SYS_PHASE_TICK_POS = 0 then [0, 1] else [0]
    let d1 := forL (d.pat.solver.mats.filter (fun e => classes.contains e.2.cls)) (fun e d =>
      forL (ppeEntries e.2) (fun i d =>
        let x := entryDelta e.1 e.2 i 0
        pushDelta p 10 10 { x with value := d.ppeValue p e.1 e.2 i x } d) d) d
    ppeDone p (d1.updSlv p (fun s => { s with ppeWait := classes }))

/-! ### Solving (R115, R118, R131 to R134) -/

/-- The input matrix in QIN: a triangular matrix has zeros above its diagonal, the other triangles stand for a symmetric
matrix (R115, R121). -/
def inputMat (m : MatDesc) (ent : List Int) : List (List Int) :=
  mat m.n m.cols (fun r c => if m.op = 5 && r < c then 0 else ent.getD (m.pos r c) 0)

/-- The assembled matrix in QF: for DLS J·Jᵀ + λ²·I, one exact sum for each element, else the input converted to QF. -/
def assemble (m : MatDesc) (ent : List Int) : List (List Int) × Bool :=
  let a := inputMat m ent
  let raw (r c : Nat) : Int × Bool :=
    if m.op = 4 then
      toFormat (sumN m.k (fun k => at2 a r k * at2 a c k) * 2 ^ m.qf +
        (if r = c then ent.getD (m.stored + m.rhs) 0 * 2 ^ (2 * m.qin) else 0)) (2 * (m.qin : Int))
    else toFormat (at2 a r c) ((m.qin : Int) - m.qf)
  (mat m.n m.n (fun r c => (raw r c).1),
   (List.range m.n).any (fun r => (List.range m.n).any (fun c => (raw r c).2)))

/-- Right-hand side in QX. -/
def rhsOf (m : MatDesc) (ent : List Int) : List Int := (List.range m.rhs).map (fun i => ent.getD (m.stored + i) 0)

/-- A MATVEC product: y := M·x in QX (R115). -/
def matvec (m : MatDesc) (ent : List Int) : List Int × Bool :=
  let a := inputMat m ent
  let b := rhsOf m ent
  let raw := (List.range m.n).map (fun r => shiftR (sumN m.k (fun k => at2 a r k * b.getD k 0)) m.qin)
  (raw.map (satS 32), raw.any outOf32)

/-- Jᵀ·y in QX from y in QF (R115). -/
def jty (m : MatDesc) (ent : List Int) (y : List Int) : List Int × Bool :=
  let a := inputMat m ent
  let raw := (List.range m.k).map (fun c =>
    shiftR (sumN m.n (fun r => at2 a r c * y.getD r 0)) ((m.qin : Int) + m.qf - m.qx))
  (raw.map (satS 32), raw.any outOf32)

/-- The residual b - A·x of an internal iterate, rounded to QX (R134). A DLS iterate is in QF and its A is the assembled
matrix; the A of the other operations is the matrix as delivered, in QIN, and their iterate is in QX (log entry 7). -/
def residual (m : MatDesc) (ent : List Int) (a : List (List Int)) (x : List Int) : List Int × Bool :=
  let b := rhsOf m ent
  let inp := inputMat m ent
  let sym (i j : Nat) : Int := if m.op = 4 then at2 a i j else at2 inp i j
  let fa : Nat := if m.op = 4 then m.qf else m.qin
  let fx : Nat := if m.op = 4 then m.qf else m.qx
  let raw := (List.range m.n).map fun i =>
    toFormat (b.getD i 0 * 2 ^ (fa + fx) - sumN m.n (fun j => sym i j * x.getD j 0) * 2 ^ m.qx) ((fa : Int) + fx)
  (raw.map (·.1), raw.any (·.2))

/-- One internal solve: a right-hand side in QX gives a vector in QX, or in QF for DLS. -/
def innerSolve (m : MatDesc) (f : Factor) (b : List Int) : List Int × Bool :=
  solveFactor f m.qf m.qx (if m.op = 4 then m.qf else m.qx) b

/-- Iterates 0 to `k` of `refine`, with the internal vector of the last one and the SAT flag of the matrix after it (R134). -/
def iterates (m : MatDesc) (resExp refine : Nat) (ent : List Int) (a : List (List Int)) (f : Factor) (sat0 : Bool) :
    Nat → List Iter × List Int × Bool
  | 0 =>
    let x := innerSolve m f (rhsOf m ent)
    let i := judge x.1 (sat0 || x.2) 0
    ([i], x.1, i.sat)
  | k + 1 =>
    let prev := iterates m resExp refine ent a f sat0 k
    let c := innerSolve m f (residual m ent a prev.2.1).1
    let raw := (List.range m.n).map (fun i => prev.2.1.getD i 0 + c.1.getD i 0)
    let x := raw.map (satS 32)
    let i := judge x (prev.2.2 || c.2 || raw.any outOf32) (k + 1)
    (prev.1 ++ [i], x, i.sat)
where
  -- the last iterate has a residual only where the check is enabled (R115); an iterate has SAT when any result of the matrix
  -- saturated up to its judgement (R120)
  judge (x : List Int) (sat : Bool) (k : Nat) : Iter :=
    let out := if m.op = 4 then jty m ent x else (x, false)
    let r := if resExp ≠ 0 || k < refine then residual m ent a x else ([], false)
    let s := sat || out.2 || r.2
    { x := out.1, pass := !s && (resExp == 0 || r.1.all (fun v => decide (absI v ≤ 2 ^ (31 - resExp)))), sat := s }

/-- The matrix is one of the up to 16 in flight: matrices of a batch start in ascending identity, so that fewer than 16 with a smaller
one are unfinished (R127). -/
def Dev.inFlight (d : Dev) (p : Plane) (m : MatDesc) (id : Nat) : Bool :=
  decide (((d.classMats m.cls).filter (fun j => decide (j < id) && !(d.matSt p j).final)).length < 16)

/-- A matrix completes one more stage: the factorisation first, then one iterate after another (R134, R135). Work runs in φ4 only,
that of the tick batch behind the cycle batch and behind tasting (R127, R289). -/
def matrixStage (p : Plane) (id : Nat) (d : Dev) : Dev :=
  match d.matDesc id with
  | none => d
  | some m =>
    let x := d.matSt p id
    if !x.active || x.final || !d.inFlight p m id || d.rd .SYS_PHASE ≠ 4 || (m.cls ≠ 0 && (d.batchState p 0 < 2 || d.tasteBusy p)) then d
    else if m.op = 6 then
      let r := matvec m x.work
      d.updMat p id (fun y => { y with
        stage := 1, final := true, sat := r.2, iters := [{ x := r.1, pass := !r.2, sat := r.2 }] })
    else
      let a := assemble m x.work
      let f := factorise m.op m.n m.qf (d.rdP p .SLV_MAT_TUNE_TAU_EXP id) (d.rdP p .SLV_MAT_TUNE_REG_EXP id) a.1
      if x.stage = 0 then
        let d1 := d.updMat p id (fun y => { y with stage := 1, pivIdx := f.piv, sat := a.2 || f.sat })
        match f.piv with
        | some i => raiseP p .PIV_TINY [id, i] d1
        | none => d1
      else
        let refine := d.rdP p .SLV_MAT_TUNE_REFINE id
        let its := (iterates m (d.rdP p .SLV_MAT_TUNE_RES_EXP id) refine x.work a.1 f (a.2 || f.sat) (x.stage - 1)).1
        let fin := decide (refine < x.stage)
        let bad := fin && !(its.any (·.pass))
        let d1 := d.updMat p id (fun y => { y with
          stage := y.stage + 1, iters := its, final := fin, resFail := bad, sat := a.2 || f.sat || its.any (·.sat) })
        if bad && d.active = p then raise .RES_FAIL wPlane [id] d1 else d1

/-- Every matrix of the class is complete. -/
def batchDone (d : Dev) (p : Plane) (cls : Nat) : Bool := (d.classMats cls).all (fun m => (d.matSt p m).final)

/-- The batch completes: SLV_STATUS shows it, and after the cycle batch the tick batch may be cut (R127). -/
def batchComplete (p : Plane) (cls : Nat) (d : Dev) : Dev :=
  if d.batchState p cls = 1 && batchDone d p cls then
    let d1 := setBatch p cls 2 d
    if cls = 0 then tryCut p 1 d1 else d1
  else d

/-! ### The deadline (R135 to R138) -/

/-- Latest passing iterate with its index. -/
def lastPass (l : List Iter) : Option (Iter × Nat) :=
  (l.zip (List.range l.length)).foldl (fun acc e => if e.1.pass then some e else acc) none

/-- The extrapolated previous solution for a target (R137), with its saturation. -/
def shifted (m : MatDesc) (x : MatSt) (t : T96) : List Int × Bool × Bool :=
  match x.x1, x.x2 with
  | none, _ => (List.replicate m.len 0, false, true)
  | some a, none => (a.1, false, false)
  | some a, some b =>
    let den : Int := (a.2 : Int) - b.2
    let raw := (a.1.zip b.1).map (fun e =>
      e.1 + rdiv ((e.1 - e.2) * ((t : Int) - a.2) * (if den < 0 then -1 else 1)) (absI den))
    (raw.map (satS 32), raw.any outOf32, false)

/-- What a matrix delivers at the deadline: values, SOLSTAT, SAT, RES_FAIL, ITER, and the code of its record. Where no iterate passed and
no consumer moves, its own result is the last iterate; a FRESH delivery shows SAT of the iterate that it delivers, whatever a later one
did (DESIGN CHOICE, log entry 151). -/
def outcome (m : MatDesc) (x : MatSt) (t : T96) : List Int × Nat × Bool × Bool × Nat × Option Code :=
  let sh := shifted m x t
  let shStat := if sh.2.2 then 0 else 2
  match lastPass x.iters with
  | some e => (e.1.x, 1, e.1.sat, false, e.2, none)
  | none =>
    if x.final then
      if m.moves then (sh.1, shStat, x.sat || sh.2.1, x.resFail, 0, some .BOUNDED)
      else ((x.iters.getLast?.map (·.x)).getD (List.replicate m.len 0), 3, x.sat, x.resFail, x.iters.length - 1, some .BOUNDED)
    else (sh.1, shStat, sh.2.1, false, 0, some .DEADLINE_MISS)

/-- Consumers of a starved matrix stop: arms in joint space with their whole block, groups on the quick-stop ramp
(R138, R159). -/
def starveStops (p : Plane) (m : MatDesc) (d : Dev) : Dev :=
  forL m.cons (fun c d =>
    if 0x10 ≤ c && c < 0x30 then requestStop p (c % 16) .starve true d
    else if 0x30 ≤ c && c < 0x40 then forL (d.groupAxes (c - 0x30)) (fun a d => requestAux p a .starve true d) d
    else d) d

/-- One matrix delivers into its non-current buffer at the deadline (R136 to R138). -/
def deliverMat (p : Plane) (id : Nat) (seq : Nat) (t : T96) (d : Dev) : Dev :=
  match d.matDesc id with
  | none => d
  | some m =>
    let x0 := d.matSt p id
    -- a matrix that had no cut since its last delivery counts as not started
    let x := if x0.active then x0 else { x0 with iters := [], final := false, pivIdx := none, sat := false, resFail := false }
    let o := outcome m x t
    let fresh := decide (o.2.1 = 1)
    let age := if fresh then 0 else min 255 (x.age + 1)
    let starve := !fresh && age == d.rdP p .SLV_MAT_TUNE_MAX_SHIFT id
    let starved := !fresh && (x.starved || starve)
    let stat := o.2.1 + 4 * b2n x.pivIdx.isSome + 8 * b2n o.2.2.1 + 16 * b2n o.2.2.2.1 + 32 * b2n starved +
      64 * o.2.2.2.2.1 + 256 * (x.pivIdx.getD 0) + 16384 * b2n (!x.cur) + 65536 * age
    let buf : SolBuf := { stat := stat, seq := seq, target := t, vals := o.1 }
    let d1 := d.updMat p id (fun y => { y with
      buf0 := if y.cur then buf else y.buf0
      buf1 := if y.cur then y.buf1 else buf
      x2 := if fresh then y.x1 else y.x2
      x1 := if fresh then some (o.1, t) else y.x1
      age := age, starved := starved, delivered := true, active := false })
    let d2 := match o.2.2.2.2.2 with
      | some c => if d.active = p then raise c wPlane [id] d1 else d1
      | none => d1
    if starve then starveStops p m (if d.active = p then raise .SOLVER_STARVED wPlane [id] d2 else d2) else d2

/-- A matrix became starved at this deadline. -/
def starvedNow (d : Dev) (p : Plane) (id : Nat) : Bool :=
  let x := d.matSt p id
  x.delivered && x.starved && x.age == d.rdP p .SLV_MAT_TUNE_MAX_SHIFT id

/-- Matrices of the class whose delivered buffer has one of some SOLSTAT. -/
def countStat (d : Dev) (p : Plane) (cls : Nat) (vs : List Nat) : Nat :=
  ((d.classMats cls).filter (fun m =>
    let x := d.matSt p m
    vs.contains ((if x.cur then x.buf0.stat else x.buf1.stat) % 4))).length

/-- Every matrix of the class had its cut and is complete. -/
def batchReady (d : Dev) (p : Plane) (cls : Nat) : Bool := batchDone d p cls && (d.classMats cls).all (fun m => (d.matSt p m).active)

/-- The deadline of a batch: every matrix delivers, the sequence advances, one BATCH_CLOSE record (R135, R136). An empty
class has no deadline event (R130); its status shows closed from that instant all the same (DESIGN CHOICE, log entry 152). -/
def closeBatch (p : Plane) (cls : Nat) (d : Dev) : Dev :=
  let early := batchReady d p cls
  let seq := (d.rdP p .SLV_BATCH_SEQ cls + 1) % 2 ^ 32
  if (d.classMats cls).isEmpty then setBatch p cls 3 d
  else
    -- the target instant: where the set-points act at the drives, or the boundary at which the solution becomes live (R137)
    let target := if cls = 0 then d.cyc.closeAt + d.nextLen else d.cyc.closeAt
    let d1 := forL (d.classMats cls) (fun m => deliverMat p m seq target) d
    let f := countStat d1 p cls [1]
    let s := countStat d1 p cls [0, 2]
    let b := countStat d1 p cls [3]
    let d2 := (((d1.wrP p .SLV_BATCH_STAT_FRESH f cls).wrP p .SLV_BATCH_STAT_STALE s cls).wrP p
      .SLV_BATCH_STAT_BOUNDED b cls).wrP p .SLV_BATCH_STAT_EARLY (b2n early) cls
    let d3 := if d.active = p then record Code.BATCH_CLOSE.num 2 wPlane [cls, seq, f, s, b] d2 else d2
    (setBatch p cls 3 d3).wrP p .SLV_BATCH_SEQ seq cls

/-! ### The flip (R128) -/

/-- The current buffer of a matrix. -/
def MatSt.current (x : MatSt) : SolBuf := if x.cur then x.buf1 else x.buf0

/-- Shows the status of the current buffer. -/
def showMat (p : Plane) (id : Nat) (d : Dev) : Dev :=
  let x := d.matSt p id
  let s := x.current.stat
  let w (f : Fld) (v : Nat) (d : Dev) : Dev := d.wrP p f v id
  w .SLV_MAT_STAT_AGE (s / 65536) (w .SLV_MAT_STAT_CUR (b2n x.cur) (w .SLV_MAT_STAT_PIV_IDX (s / 256)
    (w .SLV_MAT_STAT_ITER (s / 64) (w .SLV_MAT_STAT_STARVED (s / 32) (w .SLV_MAT_STAT_RES_FAIL (s / 16)
      (w .SLV_MAT_STAT_SAT (s / 8) (w .SLV_MAT_STAT_PIV_TINY (s / 4) (w .SLV_MAT_STAT_SOLSTAT s d))))))))

/-- The joint set-points of an arm move by the delivered Δq, exactly (R128); so does the start of a JOINT segment that the arm runs, whose
set-points count from it. An arm in STO, an arm in a joint stop or at rest after it while the matrix stays starved, and a set-point that
R41 substitutes follow their own rules (R138; log entry 8). -/
def addDeltaQ (p : Plane) (n : Nat) (vals : List Int) (qx : Nat) (starved : Bool) (d : Dev) : Dev :=
  if d.armHeld p n || (d.arm p n).stop.any (fun r => r.cause == .starve) || (starved && d.armState p n == stFault) then d
  else
    let dq := vals.map (· * 2 ^ (32 - qx))
    let joint := (d.arm p n).q.head?.any (fun g => g.typ == 1)
    let d1 := if joint then d.updArm p n (fun a => { a with start := { a.start with q := (a.start.q.zip dq).map (fun e => e.1 + e.2) } }) else d
    forL ((d.armAxes n).zip dq) (fun e d =>
      let sp := d.spOf p e.1
      if sp.stale then d else d.setSp p e.1 { sp with pos := sp.pos + e.2 }) d1

/-- A flipped matrix reaches its consumers (R128, R156, R157). -/
def consume (p : Plane) (id : Nat) (m : MatDesc) (d : Dev) : Dev :=
  let vals := (d.matSt p id).current.vals
  let d1 := forL m.cons (fun c d => if 0x10 ≤ c && c < 0x20 then addDeltaQ p (c - 0x10) vals m.qx (d.matSt p id).starved d else d) d
  forL (d.pat.geom.blocks) (fun b d =>
    if b.2.closeMat = id && d.rdP p .PPE_BLK_STAT_COUPLED b.1 = 1 then closureFlip p b.1 vals m.qx d
    else if b.2.shareMat = id && d.rdP p .PPE_BLK_STAT_COUPLED b.1 = 1 then shareFlip p b.1 vals m.qx d
    else d) d1

/-- One matrix flips (R128). -/
def flipMat (p : Plane) (id : Nat) (d : Dev) : Dev :=
  if (d.matSt p id).delivered then
    let d1 := showMat p id (d.updMat p id (fun x => { x with cur := !x.cur, delivered := false }))
    match d.matDesc id with
    | some m => consume p id m d1
    | none => d1
  else d

/-- The flip of a closed batch at its boundary: buffers, done interrupt, and the class waits for its next cut (R128). An empty class gives no
interrupt (DESIGN CHOICE, log entry 152). -/
def flipBatch (p : Plane) (cls : Nat) (d : Dev) : Dev :=
  if d.batchState p cls = 3 then
    let d1 := forL (d.classMats cls) (flipMat p) d
    let d2 := if (d.classMats cls).isEmpty then d1 else icuRaise p (160 + cls) d1
    setBatch p cls 0 (d2.updSlv p (fun s => { s with cut := s.cut.set cls false }))
  else d

/-- SLV tuning that APPLY refuses: the first matrix (04_solver.md, SLV_MATn_TUNE). -/
def slvRefused (p : Plane) (d : Dev) : Option Nat :=
  (d.pat.solver.mats.map (·.1)).find? (fun m =>
    let t := d.staged .SLV_MAT_TUNE_TAU_EXP p m 0
    let r := d.staged .SLV_MAT_TUNE_REG_EXP p m 0
    t < 8 || 30 < t || r < 4 || t < r || d.staged .SLV_MAT_TUNE_MAX_SHIFT p m 0 == 0)

/-- Residence of the Pattern's matrices: entries at their Pattern values (R113). -/
def loadMatrices (p : Plane) (d : Dev) : Dev :=
  forL d.pat.solver.mats (fun e d => d.updMat p e.1 (fun _ => { ent := e.2.ent, work := e.2.ent }))
    (d.updSlv p (fun _ => {}))

end Sys2Proof.Machine
end

