-- ==== Sys2Proof/Machine/Admission.lean ====
section
/-! DEFINITION. The Pattern image as bytes, and the checks that admit it (02_pattern_startup.md R49 to R53, R61, R65). -/

namespace Sys2Proof.Machine

/-! ### The image (R49, R51, R52) -/

/-- A byte string as a number, first byte least significant (R4). -/
def leNum (bs : List Byte) : Nat := bs.foldr (fun b n => b.toNat + 256 * n) 0

/-- `n` bytes of an image from an offset. -/
def Image.slice (m : Image) (o n : Nat) : List Byte := (m.bytes.drop o).take n

/-- A field of `n` bytes of an image. -/
def Image.num (m : Image) (o n : Nat) : Nat := leNum (m.slice o n)

/-- The header fields. -/
def Image.magic (m : Image) : Nat := m.num 0x00 4
def Image.format (m : Image) : Nat := m.num 0x04 2
def Image.secCount (m : Image) : Nat := m.num 0x06 2
def Image.gen (m : Image) : Nat := m.num 0x08 4
def Image.length (m : Image) : Nat := m.num 0x0C 4
def Image.device (m : Image) : Nat := m.num 0x10 3
def Image.stepping (m : Image) : Nat := m.num 0x13 1
def Image.mainSlot (m : Image) : Nat := m.num 0x14 1
def Image.toileBoot (m : Image) : Bool := m.num 0x15 1 % 2 == 1
def Image.fpcBuild (m : Image) : Nat := m.num 0x18 8
def Image.pubKey (m : Image) : List Byte := m.slice 0x40 64
def Image.sig (m : Image) : List Byte := m.slice 0x80 64

/-- The section table: SEC_COUNT entries of 48 bytes behind the header. -/
def Image.sections (m : Image) : List SecEntry :=
  (List.range m.secCount).map (fun k =>
    let o := 256 + 48 * k
    ⟨m.num o 2, m.num (o + 2) 1, m.num (o + 3) 1, m.num (o + 4) 4, m.num (o + 8) 4, numOf (m.slice (o + 16) 32)⟩)

/-- KIND and INSTANCE of the sections. -/
def Image.kinds (m : Image) : List (Nat × Nat) := m.sections.map (fun e => (e.kind, e.inst))

/-- The body of a section. -/
def Image.body (m : Image) (e : SecEntry) : List Byte := m.slice e.ofs e.len

/-- DIGEST of the section of a kind, 0 without one. -/
def Image.digOf (m : Image) (kind : Nat) : Nat := ((m.sections.find? (fun e => e.kind == kind)).map (·.digest)).getD 0
def Image.digCell (m : Image) : Nat := m.digOf 1
def Image.digRing (m : Image) : Nat := m.digOf 5
def Image.digSafety (m : Image) : Nat := m.digOf 10

/-- The SAFETY body, its part before the trailer, and the trailer's fields (R52). -/
def Image.safety (m : Image) : List Byte := ((m.sections.find? (fun e => e.kind == 10)).map m.body).getD []
def Image.safSigned (m : Image) : List Byte := m.safety.take (m.safety.length - 144)
def Image.trailer (m : Image) : List Byte := m.safety.drop (m.safety.length - 144)
def Image.safSlot (m : Image) : Nat := leNum (m.trailer.take 1)
def Image.safKey (m : Image) : List Byte := (m.trailer.drop 16).take 64
def Image.safSig (m : Image) : List Byte := (m.trailer.drop 80).take 64

/-- IMG_HASH: the hash of the whole image (R59). -/
def Image.hash (m : Image) : Nat := sm3 m.bytes

/-- What the main signature covers: header bytes 0x000 to 0x03F and the section table (R50). -/
def Image.signed (m : Image) : List Byte := m.slice 0 64 ++ m.slice 256 (48 * m.secCount)

/-- A CODE section, read from its body (R419): ENTRY, CSW0, EVB, NSEG and NSEG segments, whose data lie in the body. A segment that runs
past the body holds fewer bytes than its length. -/
def Image.codeSec (m : Image) (e : SecEntry) : CodeSec :=
  let b := m.body e
  let num (o n : Nat) : Nat := leNum ((b.drop o).take n)
  { core := e.inst, entry := num 0 4, csw0 := num 4 4, evb := num 8 4, nseg := num 12 4
    segs := (List.range (min 64 (num 12 4))).map (fun s =>
      let o := 16 + 16 * s
      let zero := num (o + 12) 4 % 2 == 1
      { addr := num o 4, len := num (o + 4) 4, zero := zero
        data := if zero then [] else (b.drop (num (o + 8) 4)).take (num (o + 4) 4) }) }

/-- The CODE sections of an image. -/
def Image.codeSecs (m : Image) : List CodeSec := (m.sections.filter (fun e => e.kind == 8)).map m.codeSec

/-- The Pattern of an image: its sections with the header's values, and the CODE sections from their bytes. A Pattern in format 1 drives LSv1 nodes and SFv1 frames only (R51;
DEDUCED, log entry 165: its sections hold no other version). -/
def Image.pattern (m : Image) : Pattern :=
  let p := { m.pat with code := m.codeSecs, gen := m.gen, format := m.format, toileBoot := m.toileBoot, keySlot := m.mainSlot, safeSlot := m.safSlot }
  if m.format ≠ 1 then p
  else { p with
    ring := p.ring.map (fun e => (e.1, { e.2 with
      ver := 1, nodes := e.2.nodes.map (fun n => (n.1, { n.2 with lsVer := 1, sfVer := min 1 n.2.sfVer })) }))
    safety := { p.safety with sensors := p.safety.sensors.map (fun e => (e.1, { e.2 with ver := 1 })) } }

/-! ### Keys and signatures (R50, R52, R53) -/

/-- A key slot holds a programmed key that is not revoked, and the hash of the public key is the slot's. -/
def keyGood (v : Vault) (slot : Nat) (key : List Byte) : Bool :=
  decide (slot < 4) && (v.slots.get slot).hash == some (sm3 key) && !(v.slots.get slot).revoked

/-- The main and the safety signature verify, each over the hash of what it covers (R50, R52). -/
def Image.sigOk (m : Image) : Bool := sm2Verify m.pubKey m.sig (bytesFrom 32 (sm3 m.signed))
def Image.safSigOk (m : Image) : Bool := sm2Verify m.safKey m.safSig (bytesFrom 32 (sm3 m.safSigned))

/-! ### The checks of R65 -/

/-- A failed check with the payload of its fault. -/
abbrev Refused := Option (List Int)

/-- A check fails without a section. -/
def anyBad (b : Bool) : Refused := if b then some [] else none

/-- A check fails in the section of a kind, whose index it names where the image holds one. -/
def Image.kindBad (m : Image) (kind : Nat) (b : Bool) : Refused :=
  if b then some (match m.sections.findIdx? (fun e => e.kind == kind) with
    | some i => [i]
    | none => []) else none

/-- The first section for which a check fails. -/
def Image.secBad (m : Image) (f : SecEntry → Bool) : Refused := (m.sections.findIdx? f).map (fun i => [(i : Int)])

/-- MAGIC and the structure of header and table: LENGTH, SEC_COUNT, every body on 16 bytes, not empty and inside LENGTH (R49). -/
def Image.magicBad (m : Image) : Refused :=
  (anyBad (m.magic != 0x50464E44 || m.length % 16 != 0 || decide (0x01FFFF00 < m.length) || m.bytes.length != m.length ||
    m.secCount == 0 || decide ((if m.format = 1 then 32 else 64) < m.secCount) || decide (m.length < 256 + 48 * m.secCount))).orElse
    (fun _ => m.secBad (fun e => e.ofs % 16 != 0 || e.len == 0 || decide (m.length < e.ofs + e.len)))

/-- FORMAT is 1 or 2 and every kind fits it (R51). -/
def Image.formatBad (m : Image) : Refused :=
  (anyBad (m.format != 1 && m.format != 2)).orElse (fun _ => m.secBad (fun e => m.format == 1 && (e.kind == 11 || e.kind == 12)))

/-- The sections are those of R51: an unknown kind or INSTANCE, a duplicate, a required section that is missing, and CODE for each core
that the task graph uses. -/
def Image.kindsBad (m : Image) : Refused :=
  (m.secBad (fun e => e.kind == 0 || decide (12 < e.kind) || (if e.kind = 8 then decide (9 < e.inst) else e.inst != 0) ||
    decide (1 < (m.kinds.filter (· == (e.kind, e.inst))).length))).orElse (fun _ =>
      anyBad ([1, 2, 4, 5, 7, 10].any (fun k => !m.kinds.contains (k, 0)) ||
        m.pat.tasks.any (fun t => t.2.qdepth != 0 && !m.kinds.contains (8, t.2.core))))

/-- The descriptors of the SOLVER section: OP is one of R115, and an arm's set-point matrix has the arm's joint count (R128). -/
def solverBad (p : Pattern) : Bool :=
  p.solver.mats.any (fun e => e.2.op == 0 || decide (6 < e.2.op) || e.2.cons.any (fun c =>
    decide (0x10 ≤ c) && decide (c < 0x20) && (match Sparse.find p.arms (c - 0x10) with
      | some s => s.joints != e.2.len
      | none => true)))

/-- The task descriptors (R439): ENTRY, CORE, SRC, QDEPTH, MSG_HOLD and the save area of a PREEMPT task; no task waits for the done of an
empty class (R130). -/
def tasksBad (p : Pattern) : Bool :=
  p.tasks.any (fun e =>
    let t := e.2
    t.qdepth != 0 && (decide (1023 < e.1) || t.entry % 4 != 0 || decide (9 < t.core) || decide (6 < t.src) || decide (64 < t.qdepth) ||
      decide (64 < t.msgHold) || decide (31 < t.prio) || (t.preempt && t.save % 16 != 0) ||
      (t.preempt && p.tasks.any (fun f => f.1 != e.1 && f.2.qdepth != 0 && f.2.preempt && f.2.core == t.core &&
        decide (t.save < f.2.save + 272) && decide (f.2.save < t.save + 272))) ||
      (t.preempt && p.code.any (fun c => c.core == t.core && c.segs.any (fun g => decide (t.save < g.addr + g.len) && decide (g.addr < t.save + 272)))) ||
      (t.src == 6 && p.solver.mats.all (fun m => m.2.cls != t.srcarg % 2))))

/-- The edges of posts between cores form a cycle (R450): a core from which a walk over them comes back. -/
def postsCycle (p : Pattern) : Bool :=
  let edge (a b : Nat) : Bool := a != b && p.tasks.any (fun t => t.2.qdepth != 0 && t.2.core == b && bit t.2.posters a)
  let grow (l : List Nat) : List Nat := (List.range 10).filter (fun b => l.contains b || l.any (fun a => edge a b))
  (List.range 10).any (fun c => ((List.range 9).foldl (fun l _ => grow l) ((List.range 10).filter (edge c))).contains c)

/-- Two segments overlap. -/
def segsOverlap : List CodeSeg → Bool
  | [] => false
  | g :: t => t.any (fun h => decide (g.addr < h.addr + h.len) && decide (h.addr < g.addr + g.len)) || segsOverlap t

/-- What a CODE section may not hold (R419): no segment or more than 64, overlapping ones, one outside local memory or with its data outside
the body; a CSW0 with other bits, an ENTRY or an EVB off its multiple. -/
def codeBad (c : CodeSec) : Bool :=
  c.entry % 4 != 0 || c.evb % 256 != 0 || decide (7 < c.csw0) || c.nseg == 0 || decide (64 < c.nseg) ||
    segsOverlap c.segs || c.segs.any (fun g => decide (0x40000 < g.addr + g.len) || (!g.zero && g.data.length != g.len))

/-- The regions of the MEMORY section lie on lines of 64 bytes (R472). -/
def regionsBad (p : Pattern) : Bool := p.mem.regions.any (fun r => r.lo % 64 != 0 || r.hi % 64 != 0)

/-- The SAFETY section: the two inputs of a pair do not share a TP (R229), and the stopping tables keep R271. -/
def safetyBad (p : Pattern) : Bool :=
  let s := p.safety
  (List.range 8).any (fun i => match Sparse.find s.tpOf (2 * i), Sparse.find s.tpOf (2 * i + 1) with
    | some a, some b => a == b
    | _, _ => false) ||
  s.ssm.any (fun e =>
    let t := e.2.table
    let u := Sparse.find s.units e.1
    decide (t.length < 2) || decide (16 < t.length) || (t.head?.map (·.1)) != some 0 ||
    (t.zip t.tail).any (fun x => decide (x.2.1 ≤ x.1.1) || decide (x.2.2.1 < x.1.2.1) || decide (x.2.2.2 < x.1.2.2)) ||
    decide (((t.getLast?.map (·.1)).getD 0) < (u.map (fun y => y.vRef + y.vTol)).getD 0))

/-- The source of a base is one that R305 permits it: TB0 RING or FOLLOW, TB1 PTP or FREE, TB2 PULSE, the user bases FREE, FOLLOW or
PULSE. -/
def basesBad (p : Pattern) (d : Dev) : Bool :=
  p.bases.any (fun e =>
    let src := d.rd .TB_CTL_SRC e.1
    !(match e.1 with
    | 0 => src == 1 || src == 4
    | 1 => src == 2 || src == 0
    | 2 => src == 3
    | 3 => true
    | _ => src == 0 || src == 3 || src == 4))

/-- The CAPTURE section: a fast channel takes a source of the F die, an internal one a source of the controller, each a slice that starts
at bit 0 to 32 (R392). -/
def captureBad (p : Pattern) : Bool :=
  p.cap.srcs.any (fun e =>
    let fast := match e.2.1 with
      | .fbPos _ | .fbSpeed _ | .ai _ | .si | .so | .bus => true
      | _ => false
    decide (255 < e.1) || decide (e.1 < 16) != fast || decide (32 < e.2.2))

/-- The schedule's limits on LSv1 nodes (R361), LEN_MAX of an identity slot (R371) and of a late-comer's (R380), and the version of a
ranked node (R366). -/
def ringBad (p : Pattern) : Bool :=
  p.ring.any (fun port =>
    let s := port.2
    let lenOf (n : Nat) : Nat := (Sparse.find s.slots n).elim 0 (·.lenMax)
    s.nodes.any (fun e =>
      let own := s.slots.filter (fun x => x.2.owners.contains (some e.1))
      (e.2.lsVer == 1 && (decide (255 < e.1) || decide (1 < e.2.sfVer) || own.any (fun x => decide (128 < x.2.lenMax)))) ||
      (match own.head? with
        | some x => decide (x.2.lenMax < 24)
        | none => false) ||
      (match e.2.late with
        | some l => decide (lenOf l.1 < 24)
        | none => false) || (e.2.rank.isSome && decide (e.2.lsVer < s.ver))))

/-! ### What a Pattern gives the registers -/

/-- The read-only fields that show the sections of zones and blocks (R144, R154). -/
def geomRegs (g : GeomSec) : Sparse Nat :=
  g.zones.flatMap (fun z => [(Fld.PPE_ZONE_SHAPE.key .A z.1 0, b2n z.2.capsule), (Fld.PPE_ZONE_RANK.key .A z.1 0, z.2.rank)]) ++
  g.blocks.flatMap (fun b => [(Fld.PPE_BLK_STAT_MEMBERS.key .A b.1 0, (b.2.members.map (2 ^ ·)).sum),
    (Fld.PPE_BLK_STAT_MODE.key .A b.1 0, b2n b.2.compliant), (Fld.PPE_BLK_STAT_CARRIER.key .A b.1 0, carrierOf b.2.members 7)])

/-- The register values that a Pattern gives, with plane A's keys for the blocks of a plane. -/
def patRegs (pat : Pattern) : Sparse Nat := pat.regs ++ geomRegs pat.geom

/-- Register values after LOAD: per-plane blocks restart from their reset values, but for the counters of MEM; then the Pattern's
values, in both planes. Every token is free again (R153). -/
def loadRegs (pat : Pattern) (m : Sparse Nat) : Sparse Nat :=
  let keep := m.filter (fun e => !(keyBlk e.1).starred || keyBlk e.1 == .mem)
  (patRegs pat).foldl (fun (t : Sparse Nat) e =>
    let t1 := Sparse.put t e.1 e.2
    if (keyBlk e.1).starred then Sparse.put t1 (e.1 + 0x2000000) e.2 else t1) keep

/-- 0xD00A beside the kinds: the contents that the rules named above refuse. -/
def Image.contentBad (m : Image) (p : Pattern) (d : Dev) : Refused :=
  [m.kindBad 3 (solverBad p), m.kindBad 4 (tasksBad p || postsCycle p), m.kindBad 5 (ringBad p), m.kindBad 7 (regionsBad p),
    m.secBad (fun e => e.kind == 8 && codeBad (m.codeSec e)), m.kindBad 10 (safetyBad p), anyBad (basesBad p d),
    m.kindBad 6 (captureBad p || !([0, 1, 3].contains (d.rd .CAP_CFG_BASE))), anyBad (m.fails.contains 0xD00A)].foldl
    (fun r x => r.orElse (fun _ => x)) none

/-- T_min of R29 and R315, in ns. -/
def tMinOf (c : CellSec) : Nat := c.k * 31250 - c.k * 31250 / 1000 - (if c.syncPat then c.k * 31250 / 8 else 0)

/-- The phases of the cycle are placed by R28 and fit (R29): φ0 of 1 µs, φ2 for the enabled axes, φ3 of 1.5 µs, the racked bytes in φ5,
in order inside the shortest real cycle. -/
def phasesOk (c : CellSec) (axes racked : Nat) : Bool :=
  decide (1 ≤ c.k) && decide (c.k ≤ 128) && decide (1 ≤ c.tick) && decide (c.tick ≤ 64) && decide (1000 ≤ c.phi1) &&
  decide (c.phi1 ≤ c.phi2) && decide (c.phi2 + ((axes + 15) / 16 * 800 + 100) ≤ c.phi3) && decide (c.phi3 + 1500 ≤ c.phi4) &&
  decide (500 + (racked + 7) / 8 ≤ c.phi5) &&
  decide (c.phi4 + c.phi5 ≤ tMinOf c)

/-! ### The schedule of a port (R28, R29, R349, R362) -/

/-- The payload length of this controller's cycle frame, and of its copy with the safety area alone (R344): permission sub-frames of both
channels for each version on the port, the records of the owned nodes or the corrections of basting, and the words. -/
def safBytes (s : PortSec) : Nat :=
  (if s.nodes.any (fun e => e.2.sfVer == 2) then 176 else 0) + (if s.nodes.any (fun e => e.2.sfVer == 1) then 112 else 0)
def cycleLen (p : Pattern) (s : PortSec) : Nat :=
  let len (a : Nat) : Nat := recordLen ((Sparse.find p.aux a).any (·.stepper))
  let cmd := (s.nodes.filter (fun e => e.2.owner == s.self)).foldl (fun m e => max m (e.2.cmdOfs + (e.2.axes.map len).sum)) 0
  8 + safBytes s + (max cmd (4 * s.nodes.length) + 3) / 4 * 4 + 4 * s.words.length

/-- The declared delay from this controller to a node without a wrap: on P to a node behind it, on S to one before it; of the leader, with no
break, on the path `best` picks, as the other one serves a break (R334, R362). -/
def portReach (s : PortSec) (best : Nat → Nat → Nat) (x : NodeSec) : Nat :=
  match Sparse.find s.nodes s.self with
  | none => best x.dP x.dS
  | some c => if c.dP = 0 then best x.dP x.dS else if c.dP < x.dP then x.dP - c.dP else x.dS - c.dS

/-- The windows of a cycle at the leader's receive pins, as R and W in ns: the sync frame, the slots, the cycle frames of this controller
and of the others. -/
def portWindows (p : Pattern) (s : PortSec) (lead : Nat) : List (Nat × Nat) :=
  let tMin := tMinOf p.cell
  let own := p.cell.phi4 + (s.dLoop - ((Sparse.find s.nodes s.self).elim 0 (·.dP)))
  [((tMin + s.dLoop - lead) % tMin, frameNs 44), (own, frameNs (cycleLen p s))] ++ s.slots.map (fun e => (e.2.ref, frameNs e.2.lenMax)) ++
    s.others.map (fun o => (o.1, frameNs o.2))

/-- Inserts a window in the order of its instant. -/
def insertWin (w : Nat × Nat) : List (Nat × Nat) → List (Nat × Nat)
  | [] => [w]
  | x :: t => if w.1 ≤ x.1 then w :: x :: t else x :: insertWin w t

/-- The schedule sums of a port (R349, R362): windows apart, taken around T_min; uplink inside φ1, whose end R28 places 0.20 µs behind the close
of the last slot; sync ahead; downlink delivered; safety reach; path load. `g` is G and `lead` SYNC_LEAD. -/
def scheduleOk (p : Pattern) (s : PortSec) (g lead : Nat) : Bool :=
  let tMin := tMinOf p.cell
  let wins := (portWindows p s lead).foldl (fun l w => insertWin w l) []
  let next := wins.drop 1 ++ (wins.take 1).map (fun w => (w.1 + tMin, w.2))
  let own := s.nodes.filter (fun e => e.2.owner == s.self && e.1 != s.self)
  let far (f : Nat → Nat → Nat) : Nat := own.foldl (fun m e => max m (portReach s f e.2)) 0
  let owner (x : SlotSec) : List NodeSec := x.owners.filterMap (fun o => o.bind (Sparse.find s.nodes))
  (wins.zip next).all (fun e => decide (e.1.1 + e.1.2 + g ≤ e.2.1)) &&
  s.slots.all (fun e => (owner e.2).all (fun x => decide (x.tPrep + max x.dP x.dS ≤ e.2.ref)) &&
    decide (e.2.ref + frameNs e.2.lenMax + g / 2 + 200 ≤ p.cell.phi2)) &&
  decide (frameNs 44 + s.nodes.foldl (fun m e => max m (max e.2.dP e.2.dS)) 0 + 500 ≤ lead) && decide (lead + p.cell.phi3 ≤ tMin) &&
  decide (p.cell.phi4 + frameNs (cycleLen p s) + far max ≤ tMin) &&
  decide (1500 + (22 + safBytes s) * 2 + far max ≤ 45000) &&
  decide ((wins.map (fun w => w.2 + g)).sum ≤ tMin)

/-- Every port of the Pattern keeps its sums. -/
def schedulesOk (p : Pattern) (d : Dev) : Bool :=
  p.ring.all (fun r => scheduleOk p r.2 (d.rd .LS_SCHED_GUARD r.1) (d.rd .LS_SLEAD_SYNC_LEAD r.1))

/-- A bank of state memory that holds a RACKED, PAIRED or CONST line or an engine region is ON (R473). -/
def banksOn (p : Pattern) (d : Dev) : Bool :=
  p.mem.bankPower.all (fun b => b.2 == 0 || !bankLocked d b.1)

/-- A slot with a safety sub-frame comes at least every 250 µs (R357). -/
def safetySlotsOk (p : Pattern) : Bool :=
  p.ring.all (fun port => port.2.slots.all (fun s => !s.2.owners.any (fun o => match o with
    | some n => (Sparse.find port.2.nodes n).any (fun x => x.sfVer != 0)
    | none => false) || decide (2 ^ s.2.mux * p.cell.k * 31250 ≤ 250000)))

/-- The figures of R2, and those of R117, R154, R254, R257, R439, R477 and 07_feedback.md for PI0 and PI1. -/
def capacityBad (p : Pattern) (d : Dev) : Nat → Bool
  | 2 => p.arms.any (fun x => decide (7 < x.1) || decide (x.2.joints < 3) || decide (12 < x.2.joints) || decide (64 < x.2.first + x.2.joints)) ||
      d.rd .FB_CFG_MODE 16 == 2 || d.rd .FB_CFG_MODE 17 == 2 ||
      p.aux.any (fun a => a.2.out && !stepsFit d a.1 (d.rd .PPE_SD_CFG_PW a.2.sd) (d.rd .PPE_SD_CFG_DS a.2.sd)
        (d.rd .PPE_AX_CFG_STEP_DIV (a.1 - 64)))
  | 3 => p.solver.mats.any (fun e => decide (255 < e.1) || e.2.n == 0 || decide (32 < e.2.n) || decide (32 < e.2.k)) ||
      decide (1048576 < 69632 + (p.solver.mats.map (fun e =>
        32 + 5 * (e.2.stored + e.2.rhs + (if e.2.op = 4 then 1 else 0)) + 4 * (2 * (8 + e.2.len) + 2 * e.2.len))).sum)
  | 4 => decide (1024 < p.tasks.length) || decide (4096 < (p.tasks.map (·.2.qdepth)).sum)
  | 5 => p.ring.any (fun r => decide (3 < r.1) || r.2.nodes.any (fun n => decide (511 < n.1)) || r.2.slots.any (fun s => decide (1023 < s.1) ||
      decide (256 < s.2.lenMax) || decide (6 < s.2.mux)))
  | 7 =>
    let l := [p.mem.patCopy, p.mem.capture, p.mem.cellar, p.mem.partA, p.mem.partB, p.mem.hostWin, ⟨d.dramUsable - 0x1000000, 0x1000000⟩]
    (List.range 7).any (fun i => (List.range 7).any (fun j =>
      let x := l.getD i {}
      let y := l.getD j {}
      i != j && x.size != 0 && y.size != 0 && decide (x.base < y.base + y.size) && decide (y.base < x.base + x.size))) ||
    l.any (fun x => x.size != 0 && decide (d.dramUsable < x.base + x.size))
  | 9 => p.geom.blocks.any (fun b => decide (32 < (b.2.members.map (fun n => (Sparse.find p.arms n).elim 0 (·.joints))).sum))
  | 10 => decide (128 < (p.safety.arms.map (fun a => a.2.caps.length)).sum) || p.safety.sensors.any (fun s => decide (31 < s.1) ||
      decide (24 < s.2.capMax)) || decide (128 < (p.safety.sensors.map (fun s => s.2.capMax + s.2.entries.length)).sum)
  | _ => false

/-- 0xD00C: the first section that exceeds a figure. -/
def Image.capacityBad (m : Image) (p : Pattern) (d : Dev) : Refused :=
  ([2, 3, 4, 5, 7, 9, 10].map (fun k => m.kindBad k (Machine.capacityBad p d k))).foldl (fun r x => r.orElse (fun _ => x))
    (anyBad (m.fails.contains 0xD00C))

/-- The joints of the arms do not overlap (R18); the loops of an axis keep R167, and no position comes from a counting channel in ALWAYS
mode (R200). -/
def axesOk (p : Pattern) (d : Dev) : Bool :=
  p.arms.all (fun x => p.arms.all (fun y => y.1 == x.1 || decide (x.2.first + x.2.joints ≤ y.2.first) ||
    decide (y.2.first + y.2.joints ≤ x.2.first))) &&
  p.loops.all (fun e =>
    let web := d.rd .LPE_AX_CFG_CLASS e.1 == 1
    let loops := d.loopsOf .A e.1
    (!web || !loops.isEmpty) && loops.all (fun i => srcAllowed web i (d.lp .A .LPE_LP_CTL_SRC e.1 i)) &&
    let ch := d.rd .LPE_AX_CFG_FBCH e.1
    !(d.rd .LPE_AX_CFG_FBSRC e.1 == 1 && loops.contains 0 && d.rd .FB_CFG_MODE ch % 2 == 1 && d.rd .FB_CFG_IDX_MODE ch == 0))

/-- No two cold-start nodes of a port share a rank (R366). -/
def ranksOk (p : Pattern) : Bool :=
  p.ring.all (fun r =>
    let l := r.2.rank :: r.2.nodes.filterMap (fun n => n.2.rank)
    l.all (fun x => (l.filter (· == x)).length == 1))

/-- The token order of the zones is total, ZONE_MARGIN lies from 1 to 1,000 mm, a block has two to four arms and no arm belongs to two
(R144, R145, R154). -/
def zonesOk (p : Pattern) : Bool :=
  p.geom.zones.all (fun x => p.geom.zones.all (fun y => y.1 == x.1 || y.2.rank != x.2.rank)) &&
  decide (16 ≤ p.geom.margin) && decide (p.geom.margin ≤ 16000) &&
  p.geom.blocks.all (fun b => decide (2 ≤ b.2.members.length) && decide (b.2.members.length ≤ 4) &&
    p.geom.blocks.all (fun c => c.1 == b.1 || b.2.members.all (fun n => !c.2.members.contains n)))

/-- The first check of a list that fails. -/
def firstBad : List (Code × (Unit → Refused)) → Option (Code × List Int)
  | [] => none
  | (c, f) :: t => match f () with
    | some l => some (c, l)
    | none => firstBad t

/-- The header checks of R65, in the order of the table: what the first chunk of a write shows. -/
def headerCheck (v : Vault) (d : Dev) (m : Image) : Option (Code × List Int) :=
  firstBad [
    (.PAT_MAGIC, fun _ => m.magicBad),
    (.PAT_FORMAT, fun _ => m.formatBad),
    (.PAT_DEVICE, fun _ => anyBad (m.device != d.rd .SYS_ID_DEVICE || decide (d.rd .SYS_ID_STEPPING < m.stepping))),
    (.PAT_KEY, fun _ => anyBad (!keyGood v m.mainSlot m.pubKey)),
    (.PAT_SIG, fun _ => anyBad (!m.sigOk)),
    (.PAT_SECTION, fun _ => m.kindsBad)]

/-- The checks over the contents of the sections, in the order of the table. `fails` names the checks that fail beside those which the
model computes (log entry 5). -/
def contentCheck (m : Image) (d0 : Dev) : Option (Code × List Int) :=
  let p := m.pattern
  let r := loadRegs p d0.regs
  let d := ((({ d0 with pat := p, regs := r, staging := r } : Dev).wr .SYS_CYCLE_K p.cell.k).wr .SYS_CYCLE_SYNC_PAT (b2n p.cell.syncPat))
  firstBad [
    (.PAT_SECTION, fun _ => m.kindsBad.orElse (fun _ => m.contentBad p d)),
    (.PAT_BUDGET, fun _ => (m.kindBad 1 (!phasesOk p.cell p.loops.length p.mem.rackBytes)).orElse (fun _ =>
      (m.kindBad 7 (!banksOn p d)).orElse (fun _ => (m.kindBad 5 (!safetySlotsOk p || !schedulesOk p d)).orElse (fun _ => anyBad (m.fails.contains 0xD00B))))),
    (.PAT_CAPACITY, fun _ => m.capacityBad p d),
    (.PAT_AXIS, fun _ => m.kindBad 2 (!axesOk p d || m.fails.contains 0xD00D)),
    (.PAT_RANK, fun _ => m.kindBad 5 (!ranksOk p)),
    (.PAT_CAPTURE, fun _ => m.kindBad 6 ((capRefused d).isSome || m.fails.contains 0xD010)),
    (.PAT_ZONE, fun _ => m.kindBad 9 (!zonesOk p))]

/-- Every load check of R65, in the order of the table. -/
def loadCheck (v : Vault) (d : Dev) (m : Image) : Option (Code × List Int) :=
  (firstBad [
    (.PAT_MAGIC, fun _ => m.magicBad),
    (.PAT_FORMAT, fun _ => m.formatBad),
    (.PAT_DEVICE, fun _ => anyBad (m.device != d.rd .SYS_ID_DEVICE || decide (d.rd .SYS_ID_STEPPING < m.stepping))),
    (.PAT_KEY, fun _ => (anyBad (!keyGood v m.mainSlot m.pubKey)).orElse (fun _ => m.kindBad 10 (!keyGood v m.safSlot m.safKey))),
    (.PAT_SIG, fun _ => anyBad (!m.sigOk)),
    (.PAT_DIGEST, fun _ => m.secBad (fun e => sm3 (m.body e) != e.digest)),
    (.PAT_SAFETY_SIG, fun _ => m.kindBad 10 (!m.safSigOk))]).orElse (fun _ => contentCheck m d)

/-- GEN of an image breaks R61. In NOPAT withdrawn slots do not count (R64). -/
def genBad (d : Dev) (m : Image) : Bool :=
  let held (s : FlashSlot) : Bool :=
    (s.state == .committed || (s.state == .withdrawn && d.rd .SYS_STATE_STAGE != 15)) && decide (m.gen ≤ s.gen)
  m.gen == 0xFFFFFFFF || m.gen == 0 || (d.boot.active.isSome && decide (m.gen ≤ d.pat.gen)) || held d.boot.slotA ||
  held d.boot.slotB

end Sys2Proof.Machine
end

