-- ==== Sys2Proof/Machine/SyncIn.lean ====
section
/-! DEFINITION. SYNC_IN tracking (01_cell_cycle.md R42 to R48): accepted edges, the terms r and p, the length of a cycle, lock
and its loss, and the control register. -/

namespace Sys2Proof.Machine

/-- Passes the SYNC_IN state through `f`. -/
def Dev.updSync (d : Dev) (f : SyncSt → SyncSt) : Dev := { d with sync := f d.sync }

/-- M, the cell cycles of a SYNC_IN period. -/
def Dev.syncM (d : Dev) : Nat := d.rd .SYS_SYNC_CTL_DIV

/-- SYNC_IN is permitted, enabled and divided (R42). -/
def Dev.syncOn (d : Dev) : Bool :=
  d.rd .SYS_CYCLE_SYNC_PAT == 1 && d.rd .SYS_SYNC_CTL_SYNC_EN == 1 && d.syncM != 0

/-- The length that R45 gives a cycle, in 2^-16 ns. -/
def Dev.syncLen (d : Dev) : Nat :=
  let t : Int := d.tCell * 65536
  let x := clampI (-(t / 8)) (t / 8) (d.sync.r + d.sync.p)
  (rdiv (t + x) 65536).toNat

/-- The instant of boundary `i`, counted from the one that opened the cycle: decided ones, then R45's lengths (R43). -/
def Dev.boundaryAt (d : Dev) (i : Nat) : T96 :=
  match i, d.cyc.nextAt with
  | 0, _ => d.cyc.openAt
  | 1, _ => d.cyc.closeAt
  | k + 2, some t => t + k * d.syncLen
  | k + 2, none => d.cyc.closeAt + (k + 1) * d.syncLen

/-- Of a list of instants, the one nearest to `t`, the first at equal distance. -/
def nearest (t : T96) (dflt : T96) (l : List T96) : T96 :=
  l.foldl (fun (best x : T96) => if absI ((x : Int) - t) < absI ((best : Int) - t) then x else best) dflt

/-- The boundary index nearest to `t`; of two that are equally near, the lower one (DESIGN CHOICE, log entry 179). -/
def Dev.nearestIdx (d : Dev) (t : T96) : Nat :=
  let last := if d.cyc.nextAt.isSome then 2 else 1
  let k := if d.syncLen = 0 then last else last + (t - d.boundaryAt last) / d.syncLen
  let dist (i : Nat) : Int := absI ((d.boundaryAt i : Int) - t)
  [1, 2, k, k + 1].foldl (fun best i => if dist i < dist best then i else best) 0

/-- OFS in 2^-16 ns, taken modulo M × T_cell. -/
def Dev.syncOfs (d : Dev) : Nat :=
  let m := d.syncM * d.tCell
  if m = 0 then 0 else (signed 32 (d.rd .SYS_SYNC_OFS) * nsUnit % m).toNat

/-- The sync boundary nearest to `t` (R43). -/
def Dev.nearestSync (d : Dev) (t : T96) : T96 :=
  let m := d.syncM
  let k := (m - d.sync.cnt % m) % m
  nearest t d.sync.prevSync [d.boundaryAt k, d.boundaryAt (k + m), d.boundaryAt (k + 2 * m)]

/-- SYNC_LOST sets (R47): the terms return to zero, and acquisition restarts only with AUTO_RELOCK. -/
def syncLost (d : Dev) : Dev :=
  let d1 := d.updSync (fun s => { s with
    r := 0, p := 0, tracking := false, bigRun := none, small := 0, edges := [], acq := d.rd .SYS_SYNC_CTL_AUTO_RELOCK == 1 })
  raise .SYNC_LOST wShared [] ((d1.wr .SYS_SYNC_STAT_SYNC_LOST 1).wr .SYS_SYNC_STAT_LOCKED 0)

/-- LOCKED from the phase error of an accepted edge (R46). -/
def syncLock (ph : Int) (d : Dev) : Dev :=
  let t : Int := d.tCell
  let atClamp := decide (absI d.sync.r * 50 = t * 65536) || decide (t * 65536 < absI d.sync.r * 50)
  let small := if decide (absI ph * 64 ≤ t) && !atClamp then d.sync.small + 1 else 0
  let d1 := d.updSync (fun s => { s with small := small })
  if t < absI ph * 16 then d1.wr .SYS_SYNC_STAT_LOCKED 0
  else if 4 ≤ small && d.rd .SYS_SYNC_STAT_LOCKED == 0 then icuBoth 81 (d1.wr .SYS_SYNC_STAT_LOCKED 1)
  else d1

/-- FREQ_OOR from the four latest edges of the acquisition (R46). -/
def syncFreq (d : Dev) : Dev :=
  let want : Int := 3 * d.syncM * d.tCell
  match d.sync.edges with
  | [a, _, _, e] => d.wr .SYS_SYNC_STAT_FREQ_OOR (b2n (decide (want < 50 * absI ((a : Int) - e - want))))
  | _ => d.wr .SYS_SYNC_STAT_FREQ_OOR 0

/-- An accepted edge updates the terms r and p (R45). -/
def syncTerms (ph : Int) (d : Dev) : Dev :=
  let lim : Int := d.tCell * 65536 / 50
  d.updSync (fun s => { s with
    r := clampI (-lim) lim (s.r - rdiv (ph * 65536) (16 * d.syncM))
    p := Int.neg (rdiv (ph * 65536) (4 * d.syncM)) })

/-- A run of edges with an error above T_cell/2 that reaches more than 16 cycles loses the lock (R47). The cycles are counted as whole
boundaries since the run's first edge, not as time in cycle lengths (DESIGN CHOICE, log entry 168). -/
def syncBig (ph : Int) (d : Dev) : Dev :=
  if d.tCell < absI ph * 2 then
    match d.sync.bigRun with
    | none => d.updSync (fun s => { s with bigRun := some 0 })
    | some n => if 16 < n then syncLost d else d
  else d.updSync (fun s => { s with bigRun := none })

/-- A SYNC_IN edge stamped `t` on TB0, of a pulse of `width` ns: accepted when it has the selected polarity, is no glitch and
no hold time runs (R43). On a follower only PH_ERR is measured (R42). After SYNC_LOST with AUTO_RELOCK 0 no edge is accepted, not even to
measure PH_ERR, until SYNC_EN is written 0 and 1 (DESIGN CHOICE, log entry 167). -/
def syncEdge (t : T96) (width : Nat) (falling : Bool) (d : Dev) : Dev :=
  if !d.syncOn || width < 100 || falling != (d.rd .SYS_SYNC_CTL_EDGE == 1) || d.sync.hold != 0 ||
      !(d.sync.acq || d.sync.tracking) then d
  else
    let target := t + d.syncOfs
    let m := d.syncM
    let d1 :=
      if d.sync.acq then
        let j := d.nearestIdx target
        d.updSync (fun s => { s with
          acq := false, tracking := true, cnt := (m - j % m) % m, prevSync := d.boundaryAt j, edges := [], small := 0
          bigRun := none })
      else d
    let ph : Int := (d1.nearestSync target : Int) - target
    let d2 := (d1.updSync (fun s => { s with hold := if m < 2 then 0 else m / 2 + 1, missCnt := 0, missArmed := true, edges := (t :: s.edges).take 4 })).wr
      .SYS_SYNC_STAT_PH_ERR (unsigned 24 (clampI (-(2 ^ 23 - 1)) (2 ^ 23 - 1) (rdiv ph nsUnit)))
    if !d2.leads then d2 else syncBig ph (syncFreq (syncLock ph (syncTerms ph d2)))

/-- No edge within M + 16 cycles: EDGE_MISS and SYNC_LOST (R46, R47). -/
def edgeMiss (d : Dev) : Dev :=
  if d.syncOn && d.leads && d.sync.missArmed && decide (d.syncM + 16 ≤ d.sync.missCnt) then
    syncLost ((d.updSync (fun s => { s with missArmed := false })).wr .SYS_SYNC_STAT_EDGE_MISS 1)
  else d

/-- The SYNC_IN counters at a boundary placed at `t`. -/
def syncBoundary (t : T96) (d : Dev) : Dev :=
  if !d.syncOn then d
  else
    let cnt := (d.sync.cnt + 1) % d.syncM
    d.updSync (fun s => { s with
      cnt := cnt
      prevSync := if cnt = 0 then t else s.prevSync
      hold := s.hold - 1
      missCnt := s.missCnt + 1
      bigRun := s.bigRun.map (· + 1) })

/-- The length of the next cycle at a boundary decision (R33, R45): T_cell unless SYNC_IN acts. -/
def Dev.decideLen (d : Dev) : Nat := if d.syncOn && d.leads then d.syncLen else d.tCell

/-- A write of SYS_SYNC_CTL (R48). -/
def syncCtlWrite (w : Nat) (d : Dev) : Dev :=
  let en := if d.rd .SYS_CYCLE_SYNC_PAT = 0 then 0 else w % 2
  if d.rd .SYS_SYNC_CTL_SYNC_EN = 1 then
    if bit w 1 != (d.rd .SYS_SYNC_CTL_EDGE == 1) || bit w 2 != (d.rd .SYS_SYNC_CTL_AUTO_RELOCK == 1) ||
        w / 65536 % 4096 != d.syncM then d
    else if w % 2 = 1 then d
    else
      let d1 := d.updSync (fun s => { s with r := 0, p := 0, acq := false, tracking := false, missArmed := false, bigRun := none })
      ((d1.wr .SYS_SYNC_CTL_SYNC_EN 0).wr .SYS_SYNC_STAT_LOCKED 0).wr .SYS_SYNC_STAT_FREQ_OOR 0
  else
    let d1 := ((d.wr .SYS_SYNC_CTL_EDGE (w / 2)).wr .SYS_SYNC_CTL_AUTO_RELOCK (w / 4)).wr .SYS_SYNC_CTL_DIV (w / 65536)
    if en = 0 then d1
    else (d1.updSync (fun s => { s with
      r := 0, p := 0, acq := true, tracking := false, hold := 0, missCnt := 0, missArmed := true, small := 0
      bigRun := none, edges := [] })).wr .SYS_SYNC_CTL_SYNC_EN 1

/-- A write of SYS_SYNC_OFS, which is ignored while SYNC_EN reads 1 (R48). -/
def syncOfsWrite (w : Nat) (d : Dev) : Dev := if d.rd .SYS_SYNC_CTL_SYNC_EN = 1 then d else d.wr .SYS_SYNC_OFS w

end Sys2Proof.Machine
end

