-- ==== Sys2Proof/Machine/Power.lean ====
section
/-! DEFINITION. Pace, the AVS governor, temperature, and requests of the power ladder (18_pace_power.md R482 to R494, R501,
R504). The steps of the ladder stand in `Ladder`. -/

namespace Sys2Proof.Machine

/-- Passes the pace and power state through `f`. -/
def Dev.updPwr (d : Dev) (f : PwrSt → PwrSt) : Dev := { d with pwr := f d.pwr }

/-- The power state of the ladder (R492). -/
def Dev.ladder (d : Dev) : Nat := d.rd .SYS_LADDER_STATE

/-! ### The AVS governor (R485 to R489) -/

/-- The governor moves VCMD, held between VMIN and VMAX; the regulator has not acknowledged the new command. -/
def setVcmd (v : Nat) (d : Dev) : Dev :=
  let lo := d.rd .PWR_AVS_VMIN
  let hi := d.rd .PWR_AVS_VMAX
  let n := max lo (min v hi)
  let d1 := d.wr .PWR_AVS_AT_MAX (b2n (n == hi))
  if n = d.rd .PWR_AVS_VCMD then d1
  else (d1.wr .PWR_AVS_VCMD n).updPwr (fun w => { w with since := 0, high := 0, acked := none })

/-- A raise: it restarts the 10 ms interval of a lowering and the 20 µs of the next raise. -/
def raiseVcmd (v : Nat) (d : Dev) : Dev := (setVcmd v d).updPwr (fun w => { w with sinceUp := 0, since := 0, high := 0 })

/-- The governor acts at the end of a window with the smallest lap count `laps` (R486). It holds VCMD while a failed
transaction is retried (R488). -/
def govern (laps : Nat) (d : Dev) : Dev :=
  let bound := decide (d.rd .PWR_AVS_VCMD < d.rd .PWR_AVS_VMIN) || decide (d.rd .PWR_AVS_VMAX < d.rd .PWR_AVS_VCMD)
  let thin := decide (95 * laps < 100000)
  let d0 := d.updPwr (fun w => { w with
    thinPrev := thin, high := if 100000 < 65 * laps then w.high + 1 else 0, since := w.since + 1, sinceUp := w.sinceUp + 1 })
  let d1 := if thin && !d.pwr.thinPrev then raise .PACE_LOW wShared [laps] d0 else d0
  if d.rd .PWR_AVS_AVS_ERR = 1 && d.pwr.avsPending then d1
  else
    let d2 := if bound then setVcmd (d1.rd .PWR_AVS_VCMD) d1 else d1
    let v := d2.rd .PWR_AVS_VCMD
    if thin then if v = d2.rd .PWR_AVS_VMAX then d2 else raiseVcmd (d2.rd .PWR_AVS_VMAX) d2
    else if 85 * laps < 100000 then
      if 2 ≤ d2.pwr.sinceUp && decide (v < d2.rd .PWR_AVS_VMAX) then raiseVcmd (v + 1) d2 else d2
    else if 1000 ≤ d2.pwr.high && decide (1000 ≤ d2.pwr.since) && decide (d2.rd .PWR_AVS_VMIN < v) then setVcmd (v - 1) d2
    else d2

/-- PACE_FAULT (R490): two consecutive windows below 1.00 with nothing left to raise; it ends after 1 s at 1.00 or more. -/
def paceFault (laps : Nat) (d : Dev) : Dev :=
  let w := d.pwr
  let settled := decide (d.rd .PWR_AVS_VCMD = d.rd .PWR_AVS_VMAX) && w.acked.any (fun n => decide (22 ≤ n))
  let low := decide (laps < 1000) && (settled || d.rd .PWR_AVS_AVS_ERR == 1)
  let good := if 1000 ≤ laps then w.good + 1 else 0
  let d1 := d.updPwr (fun w => { w with lowPrev := low, good := good })
  if low && w.lowPrev && !w.paceFault then
    degrCause 5 (raise .PACE_FAULT wShared [laps] (d1.updPwr (fun w => { w with paceFault := true })))
  else if w.paceFault && 100000 ≤ good then
    let d2 := d1.updPwr (fun w => { w with paceFault := false })
    dropCauses (· == 5) d2
  else d1

/-- The domain of a replica ring: six in each plane, two shared, two in safety channel A (R482). -/
def ringDom (r : Nat) : Nat := if r < 6 then 0 else if r < 12 then 1 else if r < 14 then 2 else 3

/-- A pace window ends with the lap counts of the 16 replica rings (R482): PACE, DOM and LOWEST, then R490 and the governor,
which runs from stage FUSES on in RUN, HOLD and IDLE. -/
def paceWindow (laps : List Nat) (d : Dev) : Dev :=
  match (List.range 16).map (fun r => (laps.getD r 0, ringDom r)) with
  | [] => d
  | e :: t =>
    let m := t.foldl (fun best x => if x.1 < best.1 then x else best) e
    let pace := fitU 12 (m.1 * 1024 / 1000)
    let d1 := (((d.wr .PWR_PACE pace).wr .PWR_PACE_DOM m.2).wr .PWR_PACE_LOWEST (min (d.rd .PWR_PACE_LOWEST) pace)).wr
      .SYS_STATE_PACE_OK (b2n (decide (1000 ≤ m.1)))
    let d2 := d1.updPwr (fun w => { w with acked := w.acked.map (· + 1) })
    let d3 := paceFault m.1 d2
    if 3 < d.ladder then d else if d.rd .SYS_STATE_STAGE = 0 || 2 < d.ladder then d3 else govern m.1 d3

/-- A failed transaction; the third in a row is AVS_FAULT, and the transaction stays pending, to be retried (R488). -/
def avsFail (d : Dev) : Dev :=
  if d.rd .PWR_AVS_AVS_ERR = 1 && d.pwr.avsPending then d
  else if 3 ≤ d.pwr.avsFails + 1 then
    raise .AVS_FAULT wShared [d.rd .PWR_AVS_VCMD] ((d.wr .PWR_AVS_AVS_ERR 1).updPwr (fun w => { w with
      avsFails := 0, avsPending := true }))
  else d.updPwr (fun w => { w with avsFails := w.avsFails + 1 })

/-- A transaction succeeds; a voltage write acknowledges VCMD. -/
def avsOk (write : Bool) (d : Dev) : Dev :=
  d.updPwr (fun w => { w with
    avsFails := 0, avsPending := false, acked := if write && w.acked.isNone then some 0 else w.acked })

/-- An AVSBus transaction ends. -/
def avsTransaction (write ok : Bool) (d : Dev) : Dev := if ok then avsOk write d else avsFail d

/-- The retry of each millisecond while AVS_ERR is 1 (R488). -/
def avsRetry (ok : Bool) (d : Dev) : Dev :=
  if d.rd .PWR_AVS_AVS_ERR = 1 && d.pwr.avsPending then avsTransaction true ok d else d

/-- A write of PWR_AVS (R489): ignored in full outside the bounds; VMAX only while every axis is in STO. -/
def pwrAvsWrite (w : Nat) (d : Dev) : Dev :=
  let vmin := w / 256 % 256
  let vmax := if allSto d then w / 65536 % 256 else d.rd .PWR_AVS_VMAX
  let bad (v : Nat) : Bool := decide (v < 120) || decide (180 < v)
  if vmax < vmin || bad vmin || bad (w / 65536 % 256) then d
  else
    let d1 := (d.wr .PWR_AVS_VMIN vmin).wr .PWR_AVS_VMAX vmax
    let d2 := d1.wr .PWR_AVS_AT_MAX (b2n (d1.rd .PWR_AVS_VCMD == vmax))
    if bit w 24 then d2.wr .PWR_AVS_AVS_ERR 0 else d2

/-- CLR of PWR_CMD (R482, R491). -/
def pwrClr (d : Dev) : Dev := (d.wr .PWR_PACE_LOWEST 0xFFF).wr .PWR_TEMP_TJ_MAX 0x800

/-- A reading of the temperature sensor in 0.125 °C, from stage FUSES on while the C die runs (R491): codes at 115 °C and 125 °C, re-armed
5 °C below. -/
def tempReading (v : Int) (d : Dev) : Dev :=
  if d.rd .SYS_STATE_STAGE = 0 || decide (3 < d.ladder) then d else
  let d1 := (d.wr .PWR_TEMP_TJ (unsigned 12 (fitS 12 v))).wr .PWR_TEMP_TJ_MAX
    (unsigned 12 (max (fitS 12 v) (signed 12 (d.rd .PWR_TEMP_TJ_MAX))))
  let note (was : Bool) (lim : Int) (c : Code) (d : Dev) : Dev := if lim ≤ v && !was then raise c wShared [v] d else d
  let keep (was : Bool) (lim : Int) : Bool := if lim ≤ v then true else if v ≤ lim - 40 then false else was
  let d2 := note d.pwr.tjHighed 1000 .TJ_HIGH (note d.pwr.tjWarned 920 .TJ_WARN d1)
  d2.updPwr (fun w => { w with tjWarned := keep w.tjWarned 920, tjHighed := keep w.tjHighed 1000 })

/-! ### Requests of the ladder (R494, R504) -/

/-- Every axis of the Pattern is in STO by LPE_AXa_STAT.STO of the active plane. -/
def axesSto (d : Dev) : Bool := d.loopAxes.all (fun a => d.rdP d.active .LPE_AX_STAT_STO a == 1)

/-- Motion is at rest for HOLD: arms STANDBY or HELD at zero path speed, auxiliary axes with v_sp at 0, no DECOUPLING. -/
def motionAtRest (d : Dev) : Bool :=
  let p := d.active
  d.pat.arms.all (fun e =>
    let s := d.rdP p .PPE_ARM_STAT_STATE e.1
    (s == stStandby || s == stHeld) && ((d.pl p).ppe.arms.get e.1).v == 0) &&
  d.pat.aux.all (fun e => decide (1 ≤ (d.lax p e.1).zeroFor)) &&
  (List.range 4).all (fun b => d.rdP p .PPE_BLK_STAT_DECOUPLING b == 0)

/-- This controller leads a port that another controller shares. -/
def leadsShared (d : Dev) : Bool :=
  (List.range 4).any (fun n => d.rd .LS_STATE_ROLE n == 1 && d.rd .LS_SCHED_NCTL n != 0)

/-- The reason that refuses a step down into a state, 0 for none (R494). -/
def descentReason (into : Nat) (d : Dev) : Nat :=
  match into with
  | 1 => if d.rd .SYS_STATE_STAGE ≠ 8 then 5 else if motionAtRest d then 0 else 2
  | 2 => if axesSto d then 0 else 1
  | 3 => if d.rd .SAF_SO_ON ≠ 0 then 4 else if leadsShared d then 3 else 0
  | 5 => if d.rd .PAT_STATUS_WRITING = 1 then 6 else 0
  | _ => 0

/-- The first reason on the way down from the state to `t`. -/
def descentRefused (t : Nat) (d : Dev) : Nat :=
  (List.range (t - d.ladder)).foldl (fun r i => if r ≠ 0 then r else descentReason (d.ladder + 1 + i) d) 0

/-- The raise of 30 mV before a step up into HOLD or RUN (R487). -/
def raiseForStep (d : Dev) : Dev := (raiseVcmd (d.rd .PWR_AVS_VCMD + 6) d).updPwr (fun w => { w with raised := some d.time.tr })

/-- An upward step is in progress (R502): BUSY, and the state it arrives in. -/
def beginStep (into : Nat) (d : Dev) : Dev := (d.wr .SYS_LADDER_BUSY 1).updPwr (fun w => { w with busyTo := some into })

/-- An ascent toward `t` begins or goes on: the first step's work starts. -/
def ascend (t : Nat) (d : Dev) : Dev :=
  let s := d.ladder
  let d1 := d.updPwr (fun w => { w with target := some t })
  if s ≤ t then d.updPwr (fun w => { w with target := none, raised := none })
  else if s ≤ 2 then (if d.pwr.raised.isSome then d1 else raiseForStep d1)
  else beginStep (if s = 5 then 3 else s - 1) d1

/-- A request is judged (R494): upward it starts an ascent, downward it is accepted or refused. -/
def judgeRequest (t : Nat) (d : Dev) : Dev × Nat :=
  if t ≤ d.ladder then (ascend t d, 0)
  else
    let r := descentRefused t d
    if r = 0 then (d.updPwr (fun w => { w with target := some t }), 0)
    else
      (raise .LADDER_REFUSED wShared [t, r] ((d.wr .SYS_LADDER_REFUSED 1).wr .SYS_LADDER_REASON r),
       Code.LADDER_REFUSED.num)

/-- A request for state `t` is acknowledged (R494, R504). One during a step, and one downward during an ascent, waits. -/
def requestState (t : Nat) (d : Dev) : Dev × Nat :=
  if 5 < t || 3 < d.ladder then (d, 0)
  else
    let d1 := d.wr .SYS_LADDER_TARGET t
    let rising := d.pwr.target.any (fun x => decide (x < d.ladder))
    if d.pwr.busyTo.isSome || (rising && decide (d.ladder < t)) then (d1.updPwr (fun w => { w with later := some t }), 0)
    else judgeRequest t d1

/-- A write of SYS_LADDER: REFUSED is cleared by 1, WAKE_TO takes 0 to 3, and TARGET requests a state; in SLEEP and below
an upward request comes through the mailbox only (R501). -/
def ladderTarget (w : Nat) (d : Dev) : Dev :=
  let d1 := if bit w 10 then d.wr .SYS_LADDER_REFUSED 0 else d
  let wake := w / 64 % 8
  let d2 := if wake ≤ 3 then d1.wr .SYS_LADDER_WAKE_TO wake else d1
  let t := w / 8 % 8
  if 3 ≤ d.ladder && t < d.ladder then d2 else (requestState t d2).1

/-- The mailbox command LADDER_SET. -/
def ladderSet (t : Nat) (d : Dev) : Dev × Nat × Nat :=
  let r := requestState t d
  (r.1, r.2, 0)

/-- Wake sources that act in a power state (R501): 0 to 15 inputs, 16 and 17 PI, 18 the alarm, 19 WAKE_N. -/
def wakeActs (s st : Nat) : Bool := decide (1 ≤ st) && (if st = 5 then s == 18 || s == 19 else decide (s < 20))

/-- The enable bit of a wake source in PWR_WAKE. -/
def wakeEnabled (s : Nat) (d : Dev) : Bool :=
  if s < 16 then bit (d.rd .PWR_WAKE_SI) s
  else if s = 16 then d.rd .PWR_WAKE_PI0 == 1
  else if s = 17 then d.rd .PWR_WAKE_PI1 == 1
  else if s = 18 then d.rd .PWR_WAKE_ALARM_EN == 1
  else d.rd .PWR_WAKE_WAKE_N_EN == 1

/-- An enabled wake source fires (R501, R504): its bit, the event once the C die runs, and an ascent to WAKE_TO. In KEEP the ascent
is a reset (R500), which `Ladder.lean` adds. -/
def wakeNoted (s : Nat) (d : Dev) : Dev :=
  let st := d.ladder
  let d1 := (d.wr .PWR_WAKE_STAT_CAUSE (setBit (d.rd .PWR_WAKE_STAT_CAUSE) s true)).wr .PWR_WAKE_STAT_FROM st
  if 4 ≤ st then d1.updPwr (fun w => { w with wakeNote := w.wakeNote ++ [s] }) else raise .WAKE wShared [s] d1

/-- The ascent that a wake starts above KEEP. An ascent under way goes on, at least to WAKE_TO; a descent ends at the state
reached (R504). -/
def wakeAscent (d : Dev) : Dev :=
  let goal := d.rd .SYS_LADDER_WAKE_TO
  let rising := d.pwr.target.any (fun x => decide (x < d.ladder))
  if d.pwr.busyTo.isSome then
    if goal < d.ladder then d.updPwr (fun w => { w with target := w.target.map (min goal) }) else d
  else if goal < d.ladder then ascend (if rising then min goal (d.pwr.target.getD goal) else goal) d
  else if rising then d
  else d.updPwr (fun w => { w with target := none })

end Sys2Proof.Machine
end

