-- ==== Sys2Proof/Machine/Ring.lean ====
section
/-! DEFINITION. Lockstitch (12_lockstitch_schedule.md, 13_lockstitch_startup_healing.md): ports, the receiver's checks, cold start, sync
frames, integration and the guardian. -/

namespace Sys2Proof.Machine

/-! ### Ports, nodes, slots -/

/-- Port `n`, and its section of the Pattern. -/
def Dev.port (d : Dev) (n : Nat) : PortSt := d.ring.ports.get n
def Dev.portSec (d : Dev) (n : Nat) : PortSec := (Sparse.find d.pat.ring n).getD {}

/-- Passes port `n` through `f`. -/
def Dev.updPort (d : Dev) (n : Nat) (f : PortSt → PortSt) : Dev :=
  { d with ring := { d.ring with ports := d.ring.ports.upd n f } }

/-- A node of a port, and its section. -/
def Dev.node (d : Dev) (n x : Nat) : NodeSt := (d.port n).nodes.get x
def Dev.nodeSec (d : Dev) (n x : Nat) : NodeSec := (Sparse.find (d.portSec n).nodes x).getD {}

/-- Addresses of a port's node list with its LATE entries. -/
def Dev.nodesOf (d : Dev) (n : Nat) : List Nat := (d.portSec n).nodes.map (·.1)

/-- Passes a node through `f`. -/
def Dev.updNode (d : Dev) (n x : Nat) (f : NodeSt → NodeSt) : Dev :=
  d.updPort n (fun s => { s with nodes := s.nodes.upd x f })

/-- Passes a slot through `f`. -/
def Dev.updSlot (d : Dev) (n s : Nat) (f : SlotSt → SlotSt) : Dev :=
  d.updPort n (fun x => { x with slots := x.slots.upd s f })

/-- The ports that the Pattern uses. -/
def Dev.usedPorts (d : Dev) : List Nat := d.pat.ring.map (·.1)

/-- Port states of LSn_STATE (R365). -/
def lsOff : Nat := 0
def lsListen : Nat := 1
def lsTack : Nat := 2
def lsInteg : Nat := 3
def lsBasting : Nat := 4
def lsSewn : Nat := 5

/-- State of a port. -/
def Dev.lsState (d : Dev) (n : Nat) : Nat := d.rd .LS_STATE n

/-- A counter of a port, held at 65,535. -/
def lsCount (f : Fld) (n : Nat) (d : Dev) : Dev := d.incSat f n

/-- A code of port `n`, at most once per cycle (R363). -/
def raiseRing (n : Nat) (c : Code) (payload : List Int) (d : Dev) : Dev :=
  if d.cyc.running && (d.port n).codes.contains c.num then d
  else raise (c.shift (12 * n)) wRing payload (d.updPort n (fun s => { s with codes := c.num :: s.codes }))

/-- The same with a payload of more than 12 bytes: a continuation record of KIND 3 with the same T and CODE follows (R413). -/
def raiseRingLong (n : Nat) (c : Code) (payload more : List Int) (d : Dev) : Dev :=
  if d.cyc.running && (d.port n).codes.contains c.num then d
  else recordAt d.stamp.1 d.stamp.2 c.num 3 wRing more (raiseRing n c payload d)

/-- The stage that the ports give from stage RING on (R365). Arrival in SEWN asks for a calibration of the trigger bus (R412). -/
def ringStage (d : Dev) : Dev :=
  let st := d.usedPorts.map d.lsState
  if d.rd .SYS_STATE_STAGE < 6 || 8 < d.rd .SYS_STATE_STAGE || st.isEmpty then d
  else if st.any (fun s => s ≤ lsTack) then setStage 6 d
  else if st.any (fun s => s < lsSewn) then setStage 7 d
  else setStage 8 (if d.rd .SYS_STATE_STAGE = 8 then d else { d with cap := { d.cap with calFirst := false } })

/-- A change of LSn_STATE raises source 22 + 12 × p as an event (R391). -/
def setLs (n s : Nat) (d : Dev) : Dev :=
  if d.lsState n = s then d else ringStage (icuBoth (22 + 12 * n) (d.wr .LS_STATE s n))

/-- Shows the node that LSn_NSEL selects, and the admission summary. -/
def showNodes (n : Nat) (d : Dev) : Dev :=
  let x := d.rd .LS_NSEL_ADDR n
  let listed := (d.nodesOf n).contains x
  let st := d.node n x
  let sec := d.nodeSec n x
  let ns (i : Int) : Nat := fitU 16 (rdiv i 16)
  let num (q : NodeSt → Bool) : Nat := ((d.nodesOf n).filter (fun y => q (d.node n y))).length
  let d1 := (((((d.wr .LS_NINFO_STATE (if listed then st.state else 0) n).wr .LS_NINFO_LATE (b2n (listed && st.late)) n).wr
    .LS_NINFO_LSVER ((st.id.map (·.lsVer)).getD 0) n).wr .LS_NINFO_SFVER ((st.id.map (·.sfVer)).getD 0) n).wr
    .LS_NINFO_REASON st.reason n).wr .LS_NDELAY_D_IN (if listed && st.measured then ns (16 * sec.dP + st.measIn) else 0) n
  ((d1.wr .LS_NDELAY_D_S (if listed && st.measured then ns (16 * sec.dS + st.measOut) else 0) n).wr .LS_NODES_ADMITTED
    (num (fun s => s.state == 3)) n).wr .LS_NODES_ABSENT (num (fun s => s.state == 1 || s.state == 4)) n

/-- A write of LSn_NSEL. -/
def nselWrite (n a : Nat) (d : Dev) : Dev := showNodes n (d.wr .LS_NSEL_ADDR a n)

/-- G of a port in units of 0.2 ns. -/
def Dev.guard5 (d : Dev) (n : Nat) : Int := 5 * d.rd .LS_SCHED_GUARD n

/-! ### Slots (R347, R352) -/

/-- The phase of a slot in the running cycle, and its owner there. -/
def Dev.slotOwner (d : Dev) (n s : Nat) : Option Nat :=
  match Sparse.find (d.portSec n).slots s with
  | none => none
  | some x => x.owners.getD (d.rd .SYS_CYCNT % 2 ^ x.mux) none

/-- The LATE nodes whose entry names a spare phase of a slot (R380). -/
def Dev.lateOf (d : Dev) (n s ph : Nat) : List Nat :=
  ((d.portSec n).nodes.filter (fun e => e.2.late == some (s, ph))).map (·.1)

/-- The phase of a slot in cycle `cnt`. -/
def Dev.slotPhase (d : Dev) (n s cnt : Nat) : Nat := cnt % 2 ^ ((Sparse.find (d.portSec n).slots s).elim 0 (·.mux))

/-- The LATE node that holds the spare phase of a slot in this cycle (R381). -/
def Dev.slotLate (d : Dev) (n s : Nat) : Option Nat :=
  (d.lateOf n s (d.slotPhase n s (d.rd .SYS_CYCNT))).find? (fun x => (d.node n x).holds)

/-- Who may send in a slot in this cycle. -/
def Dev.slotSender (d : Dev) (n s : Nat) : Option Nat := (d.slotOwner n s).or (d.slotLate n s)

/-- The node that is due in a slot in this cycle (R352): its owner, or the LATE node that holds the phase (R381). -/
def Dev.slotDue (d : Dev) (n s : Nat) : Option Nat :=
  (d.slotOwner n s).or ((d.slotLate n s).filter (fun x => (d.node n x).state == 3))

/-- The identity slot of a node: the lowest-numbered slot in which it owns a phase, with the first phase that it owns there; of a LATE node its
spare phase (R371, R380). -/
def Dev.identSlot (d : Dev) (n x : Nat) : Option (Nat × Nat) :=
  match (d.portSec n).slots.find? (fun e => e.2.owners.contains (some x)) with
  | some e => some (e.1, e.2.owners.idxOf (some x))
  | none => (d.nodeSec n x).late

/-- The slots of a port in which node `x` is due in this cycle: in basting its identity slot alone (R370). -/
def Dev.dueSlots (d : Dev) (n x : Nat) : List Nat :=
  (((d.portSec n).slots.map (·.1)).filter (fun s => d.slotDue n s == some x)).filter (fun s =>
    d.lsState n == lsSewn || (d.identSlot n x).any (fun e => e.1 == s && d.slotPhase n s (d.rd .SYS_CYCNT) == e.2))

/-! ### Lanes, and what a receiver checks (R334, R339, R340, R383) -/

/-- The lane of a path. -/
def onPath {α : Type} (q : Path) (p s : α) : α := match q with | .P => p | .S => s

/-- The controller repeats a path: it repeats, and does not feed that path with idle pairs (R334, R364, R383). -/
def Dev.repeats (d : Dev) (n : Nat) (q : Path) : Bool :=
  let s := d.port n
  s.repeating && !onPath q s.feedP s.feedS

/-- How the frame that the controller repeats on a path ends (R340). -/
def relay (n : Nat) (q : Path) (fin : FrameEnd) (d : Dev) : Dev :=
  if d.repeats n q then
    d.updPort n (fun s => match q with | .P => { s with relayP := some fin } | .S => { s with relayS := some fin })
  else d

/-- The system node ID of a node, and that of its owner (R19): the index of this controller for its own nodes, else the one that the node
list gives. -/
def Dev.ctlOf (d : Dev) (n x : Nat) : Nat :=
  if (d.nodeSec n x).owner = (d.portSec n).self || x = (d.portSec n).self then d.rd .CAP_TBUS_CTL_INDEX else (d.nodeSec n x).ctl
def Dev.sysId (d : Dev) (n x : Nat) : Nat := d.ctlOf n x * 2048 + n * 512 + x
def Dev.ownerId (d : Dev) (n x : Nat) : Nat := d.ctlOf n x * 2048 + n * 512 + (d.nodeSec n x).owner

/-- VER of the frames that the controller sends: its scheduled version (R377). -/
def Dev.ownVer (d : Dev) (n : Nat) : Nat :=
  match Sparse.find (d.portSec n).nodes (d.portSec n).self with
  | some x => x.lsVer
  | none => (d.portSec n).ver

/-! ### Cold start (R364 to R368) -/

/-- A receive lane gains symbol lock: the node repeats from then on (R364). -/
def symbolLock (n : Nat) (q : Path) (d : Dev) : Dev :=
  d.updPort n (fun s => { s with
    lockP := s.lockP || q == .P, lockS := s.lockS || q == .S, repeating := d.rd .LS_STATE_ROLE n != 1 })

/-- The port enters LISTEN (R366). It leads no longer and repeats with a lane that has lock (R364). -/
def enterListen (n : Nat) (d : Dev) : Dev :=
  let d1 := d.updPort n (fun s => { s with
    tackP := false, tackS := false, openWait := false, lastP := none, lastS := none, sewnIn := none, hush := none, run := 0
    outP := none, outS := none, missP := 0, missS := 0, repeating := s.repeating || s.lockP || s.lockS })
  setLs n lsListen ((d1.wr .LS_STATE_ROLE 0 n).wr .LS_STATE_WRAPPED 0 n)

/-- A frame passes a receiver of the port (R339, R340): an aborted one counts in ABORT; one that R339 refuses counts in FRAME_ERR and raises it
with `who`, and in TACK one whose HCRC or FCS fails is a collision (R368). A repeated frame with a wrong check value leaves with END_ABORT. -/
def frameSeen (n : Nat) (q : Path) (who : Nat) (h : RxHead) (crc form : Bool) (d : Dev) : Dev :=
  if d.lsState n = lsOff then d
  else if h.fin = .aborted then relay n q .aborted (lsCount .LS_ERR_ABORT n d)
  else if crc || form then
    let d1 := raiseRing n .FRAME_ERR [who] (lsCount .LS_ERR_FRAME_ERR n (relay n q (if crc then .aborted else .good) d))
    if crc && d.lsState n = lsTack && !(d.port n).openWait then enterListen n d1 else d1
  else relay n q .good d

/-- The receiver accepts what `frameSeen` has seen. -/
def Dev.frameOk (d : Dev) (n : Nat) (h : RxHead) (crc form : Bool) : Bool := d.lsState n != lsOff && h.fin == .good && !crc && !form

/-- The tack frame of the port (R358). -/
def Dev.tackTx (d : Dev) (n : Nat) : TxFrame :=
  let s := d.portSec n
  let x := d.nodeSec n s.self
  { type := tyTack, ver := d.ownVer n, flags := 0, src := s.self, win := winNone, cyc := 0
    pay := tackBytes s.rank s.ver 0 (d.rd .LS_DIGEST_SCHED n) (nodeIdent x.type x.cls s.self) }

/-- The port sends its own tack (R367, R368). -/
def sendTack (n : Nat) (d : Dev) : Dev :=
  setLs n lsTack (d.updPort n (fun s => { s with tackP := false, tackS := false, tackOut := some (d.tackTx n) }))

/-- Silence until T_LISTEN ends (R367). -/
def listenExpiry (n : Nat) (d : Dev) : Dev :=
  if d.lsState n = lsListen && !(d.port n).silent then sendTack n d else d

/-- What an accepted tack does: the port's own one back on a lane after `dly` ns, its measured D_loop (R336, R368), or another node's, by rank;
in LISTEN one of another schedule is ignored, and a silent port sends nothing (R367, R368). -/
def takeTack (n rank sched src : Nat) (own : Option Path) (dly : Nat) (d : Dev) : Dev :=
  let st := d.lsState n
  let waits := decide (st = lsTack) && !(d.port n).openWait
  let mine := (d.portSec n).rank
  match own with
  | some q =>
    if !waits then d
    else (d.wr (onPath q .LS_DLOOP_P .LS_DLOOP_S) (fitU 16 dly) n).updPort n (fun s => { s with
      tackP := s.tackP || q == .P, tackS := s.tackS || q == .S
      loopP := if q = .P then dly else s.loopP, loopS := if q = .S then dly else s.loopS })
  | none =>
    if waits then (if rank < mine then setLs n lsInteg d else d)
    else if st ≠ lsListen || sched ≠ d.rd .LS_DIGEST_SCHED n then d
    else if rank < mine then setLs n lsInteg d
    else if rank = mine then raiseRing n .RANK_CONFLICT [src] (d.updPort n (fun s => { s with silent := true }))
    else if (d.port n).silent then d
    else sendTack n d

/-- A tack frame of another node with rank `rank`, or the port's own one back on lane `own` (R339, R358, R367, R368). -/
def tackFrame (n rank sched : Nat) (own : Option Path) (r : TackRx) (dly : Nat) (d : Dev) : Dev :=
  let pay := tackBytes rank r.lsVer r.res sched r.ident
  let crc := r.head.crcBad r.src pay
  let form := r.head.formBad tyTack 16 16 (r.res != 0) pay
  let d1 := frameSeen n r.path r.src r.head crc form d
  if d.frameOk n r.head crc form then takeTack n rank sched r.src own dly d1 else d1

/-- The cell cycle starts with a first sync frame that announces its boundary SYNC_LEAD ahead; the counters restart there
(R34, R72, R341). In IDLE the cycle that it opens has the length of IDLE (R497, R502). -/
def startCycles (lead : Nat) (d : Dev) : Dev :=
  let t := d.base 0 + lead * nsUnit
  let idle := decide (2 ≤ d.rd .SYS_LADDER_STATE)
  if d.cyc.running then { d with cyc := { d.cyc with restart := true } }
  else
    { d with
        cyc := { d.cyc with
        running := true, started := false, openAt := d.base 0, closeAt := t, nextAt := some (t + (if idle then d.tIdle else d.tCell)), restart := true
        left := [], rackDone := true, rackOk := true, announced := none, idleLen := idle } }

/-- TB0's first lock on the ring leader (R310): TB3 at that instant; with FOLLOW the followed base plus OFS once that base has
a value. -/
def leaderLock (d : Dev) : Dev :=
  if d.baseState 0 ≠ 0 then d
  else
    let ref := d.rd .TB_CTL_REF 0
    if d.src 0 = srcFollow && d.baseState ref ≠ 0 then
      firstLock 0 ((d.base ref : Int) + signed 32 (d.rd .TB_OFS 0) * nsUnit).toNat d
    else firstLock 0 (d.base 3) d

/-- The port leads (R368): it stops repeating, sends its first sync frame with MODE basting, and TB0 takes its first lock. A mute of its guardian,
which no sync frame of another node can lift any more, ends (DEDUCED, log entry 200). -/
def leadPort (n : Nat) (d : Dev) : Dev :=
  let long := decide (8 * (d.portSec n).dLoop + d.rd .LS_SCHED_GUARD n < 8 * max (d.port n).loopP (d.port n).loopS)
  let d0 := if long then raiseRing n .DELAY_EXCEEDED [(d.portSec n).self] d else d
  let d1 := d0.updPort n (fun s => { s with
    repeating := false, silent := false, firstSync := d.time.tr, sewnIn := none, hush := none, overDelay := long
    leader := (d.portSec n).self, muted := false, goodSync := 0, lift := false })
  let d2 := forL (d.nodesOf n) (fun x d => d.updNode n x (fun _ => {})) d1
  let d3 := ((d2.wr .LS_STATE_ROLE 1 n).wr .LS_STATE_LRANK (d.portSec n).rank n).wr .LS_STATE_VER (d.portSec n).ver n
  showNodes n (startCycles (d.rd .LS_SLEAD_SYNC_LEAD n) (leaderLock (setLs n lsBasting d3)))

/-- T_TACK ends (R368): the port leads when its tack came back on both lanes; else the ring is open. -/
def tackExpiry (n : Nat) (d : Dev) : Dev :=
  let s := d.port n
  if d.lsState n ≠ lsTack || s.openWait then d
  else if s.tackP && s.tackS then leadPort n d
  else raiseRing n .RING_OPEN [(d.portSec n).self] ((d.wr .LS_STATE_OPEN 1 n).updPort n (fun s => { s with openWait := true }))

/-- 100 ms after RING_OPEN (R368). -/
def openRelisten (n : Nat) (d : Dev) : Dev := if d.lsState n = lsTack && (d.port n).openWait then enterListen n d else d

/-- The axes that a port serves are in STO. -/
def portSto (n : Nat) (d : Dev) : Bool :=
  (d.nodesOf n).all (fun x => (d.nodeSec n x).axes.all (fun a => d.rdP d.active .LPE_AX_STAT_STO a == 1))

/-- RESTART of LSn_START (R72): cold start, unless an axis of the port is outside STO. -/
def lsRestart (n : Nat) (d : Dev) : Dev :=
  if d.lsState n = lsOff || !portSto n d then d
  else
    let d1 := enterListen n (d.updPort n (fun s => { s with silent := false }))
    let live := d1.usedPorts.any (fun q => decide (lsInteg ≤ d1.lsState q))
    if live then d1 else { d1 with cyc := { d1.cyc with running := false } }

/-- CLR_HEAL (R389). -/
def clrHeal (n : Nat) (d : Dev) : Dev :=
  ((((d.wr .LS_CLAIM_GRANTED 0 n).wr .LS_CLAIM_COLL 0 n).wr .LS_HEAL_WRAP_CNT 0 n).wr .LS_HEAL_PART_CNT 0 n).wr
    .LS_STATE_PART 0 n

/-- CLR_CNT of LSn_CMD: every counter of the port, those of claims and healing and the slot counters too. -/
def lsClrCnt (n : Nat) (d : Dev) : Dev :=
  let d1 := (((d.wr .LS_ERR_FRAME_ERR 0 n).wr .LS_ERR_ABORT 0 n).wr .LS_ERR2_COPY_DIFF 0 n).wr .LS_ERR2_MUTE 0 n
  let d2 := (((d1.wr .LS_CLAIM_GRANTED 0 n).wr .LS_CLAIM_COLL 0 n).wr .LS_HEAL_WRAP_CNT 0 n).wr .LS_HEAL_PART_CNT 0 n
  forL ((d.portSec n).slots.map (·.1)) (fun s d =>
    ((d.wrAt .LS_SLOT_CNT_EMPTY_CNT .A n s 0).wrAt .LS_SLOT_CNT_BV_CNT .A n s 0).wrAt .LS_SLOT_INFO_ERR_CNT .A n s 0) d2

/-- What a port keeps while the Pattern does not use it: its lanes, and that it repeats with one that has lock (R364). -/
def PortSt.lanes (s : PortSt) : PortSt :=
  { lockP := s.lockP, lockS := s.lockS, feedP := s.feedP, feedS := s.feedS, repeating := s.repeating || s.lockP || s.lockS }

/-- A port goes to OFF, which raises its source (R365, R391). -/
def portOff (n : Nat) (d : Dev) : Dev :=
  let d1 := d.wr .LS_STATE_ROLE 0 n
  if d.lsState n = lsOff then d1 else icuBoth (22 + 12 * n) (d1.wr .LS_STATE lsOff n)

/-! ### Sync frames (R341 to R343, R351, R359, R369, R384, R385, R390) -/

/-- The sync frame of the boundary that closes the running cycle (R341): the length of the cycle it opens, the modes of that cycle
and of the next, and the value that a pending step of TB0 gives. -/
def syncPayload (n : Nat) (d : Dev) : SyncFrame :=
  let c := d.cyc
  let sewn (k : Nat) : Nat := b2n (d.lsState n == lsSewn || (d.port n).sewnIn.any (fun i => decide (i ≤ k)))
  { tBnd := c.closeAt, cycnt := if c.restart then 0 else (d.rd .SYS_CYCNT + 1) % 2 ^ 32
    len := c.nextAt.getD (c.closeAt + d.tCell) - c.closeAt, mode := sewn 1, next := sewn 2, rank := (d.portSec n).rank
    sched := d.rd .LS_DIGEST_SCHED n, src := (d.portSec n).self
    step := (d.bs 0).pendStep.map (fun a => match a with
      | .abs t => t
      | .off i => ((c.closeAt : Int) + i).toNat)
    err := 0 }

/-- The sync frame of the leader as it leaves on P; the copy on S has PATH at 1 (R338, R341). -/
def Dev.syncTx (d : Dev) (n : Nat) : TxFrame :=
  { type := tySync, ver := d.ownVer n, flags := 0, src := (d.portSec n).self, win := winNone, cyc := d.rd .SYS_CYCNT % 65536
    pay := (syncPayload n d).bytes }

/-- The leader sends the sync frame of the next boundary: a step of TB0 that it announces will be applied there (R341, R343). -/
def syncSend (n : Nat) (d : Dev) : Dev :=
  if d.rd .LS_STATE_ROLE n ≠ 1 then d
  else
    let d0 := d.updPort n (fun s => { s with syncOut := some (d.syncTx n) })
    let d1 := if (d.bs 0).pendStep.isSome then d0.updBase 0 (fun x => { x with stepSent := true }) else d0
    { d1 with cyc := { d1.cyc with announced := some (d.rd .SYS_CYCNT + 1) } }

/-- A step that arrives after the announcement waits for the next sync frame (R343). -/
def Dev.announcedNext (d : Dev) : Bool := d.cyc.announced.isSome

/-- Two sync frames on one path are consistent (R369). -/
def consistent (a b : SyncFrame) (g : Int) : Bool :=
  b.cycnt == (a.cycnt + 1) % 2 ^ 32 && b.tBnd == a.tBnd + a.len && decide (8 * absI (b.err - a.err) ≤ g)

/-- How much later than predicted a sync frame arrived on a path at a node, in 2^-16 ns: against the declared delay with the corrections
that the node has taken, and on S with the D_S(L→x) that it measured (R342, R373, R385). -/
def NodeSt.lag (x : NodeSt) (q : Path) (err : Int) : Int := rdiv (err * 65536) 5 - 4096 * onPath q x.adjIn x.adjS

/-- A node notes the arrival of a sync copy; while basting it measures D_S(L→x) from the difference of the two copies (R373). -/
def NodeSt.sync (x : NodeSt) (q : Path) (err : Int) (basting : Bool) : NodeSt :=
  let y := { x with
    syncP := if q = Path.P then some err else x.syncP, syncS := if q = Path.S then some err else x.syncS
    missP := if q = Path.P then 0 else x.missP, missS := if q = Path.S then 0 else x.missS }
  match y.syncP, y.syncS with
  | some a, some b => if basting then { y with adjS := y.adjIn + rdiv ((b - a) * 16) 5 } else y
  | _, _ => y

/-- The guardian of the port judges a sync frame that arrived `lag` later than predicted (R351): either copy mutes; the frames in a row count
by the copy that sets the boundary (`used`; log entry 169). -/
def guardian (n : Nat) (used : Bool) (lag : Int) (d : Dev) : Dev :=
  let g : Int := d.rd .LS_SCHED_GUARD n * nsUnit
  if g < 4 * absI lag then
    let d1 := d.updPort n (fun s => { s with muted := true, goodSync := 0, lift := false })
    if (d.port n).muted then d1 else raiseRing n .GUARD_MUTE [(d.portSec n).self] (lsCount .LS_ERR2_MUTE n d1)
  else if !used then d
  else if 8 * absI lag ≤ g then
    d.updPort n (fun s => { s with goodSync := s.goodSync + 1, lift := s.muted && decide (1 ≤ s.goodSync) })
  else d.updPort n (fun s => { s with goodSync := 0, lift := false })

/-- A following controller sets its boundary, at `at'` on its own TB0, and takes the announcements of a sync frame; TB0's servo draws TB0 to
T_BND (R305, R342, R343). A sync frame on time ends the holdover that its absence began (R319). -/
def followSync (n : Nat) (at' : T96) (f : SyncFrame) (d0 : Dev) : Dev :=
  let d := if d0.src 0 = srcRing && d0.baseState 0 = 2 then trigGone 0 d0 else d0
  let fr := d.takeFree
  let d1 := if d.src 0 = srcRing then servoRate (Config.ringServo fr.1) fr.2 else d
  let d2 := match f.step with
    | some t => d1.updBase 0 (fun x => { x with pendStep := some (.abs t), stepSent := true })
    | none => d1
  let d3 : Dev := { d2 with
    cyc := { d2.cyc with
    running := true, started := d2.cyc.running && d2.cyc.started, closeAt := at', nextAt := some (at' + f.len)
    announced := some f.cycnt } }
  (d3.updPort n (fun s => { s with
    leader := f.src, sewnIn := if f.mode = 1 then some 1 else if f.next = 1 then some 2 else none })).wr .LS_STATE_LRANK f.rank n

/-- The port integrates with its second consistent sync frame (R369): its boundary lies SYNC_LEAD after the frame left the leader, by the
declared delay of the path (R342), and an INVALID TB0 takes the leader's time (R310). It transmits from the second boundary on. -/
def integrate (n : Nat) (q : Path) (f : SyncFrame) (d : Dev) : Dev :=
  let me := d.nodeSec n (d.portSec n).self
  let lead := d.rd .LS_SLEAD_SYNC_LEAD n * nsUnit
  let dly := onPath q me.dP me.dS * nsUnit
  let d1 := ((d.wr .LS_STATE_ROLE 2 n).wr .LS_STATE_VER (d.portSec n).ver n).updPort n (fun s => { s with
    lastP := none, lastS := none, missP := 0, missS := 0, muted := false, silent := false, hush := some 2 })
  let d2 := if d.baseState 0 = 0 then firstLock 0 (f.tBnd - lead + dly) d1 else d1
  followSync n (d2.base 0 + lead - dly) f (setLs n lsBasting { d2 with cyc := { d2.cyc with
    openAt := d2.base 0, restart := true, idleLen := decide (2 ≤ d2.rd .SYS_LADDER_STATE) } })

/-- An integrated port accepts a sync frame (R342, R351, R385): the P copy sets the boundary, or the S copy where P copies are missing. The
guardian acts from the boundary on from which the port transmits (R369). -/
def ownFollow (n : Nat) (q : Path) (f : SyncFrame) (d : Dev) : Dev :=
  let self := (d.portSec n).self
  let lag := (d.node n self).lag q f.err
  let used := q == .P || decide (1 ≤ (d.port n).missP)
  let d1 := d.updPort n (fun s => { s with
    mismatch := false, missP := if q = .P then 0 else s.missP, missS := if q = .S then 0 else s.missS })
  let d2 := d1.updNode n self (fun x => x.sync q f.err (d.lsState n == lsBasting))
  let d3 := if (d.port n).hush.isNone then guardian n used lag d2 else d2
  if used then followSync n ((d.cyc.closeAt : Int) + lag).toNat f d3 else d3

/-- A sync frame is accepted on a path by this controller (R342, R359, R367, R369). -/
def ownSync (n : Nat) (q : Path) (f : SyncFrame) (d : Dev) : Dev :=
  if d.lsState n = lsOff || d.rd .LS_STATE_ROLE n = 1 then d
  else if f.sched ≠ d.rd .LS_DIGEST_SCHED n then
    raiseRing n .SCHED_MISMATCH [f.src] (d.updPort n (fun s => { s with mismatch := true }))
  else
    let st := d.lsState n
    let keep (s : PortSt) : PortSt := match q with | .P => { s with lastP := some f } | .S => { s with lastS := some f }
    let d1 := d.updPort n (fun s => { s with
      mismatch := false, missP := if q = .P then 0 else s.missP, missS := if q = .S then 0 else s.missS })
    if st ≤ lsTack then setLs n lsInteg (d1.updPort n (fun s => keep { s with silent := false, openWait := false, lastP := none, lastS := none }))
    else if st = lsInteg then
      if (onPath q (d.port n).lastP (d.port n).lastS).any (fun a => consistent a f (d.guard5 n)) then integrate n q f d1
      else d1.updPort n keep
    else ownFollow n q f d

/-- A node of the ring accepts a sync frame of its schedule: it integrates with the second consistent one, and may claim again from then on
(R369, R382). -/
def nodeSync (n x : Nat) (q : Path) (f : SyncFrame) (d : Dev) : Dev :=
  if f.sched ≠ d.rd .LS_DIGEST_SCHED n then d
  else d.updNode n x (fun s =>
    let y := s.sync q f.err (d.lsState n == lsBasting)
    if s.integ then y
    else if (onPath q s.lastP s.lastS).any (fun a => consistent a f (d.guard5 n)) then
      { y with integ := true, lastP := none, lastS := none, claimTry := 0, claimWait := 0, claimRun := 0, claimMute := false }
    else match q with | .P => { y with lastP := some f } | .S => { y with lastS := some f })

/-- A sync frame reaches node `x` of a port, or this controller where `x` is its own address; a refused one has no effect on a node (R339,
R377). -/
def syncFrame (n x : Nat) (q : Path) (r : SyncRx) (d : Dev) : Dev :=
  let own := decide (x = (d.portSec n).self)
  let crc := r.head.crcBad r.src r.pay
  let form := r.head.formBad tySync 44 44 r.res r.pay
  let d1 := if own then frameSeen n q r.src r.head crc form d else d
  if r.head.fin = .aborted || crc || form then d1
  else if own then ownSync n q r.frame d1
  else nodeSync n x q r.frame d1

/-- Two missing sync frames on both paths: the leader is lost, TB0 holds over, every node loses its integration, and the cold start runs
again (R385, R390). -/
def leaderLost (n : Nat) (d : Dev) : Dev :=
  let d1 := raiseRing n .LEADER_LOST [(d.port n).leader] (setLs n lsInteg d)
  let d2 := if d1.src 0 = srcRing then trigHold 0 d1 else d1
  enterListen n (forL (d.nodesOf n) (fun x d => d.updNode n x (fun _ => {})) d2)

/-- The controller treats a path as broken: it feeds its transmitter with idle pairs, and a follower takes the port as wrapped (R335, R383,
R384; DESIGN CHOICE, log entry 64). -/
def breakPath (n : Nat) (q : Path) (d : Dev) : Dev :=
  if d.rd .LS_STATE_ROLE n = 1 then d
  else
    let d1 := d.updPort n (fun s => { s with feedP := s.feedP || q == .P, feedS := s.feedS || q == .S })
    if d.rd .LS_STATE_ROLE n = 2 then d1.wr .LS_STATE_WRAPPED 1 n else d1

/-- A node treats a path as broken (R383, R384). -/
def nodeFeeds (q : Path) (s : NodeSt) : NodeSt := { s with feedP := s.feedP || q == .P, feedS := s.feedS || q == .S }

/-- A node with a missing sync frame more: two on one path break it, two on both lose the integration, and with it every permission (R356,
R384, R385). -/
def NodeSt.missed (s : NodeSt) (q : Path) : NodeSt :=
  let p := if q = .P then s.missP + 1 else s.missP
  let r := if q = .S then s.missS + 1 else s.missS
  let y := { s with missP := p, missS := r, lastP := if q = .P then none else s.lastP, lastS := if q = .S then none else s.lastS }
  if decide (2 ≤ p) && decide (2 ≤ r) then
    { y with
      integ := false, id := none, idRun := 0, permA := { s.permA with map := [] }, permB := { s.permB with map := [] } }
  else if (decide (2 ≤ p) && r == 0) || (decide (2 ≤ r) && p == 0) then nodeFeeds q y
  else y

/-- A sync frame that a path did not bring (R318, R351, R384, R385). -/
def syncMissed (n x : Nat) (q : Path) (d : Dev) : Dev :=
  if x ≠ (d.portSec n).self then d.updNode n x (fun s => s.missed q)
  else if d.rd .LS_STATE_ROLE n ≠ 2 || d.lsState n < lsBasting then d
  else
    let p := if q = .P then (d.port n).missP + 1 else (d.port n).missP
    let r := if q = .S then (d.port n).missS + 1 else (d.port n).missS
    let d1 := d.updPort n (fun s => { s with
      missP := p, missS := r, goodSync := if 1 ≤ p && 1 ≤ r then 0 else s.goodSync, lift := s.lift && !(1 ≤ p && 1 ≤ r) })
    if 2 ≤ p && 2 ≤ r then leaderLost n d1
    else if (decide (2 ≤ p) && r == 0) || (decide (2 ≤ r) && p == 0) then breakPath n q d1
    else d1

end Sys2Proof.Machine
end

