-- ==== Sys2Proof/Machine/RingData.lean ====
section
/-! DEFINITION. Lockstitch traffic (12_lockstitch_schedule.md, 13_lockstitch_startup_healing.md): cycle frames, permission, identity and
admission, slot frames, claims, breaks and the wrap, and the port's part of phases and boundaries. -/

namespace Sys2Proof.Machine

/-! ### Cycle frames (R335, R344 to R346, R355, R360, R373) -/

/-- The torque that a safety channel permits for every unit that a node serves, once it is admitted; a lost channel's permission
follows the other one while the hand-over path is engaged (R221, R225, R355, R375). -/
def Dev.permits (d : Dev) (c : Chan) (n x : Nat) : Bool :=
  let sec := d.nodeSec n x
  let e := if (d.ch c).ok then c else if c = .a then .b else .a
  (d.node n x).state == 3 && d.rd .PAT_STATUS_TOILE == 0 && !d.red.linkLost && !d.saf.handoverOpen &&
  (d.ch e).ok && sec.units.all (fun u => !((d.ch e).units.get u).sto)

/-- The permission sub-frames of a cycle, at the φ3 latch (R38, R354, R355): one SEQ for both versions of a channel's frame (DEDUCED, log
entry 63). -/
def latchPermits (n : Nat) (d : Dev) : Dev :=
  let mine := (d.nodesOf n).filter (fun x => (d.nodeSec n x).owner == (d.portSec n).self)
  d.updPort n (fun s => { s with
    permsA := mine.filter (d.permits .a n), permsB := mine.filter (d.permits .b n)
    permSeq := (s.permSeq + 1) % 2 ^ 32, permT := d.base 0 })

/-- The frame versions of safety that nodes of a port run. -/
def Dev.safVers (d : Dev) (n : Nat) : List Nat := [2, 1].filter (fun v => (d.portSec n).nodes.any (fun e => e.2.sfVer == v))

/-- The safety area: a permission sub-frame of each channel for each version on the port (R354, R355). -/
def Dev.safArea (d : Dev) (n : Nat) : List Nat :=
  let s := d.port n
  let id := d.sysId n (d.portSec n).self
  (d.safVers n).flatMap (fun v => permSub false v s.permSeq s.permT id s.permsA ++ permSub true v s.permSeq s.permT id s.permsB)

/-- An axis is a stepper's. -/
def Dev.isStepper (d : Dev) (a : Nat) : Bool := (Sparse.find d.pat.aux a).any (·.stepper)

/-- The command record of an axis (R344): of a drive V, T and CTRL; of a stepper index, change, coils, CTRL and table. While no plane is
selected it carries STO, ENABLE 0, and free data (R295; DESIGN CHOICE, log entry 198). -/
def axisRecord (d : Dev) (k a : Nat) : List Int :=
  let p := d.active
  let x := d.lax p a
  let rep := d.rdP p .LPE_AX_STAT_REPEAT a
  let en := 1 - d.rdP p .LPE_AX_STAT_STO a
  if d.red.linkLost then
    let f (i : Nat) : Int := Config.noPlane k a i
    let ctrl (i : Nat) : Int := f i % 2 + 4 * (f i / 2 % 2)
    if d.isStepper a then [unsigned 32 (f 0), f 1, f 2, f 3, ctrl 4, f 5 % 4] else [f 0, f 1, ctrl 2]
  else if d.isStepper a then
    let m := (d.pl p).ppe.aux.get a
    [d.rdP p .PPE_AX_MSIDX_IDX (a - 64), m.idxStep, m.coilA, m.coilB, rep + 2 * en + 4 * b2n m.restore, d.rdP p .PPE_AX_CFG_TABLE (a - 64)]
  else [x.vCmd, x.tCmd, rep + 2 * en + 4 * b2n (Config.faultAck k a)]

/-- The nodes of this controller on a port. -/
def Dev.ownNodes (d : Dev) (n : Nat) : List Nat := (d.nodesOf n).filter (fun x => (d.nodeSec n x).owner == (d.portSec n).self)

/-- The bytes of the records of a node's axes. -/
def Dev.nodeBytes (d : Dev) (k n x : Nat) : List Nat :=
  (d.nodeSec n x).axes.flatMap (fun a => recordBytes (d.isStepper a) (axisRecord d k a))

/-- The command area: each owned node's record at the offset of the node list (R344). -/
def Dev.commandArea (d : Dev) (k n : Nat) : List Nat :=
  (d.ownNodes n).foldl (fun acc x => putAt acc (d.nodeSec n x).cmdOfs (d.nodeBytes k n x)) []

/-- The word area: words that cores of the selected plane placed, and set-points of the selected plane for other controllers (R180, R344). A
word that no core of a selected plane placed is free (DESIGN CHOICE, log entry 198). -/
def Dev.outWords (d : Dev) (k n : Nat) : List Nat :=
  (d.portSec n).words.flatMap (fun w => leBytes 4 (match w with
    | .core idx =>
      match d.cyc.words.find? (fun c => c.port == n && c.idx == idx), d.red.linkLost with
      | some c, false => (match d.active with | .A => c.a | .B => c.b).getD (Config.idleWord k n idx).toNat
      | _, _ => (Config.idleWord k n idx).toNat
    | .value a => if d.red.linkLost then (Config.idleWord k n a).toNat else (Config.ringWord (d.spOf d.active a).pos).toNat
    | .speed a => if d.red.linkLost then (Config.idleWord k n (a + 128)).toNat else unsigned 32 (d.spOf d.active a).vel))

/-- What a node's next correction record holds: what the leader has measured since its last one (R373). -/
def Dev.corrOf (d : Dev) (n x : Nat) : Int × Int :=
  ((d.node n x).measIn - (d.node n x).corrIn, (d.node n x).measOut - (d.node n x).corrOut)

/-- The correction records of a basting cycle frame leave, by ascending address (R373). -/
def sendCorrections (n : Nat) (d : Dev) : Dev :=
  forL (d.nodesOf n) (fun x d => d.updNode n x (fun s => { s with corrIn := s.measIn, corrOut := s.measOut })) d

/-- Cycle `n + 1` is sewn: the frames of this cycle carry command records (R370). -/
def Dev.sewnNext (d : Dev) (n : Nat) : Bool := d.lsState n == lsSewn || (d.port n).sewnIn.any (fun k => decide (k ≤ 1))

/-- A cycle frame of the port on a path. -/
def Dev.cycleTx (d : Dev) (n : Nat) (q : Path) (pay : List Nat) : TxFrame :=
  { type := tyCycle, ver := d.ownVer n, flags := onPath q 0 1, src := (d.portSec n).self, win := (d.portSec n).window
    cyc := d.rd .SYS_CYCNT % 65536, pay := pay }

/-- The cycle frame leaves at the end of φ3 (R335, R344, R370): in full on S too while the port is wrapped, else there with the safety area
alone. While basting only the leader sends one. A muted port sends nothing, nor one before its first window (R369), nor one whose schedule the
latest sync frame contradicts (R351, R359). -/
def sendCycleFrame (n : Nat) (d0 : Dev) : Dev :=
  let k := d0.free
  let d := d0.takeFree.2
  let st := d.lsState n
  if st < lsBasting || (st = lsBasting && d.rd .LS_STATE_ROLE n ≠ 1) || (d.port n).muted || (d.port n).mismatch || (d.port n).hush.isSome then d
  else
    let next := d.sewnNext n
    let cmd := if next then d.commandArea k n else (d.nodesOf n).flatMap (fun x => corrBytes (d.corrOf n x).1 (d.corrOf n x).2)
    let full := cyclePay (d.safArea n) cmd (d.outWords k n)
    let short := if d.rd .LS_STATE_WRAPPED n = 1 then full else cyclePay (d.safArea n) [] []
    let restored := if next then ((d.ownNodes n).flatMap (fun x => (d.nodeSec n x).axes)).filter (fun a => 64 ≤ a && (d.aux d.active a).restore)
      else []
    forL restored (fun a => bothPlanes (fun p d =>
      (d.updAux p a (fun x => { x with restore := false })).wrP p .PPE_AX_STAT_PARKED 0 (a - 64)))
      ((if next then d else sendCorrections n d).updPort n (fun s => { s with
        outP := some (d.cycleTx n .P full), outS := some (d.cycleTx n .S short) }))

/-- The ring words that this controller reads from the word area of controller `src` (R180, R360). -/
def ringWords (n src : Nat) (area : List Nat) (d : Dev) : Dev :=
  forL ((d.portSec n).reads.filter (fun r => r.src == src && decide (4 * max r.value r.speed + 4 ≤ area.length))) (fun r d =>
    let v : Int := if r.loop = 0 then Config.ringValue (BitVec.ofNat 32 (le area (4 * r.value) 4)) else leInt area (4 * r.value) 4
    d.updField (fun f => { f with
      wordIn := f.wordIn.upd (r.axis * 4 + r.loop) (fun y => { y with
        fresh := true, ever := true, pos := v, vel := leInt area (4 * r.speed) 4 }) })) d

/-- A node takes the corrections of its record in the leader's basting frame; they act from the closing boundary on (R373). -/
def takeCorrections (n x : Nat) (area : List Nat) (d : Dev) : Dev :=
  let o := 4 * (d.nodesOf n).idxOf x
  if !(d.nodesOf n).contains x || area.length < o + 4 then d
  else d.updNode n x (fun s => { s with adjNext := some (leInt area o 2, leInt area (o + 2) 2) })

/-- A follower learns from the leader's copy on S whether the port is wrapped: a full one says so (R335; DESIGN CHOICE, log entry 64). -/
def learnWrap (n src : Nat) (q : Path) (pay : List Nat) (d : Dev) : Dev :=
  let s := d.port n
  if d.rd .LS_STATE_ROLE n ≠ 2 || src ≠ s.leader || q = .P then d
  else d.wr .LS_STATE_WRAPPED (b2n (cmdLen pay != 0 || s.feedP || s.feedS)) n

/-- The records of node `x` in a command area. -/
def Dev.recordsIn (d : Dev) (n x : Nat) (area : List Nat) : Option (List Int) :=
  let sec := d.nodeSec n x
  let step (acc : List Int × Nat) (a : Nat) : List Int × Nat :=
    (acc.1 ++ recordOf (d.isStepper a) area acc.2, acc.2 + recordLen (d.isStepper a))
  let r := sec.axes.foldl step ([], sec.cmdOfs)
  if area.length < r.2 || area.isEmpty then none else some r.1

/-- An accepted copy of the cycle frame of `src` acts: in this controller its ring words, corrections and what it says of the wrap; in a node the
command record of its owner, from the first full copy, or the leader's corrections (R345, R360, R373). -/
def takeCycle (n src x : Nat) (q : Path) (pay : List Nat) (d : Dev) : Dev :=
  let corr (d : Dev) : Dev := if !d.sewnNext n && src = (d.port n).leader then takeCorrections n x (cmdArea pay) d else d
  if x = (d.portSec n).self then corr (ringWords n src (wordArea pay) (learnWrap n src q pay d))
  else if !d.sewnNext n then corr d
  else if src ≠ (d.nodeSec n x).owner || (d.node n x).taken.isSome then d
  else match d.recordsIn n x (cmdArea pay) with
    | some r => d.updNode n x (fun s => { s with taken := some r })
    | none => d

/-- A copy of a cycle frame with SRC `src` reaches node `x`, or this controller where `x` is its own address. One that R339 refuses has no
other effect; nor one of an earlier cycle, which comes after its boundary (R31), nor one under this controller's address that it did not
send. -/
def cycleFrame (n src x : Nat) (c : CycleRx) (d : Dev) : Dev :=
  let self := (d.portSec n).self
  let crc := c.head.crcBad src c.pay
  let form := c.head.formBad tyCycle 8 16384 (cycleRes c.pay) c.pay
  let d1 := if x = self then frameSeen n c.path src c.head crc form d else d
  if c.head.fin = .aborted || crc || form || d.lsState n < lsBasting || c.head.cyc ≠ d.rd .SYS_CYCNT % 65536 then d1
  else if src = self && !(onPath c.path (d.port n).outP (d.port n).outS).any (fun f => f.same c.head c.pay) then d1
  else takeCycle n src x c.path c.pay d1

/-- What a node applies at the boundary: the record taken, or its previous command once more; after CF_MAX misses it stops
on its own ramp (R345, R346). It adds the corrections that it took (R373). -/
def nodeBoundary (n x : Nat) (d : Dev) : Dev :=
  let sec := d.nodeSec n x
  d.updNode n x (fun s =>
    let s := match s.adjNext with
      | some c => { s with adjIn := s.adjIn + c.1, adjOut := s.adjOut + c.2, adjNext := none }
      | none => s
    match s.taken with
    | some r => { s with taken := none, applied := r, misses := 0, stopped := false }
    | none =>
      if d.lsState n ≠ lsSewn then s
      else { s with misses := s.misses + 1, stopped := decide (sec.cfMax ≤ s.misses + 1) })

/-- A node accepts a permission sub-frame of a channel (R356): a later sequence by 1 to SF_WD; the other copy of the same one
only takes bits away, and one that differs shows. -/
def takePermit (wd seq : Nat) (map : List Nat) (p : Permit) : Permit × Bool :=
  match p.seq with
  | none => ({ seq := some seq, map := map, age := 0 }, false)
  | some k =>
    let step := (seq + 2 ^ 32 - k) % 2 ^ 32
    if step = 0 then ({ p with map := List.zipWith Nat.land p.map map }, p.map != map)
    else if step ≤ wd then ({ seq := some seq, map := map, age := 0 }, false)
    else (p, false)

/-- The bit of node `x` in a permission map. -/
def Permit.bit (p : Permit) (x : Nat) : Bool := p.map.getD (x / 8) 0 / 2 ^ (x % 8) % 2 == 1

/-- A permission sub-frame reaches node `x` (R356): SFTYPE of its channel, the node's version with its map, the CRC under its owner's initial
value. -/
def permissionFrame (n x : Nat) (c : Chan) (seq : Nat) (map : List Nat) (h : PermHead) (d : Dev) : Dev :=
  let sec := d.nodeSec n x
  let b := c == .b
  if h.sfType ≠ permType b || h.ver ≠ sec.sfVer || map.length ≠ (if h.ver = 2 then 64 else 32) ||
      !h.crcOk (safInit (d.ownerId n x) b) seq map then d
  else
    d.updNode n x (fun s =>
      let r := takePermit sec.sfWd seq map (match c with | .a => s.permA | .b => s.permB)
      match c with
      | .a => { s with permA := r.1, safDiff := s.safDiff || r.2 }
      | .b => { s with permB := r.1, safDiff := s.safDiff || r.2 })

/-- A node permits torque (R356). -/
def Dev.nodeTorque (d : Dev) (n x : Nat) : Bool :=
  let s := d.node n x
  let wd := (d.nodeSec n x).sfWd
  let ok (p : Permit) : Bool := p.bit x && p.seq.isSome && decide (p.age < wd)
  s.integ && ok s.permA && ok s.permB

/-! ### Identity and admission (R371 to R379) -/

/-- The leader measures a node from the arrival errors of both copies of its identity frame, in 1/16 ns (R373). -/
def measureNode (n x : Nat) (q : Path) (err : Int) (d : Dev) : Dev :=
  let e := rdiv (16 * err) 5
  let d1 := d.updNode n x (fun s => if q = .P then { s with errP := some e } else { s with errS := some e })
  match (d1.node n x).errP, (d1.node n x).errS with
  | some ep, some es =>
    let cin := rdiv es 2
    d1.updNode n x (fun s => { s with
      errP := none, errS := none, measured := true, measIn := s.corrIn + cin, measOut := s.corrOut + (ep - cin) })
  | _, _ => d1

/-- The delays of a node lie within R336: no more than an eighth of G above the declared ones. -/
def delaysOk (d : Dev) (n x : Nat) : Bool :=
  let s := d.node n x
  let lim : Int := 2 * d.rd .LS_SCHED_GUARD n
  decide (s.measIn ≤ lim) && decide (s.measOut ≤ lim)

/-- A node is judged after five identical identity records (R374). A following controller judges the nodes as the leader does, and
only the leader measures, raises and counts. -/
def admitNode (n x : Nat) (r : Ident) (d : Dev) : Dev :=
  let sec := d.nodeSec n x
  let leader := decide (d.rd .LS_STATE_ROLE n = 1)
  let refuse (c : Code) (d : Dev) : Dev :=
    let d1 := d.updNode n x (fun s => { s with state := 4, reason := c.num })
    if !leader then d1
    else if c = .PAT_NODE then raise { c with irq := some (26 + 12 * n) } wRing [n, x] (d1.wr .PAT_STATUS_LAST_ERR c.num) else raiseRing n c [x] d1
  if !((d.nodesOf n).contains x && r.type == sec.type && r.cls == sec.cls && r.addr == x && decide (sec.lsVer ≤ r.lsVer) &&
      decide (sec.sfVer ≤ r.sfVer)) then refuse .PAT_NODE d
  else if !delaysOk d n x then refuse .DELAY_EXCEEDED d
  else
    let late := sec.late.isSome
    let d1 := d.updNode n x (fun s => { s with state := 3, late := late, reason := 0, emptyRun := 0, backRun := 0, known := true })
    let d2 := if late && leader then lsCount .LS_CLAIM_GRANTED n d1 else d1
    if leader then raiseRingLong n .NODE_ADMITTED [x, r.serial] [r.fwRev] d2 else d2

/-- An identity record of node `x` (R374): a run of five identical ones decides; a REFUSED node is judged again only after
it integrated anew. -/
def identRecord (n x : Nat) (q : Path) (err : Int) (first : Bool) (r : Ident) (d : Dev) : Dev :=
  if d.rd .LS_STATE_ROLE n = 0 then d
  else
    let d1 := if d.rd .LS_STATE_ROLE n = 1 then measureNode n x q err d else d
    let s := d1.node n x
    if !first || s.state = 3 || (s.state = 4 && s.id.isSome) then d1
    else
      let run := if s.id == some r then s.idRun + 1 else 1
      let d2 := d1.updNode n x (fun y => { y with id := some r, idRun := run, state := 2 })
      showNodes n (if run = 5 then admitNode n x r d2 else d2)

/-- Passes the stage power of a ring stepper through `f`. -/
def updStage (a : Nat) (f : StageSt → StageSt) (d : Dev) : Dev := d.updField (fun x => { x with stage := x.stage.upd a f })

/-- What a ring stepper says of its stage power: PD_NOTICE parks it, power lost without one loses the index, and power that returns after an
orderly loss asks for RESTORE (R109, R110). -/
def stagePower (a stat : Nat) (d : Dev) : Dev :=
  let on := bit stat 20
  let d1 := if bit stat 19 then
      bothPlanes (fun p d => d.wrP p .PPE_AX_STAT_PARKED 1 (a - 64)) (updStage a (fun _ => { notice := true }) d)
    else d
  let st := d1.field.stage.get a
  if !on then
    if st.notice then updStage a (fun x => { x with off := true }) d1
    else if d1.rdP d1.active .PPE_AX_STAT_POS_LOST (a - 64) = 0 then bothPlanes (fun p d => posLost p a d) d1
    else d1
  else if st.notice && st.off then
    bothPlanes (fun p d => d.updAux p a (fun x => { x with restore := true })) (updStage a (fun _ => {}) d1)
  else d1

/-- A process record of an axis: the loop engine's slot, and a stepper's stage power (R109, R110, R348). -/
def driveRecord (a : Nat) (r : DriveRec) (d : Dev) : Dev :=
  let d1 := d.updField (fun f => { f with
    slot := f.slot.upd a (fun y => { y with
    fresh := true, ever := true, pos := r.pos, vel := r.vel, force := r.force }) })
  match Sparse.find d.pat.aux a with
  | some s =>
    if s.stepper then stagePower a r.stat d1 else d1
  | none => d1

/-- The safe positions that a drive node's frame does not carry (R241). -/
def missPos (n x : Nat) (d : Dev) : Dev := forL (d.nodeSec n x).axes (fun a d => bothChans (fun c d => safeMiss c a d) d) d

/-- Whether a channel takes the sub-frame with SEQ `seq` of system node `id`: a later one by 1 to 255 in serial arithmetic, or any one where it
has none or `any` says so; it drops a duplicate (R261, R353; DEDUCED, log entry 201). -/
def takesSeq (x : ChanSt) (id seq : Nat) (any : Bool) : Bool :=
  match Sparse.find x.sfSeq id with
  | none => true
  | some k =>
    let step := (seq + 2 ^ 32 - k) % 2 ^ 32
    step != 0 && (any || decide (step ≤ 255))

/-- A 0x31 sub-frame with its STATUS, positions and stamp reaches a channel (R241, R354). A frame whose ENC_OK is 0 delivers no position
(DESIGN CHOICE, log entry 201). -/
def positionsTo (n x seq status : Nat) (ps : List Int) (t : T96) (c : Chan) (d : Dev) : Dev :=
  let axes := (d.nodeSec n x).axes
  let id := d.sysId n x
  let any := axes.any (fun a => !((d.ch c).pos.get a).known || decide (2 ≤ ((d.ch c).pos.get a).missCnt))
  if !(d.ch c).ok || !takesSeq (d.ch c) id seq any then d
  else
    let d1 := d.updCh c (fun y => { y with sfSeq := Sparse.put y.sfSeq id seq, sfStat := Sparse.put y.sfStat id status })
    if bit status 1 then forL (axes.zip ps) (fun e d => safePos c e.1 e.2 t d) d1 else d1

/-- A 0x41 sub-frame reaches a channel (R354). -/
def levelsTo (n x seq status : Nat) (io : SafIoIn) (c : Chan) (d : Dev) : Dev :=
  let id := d.sysId n x
  if !(d.ch c).ok || !takesSeq (d.ch c) id seq false then d
  else d.updCh c (fun y => { y with
    sfSeq := Sparse.put y.sfSeq id seq, sfStat := Sparse.put y.sfStat id status, io := Sparse.put y.io id io })

/-- A safety sub-frame of node `x` goes to both safety channels (R353, R354): a person part as one of the sensor that the RING section
assigns to the slot (R260; log entry 163); safe positions in the order of the node's axes, or the levels of a safety I/O node, with a right CRC
under the node's initial value. -/
def subFrame (n x : Nat) (sensor : Option Nat) (b : List Nat) (d : Dev) : Dev :=
  let sec := d.nodeSec n x
  let num := b.getD 2 0
  let crc := b.getD 1 0 == sec.sfVer && safCrcOk (safInit (d.sysId n x) false) b && decide (b.getD 0x0D 0 < 64)
  match b.getD 0 0 with
  | 0x21 =>
    match sensor with
    | some s => bothChans (fun c d => personPart c s b (toFifth (d.base 0)) d) d
    | none => d
  | 0x31 =>
    if !crc || b.length ≠ 24 + 8 * num || num ≠ sec.axes.length || 4 ≤ b.getD 3 0 then d
    else bothChans (positionsTo n x (le b 4 4) (b.getD 3 0) ((List.range num).map (fun i => leInt b (20 + 8 * i) 8)) (leT96 b 8)) d
  | 0x41 =>
    if !crc || b.length ≠ 32 || b.getD 3 0 ≠ 0 || !zeroBytes b 26 28 then d
    else bothChans (levelsTo n x (le b 4 4) 0 ⟨le b 20 2, le b 22 2, le b 24 2, leT96 b 8⟩) d
  | _ => d

/-- The records of a slot frame reach their consumers; a CF_MISS that newly shows is noted (R346), and whether an axis
of the node is outside STO (R316, R348). -/
def processFrame (n x : Nat) (recs : List DriveRec) (d : Dev) : Dev :=
  let d1 := forL ((d.nodeSec n x).axes.zip recs) (fun e d => driveRecord e.1 e.2 d) d
  let miss := recs.any (fun r => bit r.stat 17)
  let d2 := if miss && !(d.node n x).cfMiss then raiseRing n .NODE_CF_MISS [x] d1 else d1
  d2.updNode n x (fun s => { s with cfMiss := miss, live := recs.any (fun r => !bit r.stat 16) })

/-- An ABSENT node that was admitted before and kept its integration returns after process records in 16 consecutive due phases (R379). -/
def returning (n x : Nat) (d : Dev) : Dev :=
  let k := (d.node n x).backRun + 1
  let d1 := d.updNode n x (fun s => { s with backRun := k })
  if (d.node n x).state = 1 && (d.node n x).known && (d.node n x).integ && decide (16 ≤ k) then
    let d2 := d1.updNode n x (fun s => { s with state := 3, emptyRun := 0 })
    showNodes n (if d.rd .LS_STATE_ROLE n = 1 then raiseRing n .NODE_RETURNED [x] d2 else d2)
  else d1

/-! ### Claims (R381, R382) -/

/-- The wait B(TRY) of a claimant (R382). -/
def claimWait (addr tr : Nat) : Nat := 1 + addr / 2 ^ (3 * ((tr - 1) % 2)) % 64

/-- A claimant hears another frame in its window (R382): it waits B(TRY) due phases and tries once more, up to 15 times. -/
def NodeSt.backOff (x : Nat) (s : NodeSt) : NodeSt :=
  if s.claimTry = 0 then s
  else if 15 ≤ s.claimTry then { s with claimTry := 0, claimWait := 0, claimRun := 0, claimMute := true }
  else { s with claimWait := Machine.claimWait x s.claimTry, claimTry := s.claimTry + 1, claimRun := 0, claimHit := true }

/-- The claimants of a spare phase hear a frame of node `src` in its window (R382). -/
def claimHeard (n slot src : Nat) (d : Dev) : Dev :=
  forL ((d.lateOf n slot (d.slotPhase n slot (d.rd .SYS_CYCNT))).filter (fun x => x != src && !(d.node n x).holds)) (fun x d =>
    d.updNode n x (NodeSt.backOff x)) d

/-- The leader sees two claims or a corrupted frame in a window (R382): once per window. -/
def claimClash (n slot : Nat) (before : SlotSt) (d : Dev) : Dev :=
  if d.rd .LS_STATE_ROLE n ≠ 1 || before.claimBad || 2 ≤ before.claims.length then d
  else raiseRing n .CLAIM_COLLISION [slot] (lsCount .LS_CLAIM_COLL n d)

/-- A claim is that of the node's LATE entry, under the port's schedule. -/
def Dev.claimOk (d : Dev) (n src : Nat) (r : ClaimRx) : Bool :=
  let sec := d.nodeSec n src
  sec.late == some (r.slot % 1024, r.slot / 1024) && r.sched == d.rd .LS_DIGEST_SCHED n && r.ident == nodeIdent sec.type sec.cls src

/-- A claim frame of node `src` in the window of a spare phase, heard by other claimants (R358, R381, R382). A corrupted one disturbs too, and
its slot is that of the window. -/
def claimFrame (n src tr : Nat) (hearers : List Nat) (r : ClaimRx) (d : Dev) : Dev :=
  let slot := r.slot % 1024
  let pay := claimBytes r.slot r.lsVer tr r.sched r.ident
  let crc := r.head.crcBad src pay
  let form := r.head.formBad tyClaim 16 16 false pay
  let before := (d.port n).slots.get slot
  let d1 := frameSeen n r.path src r.head crc form d
  let d2 := forL (hearers.filter (fun x => x != src)) (fun x d => d.updNode n x (NodeSt.backOff x)) d1
  if r.head.fin = .aborted || crc || form then
    claimClash n slot before (d2.updSlot n slot (fun s => { s with claimBad := true }))
  else if before.claims.contains src then d2
  else
    let d3 := if d.claimOk n src r && !(d.node n src).claimMute then
        d2.updNode n src (fun s => { s with claimTry := tr, claimWait := 0 }) else d2
    let d4 := d3.updSlot n slot (fun s => { s with claims := src :: s.claims })
    if before.claims.isEmpty then d4 else claimClash n slot before d4

/-- A claimant at the boundary that closes a due phase of its entry (R381, R382): its claim alone in the window counts, and the third in a row
gives it the phase; a wait goes on. -/
def claimPhase (s : SlotSt) (x : Nat) (taken : Bool) (y : NodeSt) : NodeSt :=
  if y.holds then y
  else if y.claimTry ≠ 0 && s.claims == [x] && !s.claimBad && !taken && !y.claimHit then
    if 2 ≤ y.claimRun then { y with holds := true, claimTry := 0, claimRun := 0 } else { y with claimRun := y.claimRun + 1 }
  else { y with claimRun := 0, claimHit := false, claimWait := if y.claimHit then y.claimWait else y.claimWait - 1 }

/-- The claims of the cycle that closes. -/
def claimBoundary (n : Nat) (d : Dev) : Dev :=
  let cnt := d.rd .SYS_CYCNT
  if cnt = 0 then d
  else forL ((d.portSec n).slots.map (·.1)) (fun s d =>
    let l := d.lateOf n s (d.slotPhase n s (cnt - 1))
    let st := (d.port n).slots.get s
    let taken := l.any (fun x => (d.node n x).holds)
    forL l (fun x d => d.updNode n x (claimPhase st x taken)) d) d

/-! ### Slot frames (R339, R340, R350, R352, R353, R374, R378) -/

/-- A frame in a slot refused other than for the window. -/
def slotRefused (n slot : Nat) (d : Dev) : Dev :=
  d.wrAt .LS_SLOT_INFO_ERR_CNT .A n slot (satU 16 (d.rdAt .LS_SLOT_INFO_ERR_CNT .A n slot + 1))

/-- An accepted slot frame of node `x` (R353, R371, R374, R378): the first copy is the slot's, the second one is compared; 24 bytes are an
identity record; process records reach their consumers from an admitted node alone. -/
def takeSlot (n slot : Nat) (q : Path) (err : Int) (x : Nat) (pay : SlotPayload) (bytes : List Nat) (d : Dev) : Dev :=
  let d0 := (d.updNode n x (fun s => { s with gotP := s.gotP || q == .P, gotS := s.gotS || q == .S, emptyRun := 0 })).wrAt
    (onPath q .LS_SLOT_INFO_LAST_P .LS_SLOT_INFO_LAST_S) .A n slot 1
  let before := ((d.port n).slots.get slot).first
  let d1 := match before with
    | some p0 => if p0 = bytes then d0 else raiseRing n .COPY_DIFF [slot] (lsCount .LS_ERR2_COPY_DIFF n d0)
    | none => (d0.updSlot n slot (fun s => { s with first := some bytes, was := false })).wrAt .LS_SLOT_INFO_LAST_EMPTY .A n slot 0
  if bytes.length = 24 then identRecord n x q err before.isNone (identOf bytes) d1
  else match pay with
    | .ident _ => d1
    | .process subs recs _ =>
      if (d1.node n x).state ≠ 3 then if before.isNone then returning n x d1 else d1
      else
        let sensor := ((Sparse.find (d.portSec n).slots slot).elim [] (·.sensors)).getD (d.slotPhase n slot (d.rd .SYS_CYCNT)) none
        let d2 := forL subs (fun b d => subFrame n x sensor b d) (if before.isNone then missPos n x d1 else d1)
        if before.isNone then processFrame n x recs d2 else d2

/-- The bytes of a slot payload of node `x`: web drives' records hold FORCE (R348). -/
def Dev.slotBytes (d : Dev) (n x : Nat) (pay : SlotPayload) : List Nat :=
  pay.bytes ((d.nodeSec n x).axes.map (fun a => d.rdP d.active .LPE_AX_CFG_CLASS a == 1))

/-- A slot frame arrives on a path (R339, R340, R350): its header and end, its arrival error in 0.2 ns, whether its end delimiter came in time,
its SRC and its payload. Claimants of the phase hear it (R382). -/
def slotFrame (n slot : Nat) (q : Path) (h : RxHead) (err : Int) (inTime : Bool) (src : Nat) (pay : SlotPayload) (d : Dev) : Dev :=
  let bytes := d.slotBytes n src pay
  let crc := h.crcBad src bytes
  let form := h.formBad tySlot 0 ((Sparse.find (d.portSec n).slots slot).elim 0 (·.lenMax)) pay.res bytes
  let d1 := frameSeen n q slot h crc form d
  if d.lsState n < lsBasting then d1
  else
    let d2 := if (d.slotOwner n slot).isNone then claimHeard n slot src d1 else d1
    if h.fin = .aborted then d2
    else if crc || form then slotRefused n slot d2
    else if d.guard5 n < 2 * absI err || !inTime then
      raiseRing n .BOUNDARY_VIOL [slot] (d2.wrAt .LS_SLOT_CNT_BV_CNT .A n slot (satU 16 (d2.rdAt .LS_SLOT_CNT_BV_CNT .A n slot + 1)))
    else if d.slotSender n slot ≠ some src then raiseRing n .FRAME_ERR [slot] (slotRefused n slot d2)
    else takeSlot n slot q err src pay bytes d2

/-- A due phase closes with no copy (R352): its count, one notification, the safe positions it would have carried, and ABSENT
after 16 in sewn cycles (R378). Spare phases never count, and nothing counts in basting (R370), but a joint whose position was known misses
it (R241). An ABSENT late-comer holds its phase no longer (R381). -/
def slotEmpty (n slot : Nat) (d : Dev) : Dev :=
  match d.slotDue n slot with
  | none => d
  | some x =>
    if ((d.port n).slots.get slot).first.isSome then d
    else if d.lsState n ≠ lsSewn then
      forL (d.nodeSec n x).axes (fun a d => bothChans (fun c d => if ((d.ch c).pos.get a).known then safeMiss c a d else d) d) d
    else
      let d1 := (d.wrAt .LS_SLOT_CNT_EMPTY_CNT .A n slot (satU 16 (d.rdAt .LS_SLOT_CNT_EMPTY_CNT .A n slot + 1))).wrAt
        .LS_SLOT_INFO_LAST_EMPTY .A n slot 1
      let d2 := if ((d.port n).slots.get slot).was then d1 else raiseRing n .SLOT_EMPTY [slot] d1
      let d3 := missPos n x d2
      let k := (d.node n x).emptyRun + 1
      let d4 := (d3.updNode n x (fun s => { s with emptyRun := k, backRun := 0 })).updSlot n slot (fun s => { s with was := true })
      if (d.node n x).state = 3 && k = 16 then
        let d5 := d4.updNode n x (fun s => { s with state := 1, id := none, idRun := 0, holds := false })
        showNodes n (if d.rd .LS_STATE_ROLE n = 1 then raiseRing n .NODE_ABSENT [x] d5 else d5)
      else d4

/-- The guardian cuts off an own frame that still runs at R + W_max + G/4, and ends it with END_ABORT (R351). -/
def guardCutoff (n : Nat) (d : Dev) : Dev :=
  let cut (f : TxFrame) : TxFrame := { f with fin := .aborted }
  d.updPort n (fun s => { s with cutOff := true, outP := s.outP.map cut, outS := s.outS.map cut })

/-! ### Breaks (R383 to R389) -/

/-- A receive lane of node `x`, or of this controller, loses lock: it feeds the path with idle pairs and wraps (R383). A follower's TB0 enters
holdover (R318). -/
def laneLost (n x : Nat) (q : Path) (d : Dev) : Dev :=
  if x ≠ (d.portSec n).self then d.updNode n x (nodeFeeds q)
  else
    let d1 := breakPath n q (d.updPort n (fun s => { s with lockP := s.lockP && q != .P, lockS := s.lockS && q != .S, run := 0 }))
    if d.rd .LS_STATE_ROLE n = 2 && d.src 0 == srcRing then trigHold 0 d1 else d1

/-- A repaired lane has held lock for 1 ms: the path is repeated again (R388). -/
def laneBack (n x : Nat) (q : Path) (d : Dev) : Dev :=
  if x ≠ (d.portSec n).self then
    d.updNode n x (fun s => { s with feedP := s.feedP && q != .P, feedS := s.feedS && q != .S })
  else symbolLock n q (d.updPort n (fun s => { s with feedP := s.feedP && q != .P, feedS := s.feedS && q != .S }))

/-- The nodes of a port that were due in this cycle and are admitted. -/
def Dev.dueNodes (d : Dev) (n : Nat) : List Nat :=
  (d.nodesOf n).filter (fun x => (d.node n x).state == 3 && !(d.dueSlots n x).isEmpty)

/-- The break position that the missing copies mark (R386): at least two nodes came with one copy, the P copy is missing up
to address `a` and the S copy beyond. `a` is the largest address that came on S alone; of several positions that fit, as where nodes beside
the break are silent, it is the lowest (DEDUCED, log entry 202). -/
def breakAt (d : Dev) (n : Nat) : Option Nat :=
  let due := d.dueNodes n
  let one := due.filter (fun x => (d.node n x).gotP != (d.node n x).gotS)
  let a := (one.filter (fun x => !(d.node n x).gotP)).foldl max 0
  if 2 ≤ one.length && due.all (fun x => if x ≤ a then !(d.node n x).gotP else !(d.node n x).gotS) then some a else none

/-- The break position that a lane of the leader without lock marks: behind the last node for P, at the leader for S (R386; DEDUCED, log
entry 202). -/
def Dev.laneBreak (d : Dev) (n : Nat) : Nat := if (d.port n).lockP then 0 else (d.nodesOf n).foldl max 0

/-- The runs of consecutive due nodes that arrived on neither path (R389). -/
def silentRuns (d : Dev) (n : Nat) : List (List Nat) :=
  (d.dueNodes n).foldr (fun x acc =>
    if (d.node n x).gotP || (d.node n x).gotS then [] :: acc
    else match acc with
      | [] => [[x]]
      | r :: t => (x :: r) :: t) [[]] |>.filter (fun r => !r.isEmpty)

/-- The silent runs of a wrapped port (R389): one with a node that was in none yet is raised and counted; a node that is heard again is out. -/
def partitions (n : Nat) (d : Dev) : Dev :=
  let runs := silentRuns d n
  let fresh := runs.filter (fun r => r.any (fun x => !(d.node n x).parted))
  let d1 := forL (d.dueNodes n) (fun x d => d.updNode n x (fun s => { s with parted := !s.gotP && !s.gotS })) d
  forL fresh (fun r d =>
    raiseRing n .PARTITION [r.headD 0, r.getLastD 0] (lsCount .LS_HEAL_PART_CNT n (d.wr .LS_STATE_PART 1 n))) d1

/-- The end of φ1 at the leader, in basting as in sewn cycles (R386, R388, R389). -/
def ringPhase1End (n : Nat) (d : Dev) : Dev :=
  if d.rd .LS_STATE_ROLE n ≠ 1 || d.lsState n < lsBasting then d
  else
    let s := d.port n
    let lanes := s.lockP && s.lockS
    let all := (d.dueNodes n).all (fun x => (d.node n x).gotP && (d.node n x).gotS)
    if d.rd .LS_STATE_WRAPPED n = 0 then
      let b := breakAt d n
      let a := b.getD (d.laneBreak n)
      if !lanes || b.isSome then
        raiseRing n .RING_WRAP [a] (lsCount .LS_HEAL_WRAP_CNT n (((d.wr .LS_STATE_WRAPPED 1 n).wr .LS_STATE_BREAK_AT a n).updPort n (fun s => { s with run := 0 })))
      else d
    else partitions n (d.updPort n (fun s => { s with run := if lanes && all then s.run + 1 else 0 }))

/-- The port is unwrapped (R388): no run of nodes counts as parted any more. -/
def unwrap (n : Nat) (d : Dev) : Dev :=
  let d1 := ((d.wr .LS_STATE_WRAPPED 0 n).wr .LS_STATE_PART 0 n).updPort n (fun s => { s with run := 0 })
  raiseRing n .RING_UNWRAP [(d.portSec n).self] (forL (d.nodesOf n) (fun x d => d.updNode n x (fun s => { s with parted := false })) d1)

/-- The port at the start of φ3: unwrap after 16 good cycles (R388), and the leader's test for sewn, which a delay
above its declared value keeps out (R336, R376). -/
def ringPhase3 (n : Nat) (d : Dev) : Dev :=
  if d.rd .LS_STATE_ROLE n ≠ 1 then d
  else
    let d1 := if d.rd .LS_STATE_WRAPPED n = 1 && 16 ≤ (d.port n).run then unwrap n d else d
    let sec := d.portSec n
    let every := sec.nodes.all (fun e => e.1 == sec.self || e.2.late.isSome || (d.node n e.1).state == 3)
    let waited := decide (sec.admitT * 1000000 * nsUnit ≤ d.time.tr - (d.port n).firstSync)
    let slow := (d.port n).overDelay || sec.nodes.any (fun e => (d.node n e.1).state == 4 &&
      (d.node n e.1).reason == Code.DELAY_EXCEEDED.num)
    if d1.lsState n = lsBasting && (d1.port n).sewnIn.isNone && (every || waited) && !slow then
      d1.updPort n (fun s => { s with sewnIn := some 3 })
    else d1

/-- An admitted node's copies of the microstep tables that its steppers select. The controller writes them before SEWN and after each load or
change of selection (R107). -/
def writeTables (n x : Nat) (d : Dev) : Dev :=
  if (d.node n x).state ≠ 3 then d
  else forL (d.nodeSec n x).axes (fun a d =>
    if (Sparse.find d.pat.aux a).any (fun s => s.stepper && !s.out) then
      d.updNode n x (fun s => { s with tables := Sparse.put s.tables a (d.msTable d.active (d.rdP d.active .PPE_AX_CFG_TABLE (a - 64))) })
    else d) d

/-- The port at a boundary, with SYS_CYCNT of the cycle it opens: sewn takes effect, a mute is lifted, the port may transmit, claims are
judged, nodes apply their records, and the cycle's copies, codes and slots start anew. -/
def ringBoundary (n : Nat) (d : Dev) : Dev :=
  let st := d.lsState n
  if st < lsBasting then d.updPort n (fun s => { s with codes := [] })
  else
    let k := (d.port n).sewnIn.map (· - 1)
    let d1 := if k = some 0 then setLs n lsSewn (d.updPort n (fun s => { s with sewnIn := none }))
      else d.updPort n (fun s => { s with sewnIn := k })
    let d2 := (claimBoundary n d1).updPort n (fun s => { s with
      muted := s.muted && !s.lift, lift := false, codes := [], cutOff := false, outP := none, outS := none
      hush := s.hush.bind (fun h => if h ≤ 1 then none else some (h - 1))
      slots := ⟨s.slots.dflt, s.slots.cells.map (fun e => (e.1, { e.2 with first := none, claims := [], claimBad := false }))⟩ })
    let d3 := forL ((d.portSec n).slots.map (·.1)) (fun s d =>
      if (d.slotDue n s).isNone then d
      else (d.wrAt .LS_SLOT_INFO_LAST_P .A n s 0).wrAt .LS_SLOT_INFO_LAST_S .A n s 0) d2
    forL (d.nodesOf n) (fun x d => (writeTables n x (nodeBoundary n x d)).updNode n x (fun s => { s with
      gotP := false, gotS := false, errP := none, errS := none, syncP := none, syncS := none
      permA := { s.permA with age := s.permA.age + 1 }, permB := { s.permB with age := s.permB.age + 1 } })) d3

/-- No input of the table counts as delivered. -/
def inputsOff (t : Tab InWord) : Tab InWord := ⟨t.dflt, t.cells.map (fun e => (e.1, { e.2 with fresh := false }))⟩

/-- The slots of the cycle that opens are empty until φ1 brings them (R186). -/
def clearInputs (d : Dev) : Dev := d.updField (fun f => { f with slot := inputsOff f.slot })

/-- Ring words belong to one φ2: it takes those that arrived since the φ2 start before it, and what arrives later serves the loops of the
next cycle (R180, R344). -/
def takeWords (d : Dev) : Dev := d.updField (fun f => { f with word := f.wordIn, wordIn := inputsOff f.wordIn })

/-- Every port falls silent as the controller enters SLEEP (R498). -/
def ringSilent (d : Dev) : Dev :=
  let d1 := forL d.usedPorts (fun n d => forL (d.nodesOf n) (fun x d => d.updNode n x (fun s => { s with
      integ := false, permA := { s.permA with map := [] }, permB := { s.permB with map := [] } }))
    (setLs n lsOff ((d.wr .LS_STATE_ROLE 0 n).wr .LS_STATE_WRAPPED 0 n))) d
  { d1 with cyc := { d1.cyc with running := false } }

/-- Every used port enters LISTEN (R366, R502). -/
def ringListen (d : Dev) : Dev := forL d.usedPorts enterListen d

end Sys2Proof.Machine
end

