-- ==== Sys2Proof/Machine/Boot.lean ====
section
/-! DEFINITION. The Pattern, its flash slots, keys and presence, and start-up from power to RING (02_pattern_startup.md R49 to
R71, 20_package_electrical.md R532 to R534, 19_host_link.md R514, R516). -/

namespace Sys2Proof.Machine

/-- Passes start-up and security through `f`. -/
def Dev.updBoot (d : Dev) (f : BootSt → BootSt) : Dev := { d with boot := f d.boot }

/-- A flash slot. -/
def Dev.flashSlot (d : Dev) (i : Nat) : FlashSlot := if i = 0 then d.boot.slotA else d.boot.slotB

/-- Passes a flash slot through `f`. -/
def Dev.updSlotRec (d : Dev) (i : Nat) (f : FlashSlot → FlashSlot) : Dev :=
  if i = 0 then d.updBoot (fun b => { b with slotA := f b.slotA }) else d.updBoot (fun b => { b with slotB := f b.slotB })

/-- PAT_SLOT coding of a slot's state. -/
def SlotState.num : SlotState → Nat
  | .erased => 0
  | .committed => 1
  | .withdrawn => 2
  | .uncommitted => 3

/-- Shows the slot records in PAT_SLOT and PAT_GEN. -/
def showSlots (d : Dev) : Dev :=
  (((d.wr .PAT_SLOT_S0_STATE d.boot.slotA.state.num).wr .PAT_SLOT_S1_STATE d.boot.slotB.state.num).wr .PAT_GEN
    d.boot.slotA.gen 1).wr .PAT_GEN d.boot.slotB.gen 2

/-- A refusal of the admission table (R65): a fault by the security engine, shown in LAST_ERR. -/
def patFault (c : Code) (payload : List Int) (d : Dev) : Dev := raise c wSec payload (d.wr .PAT_STATUS_LAST_ERR c.num)

/-! ### Writing a Pattern (R60, R61, R516) -/

/-- First flash offset of a slot (R58). -/
def slotBase (i : Nat) : Nat := i * 0x2000000

/-- A flash byte. -/
def flashByte (m : Mems) (a : Nat) : Byte := ~~~ m.flash.byte a

/-- Programs bytes: a program only clears bits. -/
def flashProg (a : Nat) (bs : List Byte) (m : Mems) : Mems :=
  match bs with
  | [] => m
  | x :: t => flashProg (a + 1) t { m with flash := m.flash.put a (m.flash.byte a ||| ~~~ x) }

/-- Usable-DRAM offset of an offset in the shared window (R506, R508). -/
def windowAt (d : Dev) (o : Nat) : Nat := d.dramUsable - 0x1000000 + 0x200000 + o

/-- Ends a Pattern write: WRITING clears, and the waiting command is answered. -/
def endWrite (status : Nat) (w : PatWrite) (d : Dev) : Dev :=
  let d1 := (d.updBoot (fun b => { b with write := none })).wr .PAT_STATUS_WRITING 0
  match w.reply with
  | some r => lateReply { r with status := status } d1
  | none => d1

/-- A Pattern write refuses: its code is raised and the write ends. -/
def failWrite (c : Code) (w : PatWrite) (d : Dev) (at_ : List Int := []) : Dev := endWrite c.num w (patFault c at_ d)

/-- Presence is asserted now (R55). -/
def Dev.present (d : Dev) : Bool := d.rd .SEC_PRESENCE_PRESENT == 1

/-- The erase of a slot takes its bytes from the command on: from there on the slot's COMMIT is erased (R60; DEDUCED, log entry 177). -/
def eraseSlot (i : Nat) (m : Mems) : Mems := { m with flash := m.flash.zeroRange (slotBase i) (slotBase i + 0x2000000) }

/-- Executes PAT_WRITE (R516): a chunk of `len` bytes for image offset `ofs` in the window at `winOfs`. `m` is the image that the
chunks spell; only the FIRST chunk's counts. What is committed is what the flash reads back (R60, `readImage`). -/
def patWriteExe (v : Vault) (ofs winOfs len : Nat) (first last : Bool) (m : Image) (r : Reply) (d : Dev) :
    Dev × Option (Nat × Nat) :=
  let refuse (c : Code) (at_ : List Int) : Dev × Option (Nat × Nat) := (patFault c at_ d, some (c.num, 0))
  let bad := len % 16 != 0 || decide (0x800000 < len) || decide (0xE00000 < winOfs + len)
  match d.boot.write with
  | some w =>
    if first then refuse .PAT_BUSY []
    else if w.step ≠ .wait then refuse .PAT_BUSY []
    else if ofs ≠ w.next || bad || decide (w.img.length < ofs + len) || (last && ofs + len != w.img.length) then
      ((patFault .PAT_MAGIC [] (endWrite 0 { w with reply := none } d)), some (Code.PAT_MAGIC.num, 0))
    else (d.updBoot (fun b => { b with write := some { w with
      step := .program, next := ofs + len, winOfs := winOfs, len := len, last := last, reply := some r } }), none)
  | none =>
    if !first || ofs ≠ 0 || bad || decide (m.length < len) || (last && len != m.length) then refuse .PAT_MAGIC []
    else
      match headerCheck v d m with
      | some c => refuse c.1 c.2
      | none =>
        if genBad d m then refuse .PAT_GEN []
        else
          let slot := match d.boot.active with
            | some i => 1 - i
            | none => 0
          (showSlots ((((d.updSlotRec slot (fun _ => {})).updBoot (fun b => { b with
            write := some ⟨slot, m, .erase, len, winOfs, len, last, some r⟩ })).wr .PAT_STATUS_WRITING 1)), none)

/-- PAT_WRITE on the part: the first chunk starts the erase of its slot (R60). -/
def patWrite (v : Vault) (h : MbxHdr) (ofs winOfs len : Nat) (first last : Bool) (m : Image) (s : Part) : Part :=
  let d1 := mailboxLong h (patWriteExe v ofs winOfs len first last m) s.dev
  let s1 : Part := { s with dev := d1 }
  match s.dev.boot.write, d1.boot.write with
  | none, some w => s1.onMems (eraseSlot w.slot)
  | _, _ => s1

/-- The bytes of the slot record before COMMIT (R59): reserved words are written 0 (R4), but for the range that stays erased. -/
def slotRecord (m : Image) : List Byte :=
  bytesOf 4 0x534C4F54 ++ bytesOf 4 m.length ++ bytesOf 4 m.gen ++ List.replicate 4 0 ++ bytesFrom 32 m.hash

/-- Flash bytes from an offset. -/
def flashBytes (m : Mems) (a n : Nat) : List Byte := (List.range n).map (fun k => flashByte m (a + k))

/-- An image as the flash of a slot holds it: its bytes are read, the meaning of its sections goes with it (log entry 5). -/
def slotImage (m : Mems) (slot : Nat) (x : Image) : Image := { x with bytes := flashBytes m (slotBase slot + 0x100) x.length }

/-- The image of a write as the flash reads back (R60). -/
def readImage (m : Mems) (w : PatWrite) : Image := slotImage m w.slot w.img

/-- RMAGIC of a slot record is correct (R59). -/
def rmagicOk (m : Mems) (slot : Nat) : Bool := flashBytes m (slotBase slot) 4 == bytesOf 4 0x534C4F54

/-- IMG_HASH of a slot record is the hash of the image behind it (R59, R60). -/
def hashOk (m : Mems) (slot : Nat) (x : Image) : Bool := numOf (flashBytes m (slotBase slot + 16) 32) == (slotImage m slot x).hash

/-- The record that the flash reads back is the one written, and its IMG_HASH is that of the image read back (R60). -/
def recordReads (m : Mems) (w : PatWrite) : Bool :=
  flashBytes m (slotBase w.slot) 16 == (slotRecord w.img).take 16 && hashOk m w.slot w.img

/-- The code of a record that does not read back (R65): RMAGIC, then its other words, then IMG_HASH. -/
def recordCode (m : Mems) (w : PatWrite) : Code :=
  if !rmagicOk m w.slot then .PAT_MAGIC
  else if flashBytes m (slotBase w.slot) 16 != (slotRecord w.img).take 16 then .PAT_FLASH
  else .PAT_DIGEST

/-- Puts a Pattern write into its next step. -/
def stepWrite (w : PatWrite) (st : WriteStep) (d : Dev) : Dev :=
  d.updBoot (fun b => { b with write := some { w with step := st } })

/-- The read-back of a write ends (R56, R60): IMG_HASH and every check over the bytes read back, then presence where the safety digest
differs from the active one; without an active Pattern it differs. What passes has its COMMIT programmed. -/
def commitWrite (v : Vault) (w : PatWrite) (s : Part) : Part :=
  let d := s.dev
  let m := readImage s.mems w
  if !recordReads s.mems w then s.onDev (failWrite (recordCode s.mems w) w)
  else
    match loadCheck v d m with
    | some c => s.onDev (fun d => failWrite c.1 w d c.2)
    | none =>
      if genBad d m then s.onDev (failWrite .PAT_GEN w)
      else if (d.boot.active.isNone || d.boot.digSafety ≠ m.digSafety) && !d.present then s.onDev (failWrite .PRESENCE_REQUIRED w)
      else s.onDev (stepWrite { w with img := m } .commit)

/-- COMMIT is programmed (R59, R60): the slot's record counts from here on. -/
def commitDone (w : PatWrite) (s : Part) : Part :=
  (s.onMems (flashProg (slotBase w.slot + 0xFC) (bytesOf 4 (Nat.xor w.img.gen 0x5A5A5A5A)))).onDev (fun d =>
    endWrite 0 w (showSlots (d.updSlotRec w.slot (fun _ => ⟨.committed, w.img.gen, some w.img⟩))))

/-- A flash operation of a Pattern write ends (R60): erase, the chunk's program, the record's program, the read-back, the program of
COMMIT. A failed one ends the write, with COMMIT erased. -/
def writeOpDone (v : Vault) (ok : Bool) (w : PatWrite) (s : Part) : Part :=
  if !ok then s.onDev (failWrite .PAT_FLASH w)
  else
    match w.step with
    | .erase => s.onDev (stepWrite w .program)
    | .program =>
      let a := windowAt s.dev w.winOfs
      let bs := (List.range w.len).map (fun i => s.mems.dram.byte (a + i))
      let s1 := s.onMems (flashProg (slotBase w.slot + 0x100 + (w.next - w.len)) bs)
      if w.last then s1.onDev (stepWrite w .record)
      else s1.onDev (fun d => match w.reply with
        | some r => lateReply r (stepWrite { w with reply := none } .wait d)
        | none => stepWrite w .wait d)
    | .record => (s.onMems (flashProg (slotBase w.slot) (slotRecord w.img))).onDev (fun d =>
        stepWrite w .readBack (showSlots (d.updSlotRec w.slot (fun _ => ⟨.uncommitted, w.img.gen, some w.img⟩))))
    | .readBack => commitWrite v w s
    | .commit => commitDone w s
    | .wait => s

/-- Executes FLASH_READ (R514): any offset, up to 1 MiB. -/
def flashReadExe (ofs len winOfs : Nat) (r : Reply) (d : Dev) : Dev × Option (Nat × Nat) :=
  if 0x100000 < len || 0xE00000 < winOfs + len then (raise .MBX_FORMAT wShared [r.code, r.tag] d, some (Code.MBX_FORMAT.num, 0))
  else (d.updBoot (fun b => { b with reads := b.reads ++ [⟨ofs, len, winOfs, r⟩] }), none)

/-- The oldest flash read ends: its bytes are in the shared window. -/
def readOpDone (ok : Bool) (s : Part) : Part :=
  match s.dev.boot.reads with
  | [] => s
  | x :: t =>
    let s1 := s.onDev (fun d => d.updBoot (fun b => { b with reads := t }))
    if !ok then s1.onDev (fun d => lateReply { x.reply with status := Code.PAT_FLASH.num } (patFault .PAT_FLASH [] d))
    else
      let bs := (List.range x.len).map (fun i => flashByte s.mems (x.ofs + i))
      (s1.onMems (fun m => { m with dram := m.dram.writeBytes (windowAt s.dev x.winOfs) bs })).onDev (lateReply x.reply)

/-- FLASH_OPERATION_DONE (R60): of a FLASH_READ, or of the Pattern write in progress. -/
def flashOpDone (v : Vault) (read ok : Bool) (s : Part) : Part :=
  if read then readOpDone ok s
  else
    match s.dev.boot.write with
    | some w => writeOpDone v ok w s
    | none => s

/-! ### Keys and presence (R54 to R57) -/

/-- SEC_KEYS shows the fuses. -/
def showKeys (v : Vault) (d : Dev) : Dev :=
  let bits (f : KeySlot → Bool) : Nat := (List.range 4).foldl (fun n i => if f (v.slots.get i) then n + 2 ^ i else n) 0
  (d.wr .SEC_KEYS_PROG (bits (fun s => s.hash.isSome))).wr .SEC_KEYS_REVOKED (bits (fun s => s.revoked))

/-- The fault that refuses KEY_PROGRAM: a slot that is programmed (PAT_KEY), then presence at the start of the fuse write. -/
def keyProgramFault (v : Vault) (d : Dev) (slot : Nat) : Option Code :=
  if 4 ≤ slot || (v.slots.get slot).hash.isSome then some .PAT_KEY
  else if !d.present then some .PRESENCE_REQUIRED
  else none

/-- What the signature of KEY_REVOKE covers (R54): the slot index and the current PAT_GEN, each as the 32-bit word of a mailbox payload
(DESIGN CHOICE, log entry 166). -/
def revokeMsg (slot gen : Nat) : List Byte := bytesOf 4 slot ++ bytesOf 4 gen

/-- The fault that refuses KEY_REVOKE: another good slot must sign over the slot index and the current PAT_GEN, some good slot
must remain, and the active Pattern must not use the slot (R54). `key` is the public key x ‖ y and `sig` the signature r ‖ s. A slot
that holds no key may be revoked, and KEY_PROGRAM may still write it: the spec refuses neither (DESIGN CHOICE, log entry 166). -/
def keyRevokeFault (v : Vault) (d : Dev) (slot signer key : Nat) (sig : List Byte) : Option Code :=
  let good (i : Nat) : Bool := (v.slots.get i).hash.isSome && !(v.slots.get i).revoked
  if 4 ≤ slot || signer = slot || !keyGood v signer (bytesFrom 64 key) then some .PAT_KEY
  else if !sm2Verify (bytesFrom 64 key) sig (revokeMsg slot (d.rd .PAT_GEN)) then some .PAT_SIG
  else if !(List.range 4).any (fun i => i != slot && good i) then some .PAT_KEY
  else if d.boot.active.isSome && (d.rd .SEC_KEYS_MAIN_SLOT == slot || d.rd .SEC_KEYS_SAFE_SLOT == slot) then some .PAT_KEY
  else if !d.present then some .PRESENCE_REQUIRED
  else none

/-- A key command on the device: the reply, and SEC_KEYS for the fuses `v1` after it. -/
def keyDev (h : MbxHdr) (fault : Option Code) (v1 : Vault) (d : Dev) : Dev :=
  mailbox h (fun d => match fault with
    | some c => (patFault c [] d, c.num, 0)
    | none => (showKeys v1 d, 0, 0)) d

/-- The fuses after KEY_PROGRAM. -/
def keyProgramVault (h : MbxHdr) (slot hash : Nat) (v : Vault) (d : Dev) : Vault :=
  if delivers h d && (keyProgramFault v d slot).isNone then
    { v with slots := v.slots.upd slot (fun s => { s with hash := some hash }) }
  else v

/-- The fuses after KEY_REVOKE. -/
def keyRevokeVault (h : MbxHdr) (slot signer key : Nat) (sig : List Byte) (v : Vault) (d : Dev) : Vault :=
  if delivers h d && (keyRevokeFault v d slot signer key sig).isNone then
    { v with slots := v.slots.upd slot (fun s => { s with revoked := true }) }
  else v

/-- PRES_CHANGE: the filtered levels of the pins (R55). Presence ends at once when a pin leaves its asserted level. -/
def presChange (a bn : Bool) (d : Dev) : Dev :=
  let d1 := (d.wr .SEC_PRESENCE_PRES_A (b2n a)).wr .SEC_PRESENCE_PRES_B_N (b2n bn)
  if a && !bn then
    if d.boot.presAt.isSome then d1 else d1.updBoot (fun b => { b with presAt := some d.time.tr })
  else (d1.wr .SEC_PRESENCE_PRESENT 0).updBoot (fun b => { b with presAt := none })

/-- PRESENCE_ASSERT: both pins have held their asserted levels for 200 ms (R55). -/
def presenceAssert (d : Dev) : Dev := if d.boot.presAt.isSome then d.wr .SEC_PRESENCE_PRESENT 1 else d

/-- PRES_DISAGREE: the pins have disagreed for more than 200 ms (R57). -/
def presDisagree (d : Dev) : Dev :=
  if d.rd .SEC_PRESENCE_PRES_A = d.rd .SEC_PRESENCE_PRES_B_N then
    raise .PRES_DISAGREE wField [] ((d.wr .SEC_PRESENCE_DISAGREE 1).wr .SEC_PRESENCE_PRESENT 0)
  else d

/-! ### Toile (R68, R69) -/

/-- A write of PAT_CTL: TOILE only while every axis is in STO, TOILE_FB only while TOILE is 0. -/
def toileWrite (w : Nat) (d : Dev) : Dev :=
  let fb := if d.rd .PAT_CTL_TOILE = 0 then d.wr .PAT_CTL_TOILE_FB (w / 2 % 2) else d
  if allSto d then (fb.wr .PAT_CTL_TOILE (w % 2)).updBoot (fun b => { b with toileReq := some (w % 2 == 1) }) else fb

/-- Toile mode becomes active or ends: its status bits; safety outputs held off, PO and TEV at their idle levels (R68). Step pulses that
wait stay (log entry 149). -/
def setToile (v : Bool) (d : Dev) : Dev :=
  let d1 := (d.wr .PAT_STATUS_TOILE (b2n v)).wr .SYS_STATE_TOILE (b2n v)
  if v then
    let d2 := outsOff d1
    { d2 with
      field := { d2.field with po := ⟨d2.field.po.dflt, d2.field.po.cells.map (fun e => (e.1, { e.2 with out := 0, z := false, zDue := false }))⟩ }
      time := { d2.time with tev := ⟨d2.time.tev.dflt, d2.time.tev.cells.map (fun e => (e.1, { e.2 with pulse := none }))⟩ } }
  else d1

/-- The boundary takes a request of R69. -/
def toileBoundary (d : Dev) : Dev :=
  match d.boot.toileReq with
  | some v => setToile v (d.updBoot (fun b => { b with toileReq := none }))
  | none => d

/-! ### Selection and load (R63, R66, R67, R70) -/

/-- Candidates in the order of R63: committed slots with a correct RMAGIC whose image, as the flash holds it, has the record's GEN, by
descending GEN, slot 0 first on a tie. -/
def slotCandidates (f : Mems) (d : Dev) : List (Nat × Image) :=
  let cand (i : Nat) : List (Nat × Image) :=
    let s := d.flashSlot i
    match s.img with
    | some m => if s.state == .committed && rmagicOk f i && (slotImage f i m).gen == s.gen then [(i, slotImage f i m)] else []
    | none => []
  if d.boot.slotA.gen < d.boot.slotB.gen then cand 1 ++ cand 0 else cand 0 ++ cand 1

/-- The candidates that stage LOAD tries where the part comes back to it without a selection (R71, R296): the active slot first. -/
def loadCandidates (f : Mems) (d : Dev) : List (Nat × Image) :=
  let l := slotCandidates f d
  if d.rd .SYS_STATE_STAGE = 4 then l.filter (fun e => d.boot.active == some e.1) ++ l.filter (fun e => d.boot.active != some e.1)
  else l

/-- Every check of a slot at boot and at an activation (R63, R65): the load checks over its image, and IMG_HASH of its record. -/
def slotCheck (v : Vault) (f : Mems) (d : Dev) (e : Nat × Image) : Option (Code × List Int) :=
  (loadCheck v d e.2).orElse (fun _ => if hashOk f e.1 e.2 then none else some (.PAT_DIGEST, []))

/-- The registers of a core after LOAD (R419). -/
def loadCore (x : CodeSec) : Core :=
  { pc := alignPc x.entry, csw := BitVec.ofNat 32 (x.csw0 % 8), evb := BitVec.ofNat 32 x.evb, loaded := true }

/-- A plane after LOAD: its cores, matrices, microstep tables and bank powers from the Pattern (R419, R473). -/
def loadPlane (pat : Pattern) : PlaneDev :=
  { cores := ⟨{}, pat.code.foldl (fun (t : Sparse Core) x => Sparse.put t x.core (loadCore x)) []⟩
    ppe := { tables := pat.msTables.foldl (fun (t : Sparse (List Nat)) e => Sparse.put t e.1 e.2) [] }
    mem := { bank := ⟨.on, pat.mem.bankPower.foldl (fun (t : Sparse BankPwr) e =>
      Sparse.put t e.1 ((BankPwr.ofNum e.2).getD .on)) []⟩ } }

/-- Local memories after LOAD: the segments of the CODE sections, every other byte 0 (R419). -/
def loadLocals (pat : Pattern) (x : PlaneMems) : PlaneMems :=
  { x with loc := ⟨[], pat.code.foldl (fun (t : Sparse Mem) c =>
    Sparse.put t c.core (c.segs.foldl (fun (m : Mem) g => m.writeBytes g.addr g.data) [])) []⟩ }

/-- The per-plane registers of a plane that reloads, as `loadRegs` has them. -/
def reloadRegs (pat : Pattern) (p : Plane) (m : Sparse Nat) : Sparse Nat :=
  let keep := m.filter (fun e => !(keyBlk e.1).starred || keyPlane e.1 != p || keyBlk e.1 == .mem)
  ((patRegs pat).filter (fun e => (keyBlk e.1).starred)).foldl (fun (t : Sparse Nat) e =>
    Sparse.put t (if p = .A then e.1 else e.1 + 0x2000000) e.2) keep

/-- A plane that was OUT, or failed tasting at start-up, receives the sections of the active Pattern anew (R71, R298). -/
def reloadPlane (p : Plane) (s : Part) : Part :=
  let d := s.dev
  let d1 := ({ d with regs := reloadRegs d.pat p d.regs, staging := reloadRegs d.pat p d.staging
                      applySets := d.applySets.filter (fun a => a.plane != p || !a.blk.starred) }).updPl p
    (fun _ => loadPlane d.pat)
  { mems := match p with
      | .A => { s.mems with a := loadLocals d.pat s.mems.a }
      | .B => { s.mems with b := loadLocals d.pat s.mems.b }
    dev := showBanks p (loadMatrices p d1) }

/-- The reload of a rejoining plane ends (R298): tasting alone, or a failed rejoin where a digest differs. -/
def reloadDone (p : Plane) (ok : Bool) (s : Part) : Part :=
  if s.dev.planeState p ≠ 3 then s
  else if ok then (reloadPlane p s).onDev (fun d => ((setPlaneState p 1 d).updRole p (fun r => { r with tasteCyc := 0 })).incSat
    .RED_TASTE_COUNT)
  else s.onDev (rejoinFail p)

/-- A safety channel after LOAD: what it reads of its pins stays, its units are in STO (R72). -/
def loadChan (x : ChanSt) : ChanSt := { ok := x.ok, raw := x.raw, lvl := x.lvl, ed := x.ed, edCnt := x.edCnt }

/-- A base whose source the Pattern changed becomes INVALID (R310); its event outputs wait for its next lock (R329). -/
def loadBases (old d : Dev) : Dev :=
  forN 8 (fun b d =>
    if old.src b ≠ d.src b then
      forN 8 (fun o d => if d.rd .TEV_CFG_ARM o = 1 && d.rd .TEV_CFG_BASE o == b then
          d.updTev o (fun x => { x with next := none, waiting := true }) else d)
        ((d.updBase b (fun _ => {})).wr .TB_STAT_STATE 0 b)
    else d) d

/-- Capture as a Pattern is loaded: the region is empty; the trigger bus and its calibration go on (DESIGN CHOICE, log entry 178). -/
def capLoad (c : CapSt) : CapSt :=
  { lead := c.lead, seen := c.seen, driven := c.driven, outs := c.outs, levels := c.levels, calReq := c.calReq, calAt := c.calAt
    calRuns := c.calRuns, calFirst := c.calFirst }

/-- The sections of an image reach both planes and both safety channels (R70). A pending set of a shared block (TIME, FBI, CAP) stays
pending and goes live over the new Pattern's values; those of the blocks of a plane are dropped (DESIGN CHOICE, log entry 178). -/
def loadPattern (slot : Nat) (m : Image) (s : Part) : Part :=
  let pat := m.pattern
  let old := s.dev
  let keep := old.boot.active.isSome && old.boot.digCell == m.digCell && old.boot.digRing == m.digRing &&
    !old.usedPorts.isEmpty && old.usedPorts.all (fun n => old.lsState n == lsSewn)
  let d1 : Dev := { old with
    pat := pat
    regs := loadRegs pat old.regs
    staging := loadRegs pat old.staging
    applySets := old.applySets.filter (fun a => !a.blk.starred)
    planeA := loadPlane pat
    planeB := loadPlane pat
    cap := capLoad old.cap
    red := { a := { fails := old.red.a.fails }, b := { fails := old.red.b.fails }, linkLost := old.red.linkLost }
    saf := { old.saf with a := loadChan old.saf.a, b := loadChan old.saf.b, restart := [], selftest := false, planesGone := false } }
  let d2 := bothPlanes (fun p d => showBanks p (loadMatrices p d)) d1
  let d3 := ((d2.wr .SYS_CYCLE_K pat.cell.k).wr .SYS_CYCLE_TICK pat.cell.tick).wr .SYS_CYCLE_SYNC_PAT (b2n pat.cell.syncPat)
  let d3 := ((d3.wr .CAP_HEAD 0).wr .CAP_OLDEST 0).wr .CAP_RD 0
  let d4 := fieldLoad old (loadBases old d3)
  let d5 : Dev := if keep then d4
    else forL old.usedPorts portOff { d4 with cyc := {}, sync := {}, ring := { ports := ⟨{}, old.ring.ports.cells.map (fun e => (e.1, e.2.lanes))⟩ } }
  let d6 := (d5.updBoot (fun b => { b with
    active := some slot, digCell := m.digCell, digRing := m.digRing, digSafety := m.digSafety, keepRing := keep
    retried := [], stopped := false, toileReq := none }))
  let d7 := ((((((d6.wr .PAT_GEN m.gen).wr .PAT_STATUS_ACT_SLOT slot).wr .PAT_STATUS_FORMAT (m.format - 1)).wr
    .SEC_KEYS_MAIN_SLOT m.mainSlot).wr .SEC_KEYS_SAFE_SLOT m.safSlot).wr .PAT_CTL_TOILE (b2n m.toileBoot))
  let d8 := setToile m.toileBoot d7
  let d8 := (d8.wr .RED_TIMER_RIDDLE_REMAIN (satU 16 (d8.rd .RED_CFG_RIDDLE_T * 60))).wr .RED_TIMER_REVERT_REMAIN
    (if d8.active = .B then d8.rd .RED_CFG_REVERT_T else 0)
  let d8 := forN 32 (fun i d =>
    let sec := Sparse.find pat.safety.sensors i
    (d.wr .SAF_SENS_STAT_COND (if sec.isSome then 2 else 3) i).wr .SAF_SENS_STAT_VER (((sec.map (·.ver)).getD 1) - 1) i) d8
  let d9 := forL safUnits showUnit (bothPlanes (fun p d => if d.planeState p = 5 then d else setPlaneState p 0 d) d8)
  { mems := { s.mems with a := loadLocals pat s.mems.a, b := loadLocals pat s.mems.b }, dev := setStage 5 d9 }

/-- Notes a slot that passed every load check. -/
def slotPassed (i : Nat) (d : Dev) : Dev := d.wr (if i = 0 then .PAT_SLOT_S0_OK else .PAT_SLOT_S1_OK) 1

/-- Tries the candidates in order, each checked against the device `d0` as the stage began (R63): a failed one raises its code, the first that passes is loaded; with none left the
controller enters NOPAT (R64). -/
def trySlots (v : Vault) (d0 : Dev) (failed : Option (Nat × Code)) : List (Nat × Image) → Part → Part
  | [], s => s.onDev (fun d => setStage 15 (ringSilent (patFault .PAT_NONE []
      (((d.updBoot (fun b => { b with active := none })).wr .PAT_GEN 0).wr .PAT_STATUS_ACT_SLOT 0))))
  | (i, m) :: t, s =>
    match slotCheck v s.mems d0 (i, m) with
    | some c => trySlots v d0 (failed.orElse (fun _ => some (i, c.1))) t (s.onDev (patFault c.1 c.2))
    | none =>
      let s1 := s.onDev (slotPassed i)
      let s2 := match failed with
        | some (j, c) => s1.onDev (fun d => raise .PAT_FALLBACK wSec [j, c.num] (d.wr .PAT_STATUS_FALLBACK 1))
        | none => s1
      loadPattern i m s2

/-- PATTERN_LOADED (R63, R70): in stage SELECT the candidates are read and checked and the chosen one is distributed; in stage LOAD the
active slot goes first. -/
def patternLoaded (v : Vault) (s : Part) : Part :=
  if s.dev.rd .SYS_STATE_STAGE = 3 || s.dev.rd .SYS_STATE_STAGE = 4 then
    let s1 := s.onDev (fun d => setStage 4 (showSlots ((d.wr .PAT_SLOT_S0_OK 0).wr .PAT_SLOT_S1_OK 0)))
    trySlots v s.dev none (loadCandidates s.mems s.dev) s1
  else s

/-- The reply status that refuses PAT_ACTIVATE, 0 when it is accepted (R66). -/
def activateStatus (d : Dev) : Nat :=
  if !allSto d || d.rd .SAF_SO_ON ≠ 0 then Code.ACT_NOT_SAFE.num
  else if 2 < d.rd .SYS_LADDER_STATE then Code.ACT_LADDER.num
  else if d.rd .PAT_STATUS_WRITING = 1 then Code.PAT_BUSY.num
  else 0

/-- PAT_ACTIVATE (R66): stage SELECT, or LOAD where selection finds the active Pattern first; capture ends (R405). -/
def patActivate (h : MbxHdr) (s : Part) : Part :=
  let d := s.dev
  let st := activateStatus d
  if delivers h d && st = 0 then
    let next := match slotCandidates s.mems d with
      | (i, m) :: _ => if d.boot.active = some i && m.gen = d.pat.gen then 4 else 3
      | [] => 3
    (capActivation s).onDev (fun d => mailbox h (fun d => (setStage next d, 0, 0)) d)
  else
    s.onDev (mailbox h (fun d =>
      (if st = Code.PAT_BUSY.num then patFault .PAT_BUSY [] d else d, st, 0)))

/-- PAT_SWITCH (R62): the other slot must hold a committed Pattern that verifies, presence must hold as the old commit word is
cleared. -/
def patSwitch (v : Vault) (h : MbxHdr) (s : Part) : Part :=
  let d := s.dev
  let fault : Option (Code × List Int) := match d.boot.active with
    | none => some (.PAT_NONE, [])
    | some i =>
      match (slotCandidates s.mems d).find? (fun e => e.1 != i) with
      | none => some (.PAT_NONE, [])
      | some e => (slotCheck v s.mems d e).orElse (fun _ => if d.present then none else some (.PRESENCE_REQUIRED, []))
  match fault, d.boot.active with
  | none, some i =>
    if delivers h d then
      (s.onMems (flashProg (slotBase i + 0xFC) [0, 0, 0, 0])).onDev (mailbox h (fun d =>
        (showSlots (d.updSlotRec i (fun x => { x with state := .withdrawn })), 0, 0)))
    else s.onDev (mailbox h (fun d => (d, 0, 0)))
  | some c, _ => s.onDev (mailbox h (fun d => (patFault c.1 c.2 d, c.1.num, 0)))
  | none, none => s.onDev (mailbox h (fun d => (d, 0, 0)))

/-! ### Reset and start-up (R70, R71, R310 to R312, R532 to R534) -/

/-- The device as a reset starts (R534): outputs, transmitters and the link at rest, every register at its reset value. TB3, the
lockouts (R234) and the flash stay; `keep` is an exit from KEEP, which also keeps the wake registers and WAKE_TO (R500). -/
def resetDev (keep pin rail : Bool) (railId : Nat) (d : Dev) : Dev :=
  let d0 : Dev := { boot := { slotA := d.boot.slotA, slotB := d.boot.slotB, keepExit := keep, porPend := d.boot.porPend,
                              pgood := !(rail && decide (railId = 0)) && d.boot.pgood }
                    free := d.free, cycNo := d.cycNo, saf := { edUnits := d.saf.edUnits }
                    time := { sub := d.time.sub, bases := (⟨{}, []⟩ : Tab BaseSt).set 3 { acc := (d.bs 3).acc, inc := (d.bs 3).inc } } }
  let d1 := (((((((d0.wr .TB_STAT_STATE 1 3).wr .SAF_ED_LOCK (d.rd .SAF_ED_LOCK)).wr .SAF_STATE_LOCKOUT
    (b2n (d.rd .SAF_ED_LOCK != 0))).wr .SYS_RSTCAUSE_POR (b2n d.boot.porPend)).wr .SYS_RSTCAUSE_PIN (b2n pin)).wr
    .SYS_RSTCAUSE_RAIL (b2n rail)).wr .SYS_RSTCAUSE_KEEP (b2n keep)).wr .SYS_RSTCAUSE_RAIL_ID (if rail then railId else 0)
  if keep then
    forL [Fld.PWR_WAKE_ALARM_EN, .PWR_WAKE_WAKE_N_EN, .PWR_WAKE_STAT_CAUSE, .PWR_WAKE_STAT_FROM, .PWR_ALARM_NS, .PWR_ALARM_SL,
      .PWR_ALARM_SEC_HI, .PWR_ALARM_FRAC, .SYS_LADDER_WAKE_TO] (fun f x => x.wr f (d.rd f))
      (((d1.wr .SYS_LADDER_STATE 5).wr .SYS_STATE_LADDER 5).wr .SYS_LADDER_BUSY 1)
  else d1

/-- A reset of the part: every memory but the flash loses its contents. -/
def resetPart (keep pin rail : Bool) (railId : Nat) (s : Part) : Part :=
  { mems := { flash := s.mems.flash }, dev := resetDev keep pin rail railId s.dev }

/-- RESET (R534): RESET_N, a rail trip or a missing REFCLK. -/
def reset (pin rail : Bool) (railId : Nat) (s : Part) : Part :=
  if pin || rail then resetPart false pin rail railId s else s

/-- VKEEP_LOSS (R311): TB3 and the wake settings of the KEEP domain are lost. A lockout stays until a reset finds its contactor dropped (R234;
DEDUCED, log entry 192). -/
def vkeepLoss (d : Dev) : Dev :=
  let d1 := (d.updBase 3 (fun _ => tb3Start)).updBoot (fun b => { b with porPend := true })
  let d2 := ((((d1.wr .PWR_ALARM_NS 0).wr .PWR_ALARM_SL 0).wr .PWR_ALARM_SEC_HI 0).wr .PWR_ALARM_FRAC 0)
  (d2.wr .PWR_WAKE_ALARM_EN 0).wr .PWR_WAKE_WAKE_N_EN 1

/-- POWER_UP (R532): VKEEP rises, TB3 starts from zero, PWR_EN_MAIN, VCORE_EN and PGOOD go high; reset is held. -/
def powerUp (s : Part) : Part :=
  (resetPart false false false 0 (s.onDev vkeepLoss)).onDev (fun d => d.updBoot (fun b => { b with
    pwrEn := true, vcoreEn := true, pgood := true }))

/-- RESET_RELEASE (R70, R312): TR starts and stage FUSES begins. A restarted TB3 is recorded, with its first lock
(R310), and TB3's TIME_MAP is written. -/
def resetRelease (d : Dev) : Dev :=
  if !d.boot.inReset then d
  else
    let d1 := (d.updTime (fun t => { t with tr := 0, trRun := true })).updBoot (fun b => { b with
      inReset := false, pwrEn := true, vcoreEn := true, pgood := true })
    let d2 := setStage 1 d1
    let d3 := if d.boot.porPend then
        raise { Code.BASE_VALID with irq := none } wShared [3]
          (raise .TB3_RESTART wShared [] (d2.updBoot (fun b => { b with porPend := false })))
      else d2
    let d4 := timeMap 3 d3
    forL d.pwr.wakeNote (fun s d => raise .WAKE wShared [s] d) (d4.updPwr (fun w => { w with wakeNote := [] }))

/-- FUSES_READ (R70): the key slots are known and stage DRAM begins. -/
def fusesRead (v : Vault) (d : Dev) : Dev := if d.rd .SYS_STATE_STAGE = 1 then setStage 2 (showKeys v d) else d

/-- DRAM_TRAINED (R70, R506): the size code of the device, the mailbox, and stage SELECT with the slot records read. -/
def dramTrained (size : Nat) (d : Dev) : Dev :=
  if d.rd .SYS_STATE_STAGE = 2 then
    setStage 3 (showSlots (((d.wrBoth .MEM_DRAM_STAT_SIZE size).wrBoth .MEM_DRAM_STAT_TRAINED 1).wr .HST_STATUS_MBX_READY 1))
  else d

/-- ED inputs at stage TASTE (R234): after a reset a lockout ends where ED reads dropped; a contactor that reads pulled-in locks. -/
def tasteEd (ed : Nat) (d : Dev) : Dev :=
  let d1 := if d.boot.fromReset then
      (d.wr .SAF_ED_LOCK ((List.range 8).foldl (fun n e => if bit ed e then setBit n e false else n) (d.rd .SAF_ED_LOCK))).updSaf
        (fun x => { x with edUnits := x.edUnits.filter (fun e => !bit ed e.1) })
    else d
  let d2 := d1.wr .SAF_STATE_LOCKOUT (b2n (d1.rd .SAF_ED_LOCK != 0))
  forL d.pat.safety.edOut (fun e d => if !bit ed e.1 then edLock e.1 d
    else if bit (d.rd .SAF_ED_LOCK) e.1 then stoNow (d.unitsOfOut e.2) (.lock e.1) true d
    else d) d2

/-- The VFIELD condition that holds at the release of reset, reported at TASTE (R545): 1 low, 2 reversed, 3 high. -/
def tasteVfield (vf : Nat) (d : Dev) : Dev :=
  match vf with
  | 1 => vfieldBad .VFIELD_LOW d
  | 2 => vfieldBad .VFIELD_REV d
  | 3 => vfieldBad .VFIELD_HIGH d
  | _ => d

/-- A plane after TASTE, with its verdict (R71, R290): a first failure repeats LOAD and TASTE for it, a second one leaves it OUT. -/
def tastePlane (p : Plane) (pass : Bool) (d : Dev) : Dev :=
  if d.planeState p = 5 then d
  else if pass then d.wr (if p = .A then .RED_TASTE_A else .RED_TASTE_B) 1
  else
    let d1 := tasteFail p 2 d
    if d.boot.retried.contains p then planeOut p d1
    else setStage 5 (setStage 4 (d1.updBoot (fun b => { b with retried := b.retried ++ [p] })))

/-- The planes for which TASTE_DONE repeats LOAD (R71). -/
def tasteRetries (passA passB agree : Bool) (d : Dev) : List Plane :=
  if d.rd .SYS_STATE_STAGE ≠ 5 || d.boot.stopped || !agree then []
  else ([(Plane.A, passA), (.B, passB)].filter (fun x => !x.2 && d.planeState x.1 != 5 && !d.boot.retried.contains x.1)).map (·.1)

/-- TASTE_DONE (R71): tasting of each plane, the self-tests of each safety channel, whether the channels agree on the SAFETY digest,
the ED inputs that read dropped and the VFIELD condition. -/
def tasteDone (passA passB chA chB agree : Bool) (ed vf : Nat) (d : Dev) : Dev :=
  if d.rd .SYS_STATE_STAGE ≠ 5 || d.boot.stopped then d
  else
    let again := (!passA && d.planeState .A != 5 && !d.boot.retried.contains .A) ||
      (!passB && d.planeState .B != 5 && !d.boot.retried.contains .B)
    let d1 := tastePlane .B passB (tastePlane .A passA (d.incSat .RED_TASTE_COUNT))
    if !agree then raiseSaf .SAF_LOAD_MISMATCH d1.safWriter [] (d1.updBoot (fun b => { b with stopped := true }))
    else if again then d1
    else if !d1.runs .A && !d1.runs .B then stopAll .planes (d1.updBoot (fun b => { b with stopped := true }))
    else
      let d2 := if d1.runs d1.active then d1 else setActive d1.active.other d1
      let d3 := if chA then d2 else loseChan .a d2
      let d4 := if chB then d3 else if chA then loseChan .b d3 else stopAll .selftest d3
      let d5 := tasteVfield vf (tasteEd ed d4)
      let d6 := d5.updBoot (fun b => { b with fromReset := false })
      if d6.boot.keepExit then d6
      else if d6.boot.keepRing then ringStage (setStage 6 d6)
      else ringListen (setStage 6 d6)

/-- TASTE_DONE on the part: a plane that failed first is loaded anew (R71). -/
def tasteDonePart (passA passB chA chB agree : Bool) (ed vf : Nat) (s : Part) : Part :=
  (tasteRetries passA passB agree s.dev).foldl (fun s p => reloadPlane p s) (s.onDev (tasteDone passA passB chA chB agree ed vf))

end Sys2Proof.Machine
end

