-- ==== Sys2Proof/Machine/Ladder.lean ====
section
/-! DEFINITION. The steps of the power ladder (18_pace_power.md R492 to R504): what each state keeps, stops and loses, downward
steps, ascents and wakes. -/

namespace Sys2Proof.Machine

/-- The state changes: both STATE fields, and event LADDER with the old and the new state (R495). -/
def setLadder (s : Nat) (d : Dev) : Dev :=
  raise .LADDER wShared [d.ladder, s] ((d.wr .SYS_LADDER_STATE s).wr .SYS_STATE_LADDER s)

/-- Parks cores of both planes, or lets them run again. -/
def parkCores (cs : List Nat) (v : Bool) (d : Dev) : Dev :=
  bothPlanes (fun p d => forL cs (fun c d => d.updCore p c (fun k => { k with parked := v })) d) d

/-- The cores but CC0. -/
def parkedCores : List Nat := [0, 1, 2, 3, 4, 5, 6, 7, 9]

/-- The target is reached, or still to be reached. -/
def targetDone (d : Dev) : Dev := d.updPwr (fun w => { w with target := if w.target = some d.ladder then none else w.target })

/-- A step has taken effect (R504): a request that waited is judged once no ascent holds it back, else an ascent goes on. -/
def afterStep (d : Dev) : Dev :=
  let d1 := targetDone ((d.wr .SYS_LADDER_BUSY 0).updPwr (fun w => { w with busyTo := none, raised := none }))
  let rising := d1.pwr.target.any (fun x => decide (x < d1.ladder))
  match d1.pwr.later with
  | some t =>
    if rising && decide (d1.ladder < t) then
      match d1.pwr.target with
      | some x => ascend x d1
      | none => d1
    else (judgeRequest t (d1.updPwr (fun w => { w with later := none }))).1
  | none =>
    match d1.pwr.target with
    | some x => if x < d1.ladder then ascend x d1 else d1
    | none => d1

/-! ### Downward (R494 to R500) -/

/-- RUN to HOLD (R496): the cores but CC0 are parked, set-points hold with zero feed-forward, running batches are given up. -/
def toHold (d : Dev) : Dev :=
  let d1 := parkCores parkedCores true (setLadder 1 d)
  let rest (x : AxSp) : AxSp := { x with vel := 0, trq := 0 }
  afterStep (bothPlanes (fun p d => setBatch p 1 0 (setBatch p 0 0 (d.updPl p (fun x => { x with
    ppe := { x.ppe with
      sp := ⟨rest x.ppe.sp.dflt, x.ppe.sp.cells.map (fun e => (e.1, rest e.2))⟩
      spPrev := ⟨rest x.ppe.spPrev.dflt, x.ppe.spPrev.cells.map (fun e => (e.1, rest e.2))⟩ }
    slv := { x.slv with mats := ⟨x.slv.mats.dflt, x.slv.mats.cells.map (fun e => (e.1, { e.2 with active := false }))⟩ } })))) d1)

/-- Takes every ON bank of both planes to RET, and remembers them (R498). -/
def sleepBanks (d : Dev) : Dev :=
  bothPlanes (fun p d => forN 32 (fun b d =>
    if d.bank p b = .on then (setBank p b .ret d).updPwr (fun w => { w with slept := w.slept ++ [(p, b)] }) else d) d)
    (d.updPwr (fun w => { w with slept := [] }))

/-- SLEEP (R498): silent ports, banks in RET, cores off, VCMD at 0.60 V, TB0 of a follower in holdover, channel A off. -/
def enterSleep (d : Dev) : Dev :=
  let d1 := if d.leads then d else enterHold 0 d
  let d2 := parkCores (List.range 10) true (sleepBanks (ringSilent d1))
  let d3 := ((d2.wr .PWR_AVS_VCMD 120).wr .PWR_AVS_AT_MAX (b2n (d2.rd .PWR_AVS_VMAX == 120))).updPwr (fun w => { w with
    chanOff := d2.saf.a.ok, acked := none })
  d3.updCh .a (fun x => { x with ok := false })

/-- IDLE to SLEEP. -/
def toSleep (d : Dev) : Dev := afterStep (setLadder 3 (enterSleep d))

/-- Registers that the F die keeps in DORMANT (R499). -/
def dormantKeeps (b : Blk) : Bool :=
  match b with
  | .fbi | .saf | .pat | .pwr | .sys => true
  | _ => false

/-- The stepper axes of the Pattern. -/
def Dev.steppers (d : Dev) : List Nat := (d.pat.aux.filter (fun e => e.2.stepper)).map (·.1)

/-- Entering DORMANT or KEEP loses the index of every stepper axis (R110, R499). -/
def dormantLost (d : Dev) : Dev := forL d.steppers (fun m d => bothPlanes (fun p => posLost p m) d) d

/-- The lost indices stay lost when the planes load again (R110). -/
def staysLost (d : Dev) : Dev := forL d.steppers (fun m d => bothPlanes (fun p => markLost p m) d) d

/-- SLEEP to DORMANT (R499): the C die loses its contents and every base but TB3; the DRAM keeps its own, and with it the cellar book goes on
(DEDUCED, log entry 204). -/
def toDormant (s : Part) : Part :=
  let d := setLadder 4 (dormantLost s.dev)
  let d1 : Dev := { d with
    regs := d.regs.filter (fun e => dormantKeeps (keyBlk e.1))
    staging := d.staging.filter (fun e => dormantKeeps (keyBlk e.1))
    applySets := d.applySets.filter (fun a => a.blk == .fbi)
    planeA := {}
    planeB := {}
    cap := {}
    red := {}
    ring := {}
    cyc := {}
    sync := {}
    host := {}
    time := { d.time with bases := (⟨{}, []⟩ : Tab BaseSt).set 3 { acc := (d.bs 3).acc, inc := (d.bs 3).inc }, tev := ⟨{}, []⟩, ptpq := ⟨[], []⟩ } }
  let d2 := ((d1.wr .TB_STAT_STATE 1 3).wrBoth .MEM_DRAM_STAT_SIZE (d.rd .MEM_DRAM_STAT_SIZE)).updBoot (fun b => { b with
    vcoreEn := false })
  let d3 := forL [Fld.CEL_HEAD, .CEL_OLDEST, .CEL_RD, .CEL_LOSS, .CEL_SIZE] (fun f x => x.wr f (d.rd f))
    (d2.updPwr (fun w => { w with deep := max w.deep 4 }))
  { mems := { s.mems with a := {}, b := {} }, dev := afterStep d3 }

/-- DORMANT to KEEP (R500): PWR_EN_MAIN goes low. What only the other rails hold is lost at the wake, which is a reset. -/
def toKeep (d : Dev) : Dev := afterStep ((setLadder 5 (dormantLost d)).updBoot (fun b => { b with pwrEn := false, pgood := false }))

/-- Downward steps go on: the state lies above the accepted target. -/
def Dev.descends (d : Dev) : Bool := d.pwr.busyTo.isNone && d.pwr.target.any (fun t => decide (d.ladder < t))

/-- LADDER_DESCENT_TIMER (R495): 1 ms after arrival in SLEEP or DORMANT. -/
def descentTimer (s : Part) : Part :=
  if !s.dev.descends then s
  else if s.dev.ladder = 3 then toDormant s
  else if s.dev.ladder = 4 then s.onDev toKeep
  else s

/-! ### Upward (R500 to R504) -/

/-- SLEEP to IDLE (R502): banks back to ON, CC0 and channel A run, every used port in LISTEN. -/
def toIdle (d : Dev) : Dev :=
  let d1 := forL d.pwr.slept (fun e d => setBank e.1 e.2 .on d) d
  let d2 := parkCores [8] false (d1.updPwr (fun w => { w with slept := [] }))
  let d3 := if d2.pwr.chanOff then (d2.updCh .a (fun x => { x with ok := true })).updPwr (fun w => { w with chanOff := false }) else d2
  afterStep (setLadder 2 (ringListen (setStage 6 d3)))

/-- The lowest state since the latest HOLD. -/
def deepen (d : Dev) : Dev := d.updPwr (fun w => { w with deep := max w.deep d.ladder })

/-- R503: stepper axes lose their index at the return to HOLD; from DORMANT or KEEP every one of them. -/
def ladderPosLost (d : Dev) : Dev :=
  forL (d.pat.aux.filter (fun e => e.2.stepper && (decide (4 ≤ d.pwr.deep) || !e.2.retIdle)))
    (fun e d => bothPlanes (fun p => posLost p e.1) d) d

/-- IDLE to HOLD, after the first cycle at T_cell. -/
def upToHold (d : Dev) : Dev := afterStep (setLadder 1 ((ladderPosLost d).updPwr (fun w => { w with deep := 0 })))

/-- HOLD to RUN (R496, R502): the cores run on, and position loops re-base. -/
def upToRun (d : Dev) : Dev :=
  let d1 := parkCores parkedCores false (setLadder 0 d)
  afterStep (bothPlanes (fun p d => forL d.loopAxes (fun a d => d.updLax p a (fun x => { x with srcNew := true })) d) d1)

/-- The raise before a step lies at least 40 µs back (R487). -/
def Dev.raisedEnough (d : Dev) : Bool := d.pwr.raised.any (fun t => decide (t + 40000 * nsUnit ≤ d.time.tr))

/-- Every used port is SEWN. -/
def Dev.allSewn (d : Dev) : Bool := d.usedPorts.all (fun n => d.lsState n == lsSewn)

/-- The length of the next cycle and whether it is one of IDLE, at the boundary decision (R33, R495, R502). -/
def Dev.ladderLen (d : Dev) : Nat × Bool :=
  if d.ladder = 1 && d.descends then (d.tIdle, true)
  else if d.ladder = 2 then
    if d.pwr.target.any (fun t => decide (t ≤ 1)) && d.raisedEnough && d.allSewn then (d.tCell, false)
    else if d.cyc.idleLen then (d.tIdle, true)
    else if d.cyc.toHold then (d.decideLen, false)
    else (d.tIdle, true)
  else (d.decideLen, false)

/-- The ladder at a boundary (R495, R502): `tick` is a planning-tick boundary, `idle` says that the cycle it opens has the length
of IDLE. -/
def ladderBoundary (tick idle : Bool) (d0 : Dev) : Dev :=
  let d := deepen d0
  match d.ladder with
  | 0 => if tick && d.descends then toHold d else d
  | 1 =>
    if idle then afterStep (deepen (setLadder 2 d))
    else if tick && d.pwr.target = some 0 && d.raisedEnough then upToRun d
    else d
  | 2 =>
    if d.descends then toSleep d
    else if d.cyc.toHold && !idle then upToHold { d with cyc := { d.cyc with toHold := false } }
    else if !idle && d.cyc.running && d.pwr.target.any (fun t => decide (t ≤ 1)) then
      beginStep 1 { d with cyc := { d.cyc with toHold := true } }
    else d
  | _ => d

/-- Records the wakes that waited for the C die. -/
def noteWakes (d : Dev) : Dev :=
  forL d.pwr.wakeNote (fun s d => raise .WAKE wShared [s] d) (d.updPwr (fun w => { w with wakeNote := [] }))

/-- DORMANT to SLEEP (R502): the Pattern reloads from its verified copy in DRAM and is tasted; a plane that fails follows R71 and
R504. -/
def dormantExit (passA passB : Bool) (s : Part) : Part :=
  let d := s.dev
  let pat := d.pat
  let d1 : Dev := { d with
    regs := loadRegs pat d.regs, staging := loadRegs pat d.staging, planeA := loadPlane pat, planeB := loadPlane pat }
  let d2 := bothPlanes (fun p d => showBanks p (loadMatrices p d)) (d1.updBoot (fun b => { b with vcoreEn := true }))
  let d3 := ((d2.wr .SYS_CYCLE_K pat.cell.k).wr .SYS_CYCLE_TICK pat.cell.tick).wr .SYS_CYCLE_SYNC_PAT (b2n pat.cell.syncPat)
  let d4 := (((d3.wrBoth .MEM_DRAM_STAT_SIZE (d.rd .MEM_DRAM_STAT_SIZE)).wrBoth .MEM_DRAM_STAT_TRAINED 1).wr
    .HST_STATUS_MBX_READY 1)
  let d5 := setStage 5 (setStage 4 d4)
  let lost (p : Plane) (pass : Bool) (d : Dev) : Dev := if pass then d else planeOut p (tasteFail p 2 d)
  let d6 := lost .B passB (lost .A passA (if passA then d5 else setActive .B d5))
  let d7 := enterSleep (noteWakes (staysLost d6))
  { mems := { s.mems with a := loadLocals pat s.mems.a, b := loadLocals pat s.mems.b }
    dev := afterStep (setLadder 3 d7) }

/-- ASCENT_STEP_DONE (R502): the work of an upward step is complete and the controller arrives in the state above. -/
def ascentStepDone (passA passB : Bool) (s : Part) : Part :=
  match s.dev.pwr.busyTo with
  | some 3 => if s.dev.ladder = 4 then dormantExit passA passB s else s
  | some 2 => if s.dev.ladder = 3 then s.onDev toIdle else s
  | _ => s

/-- Arrival in SLEEP from KEEP once the Pattern is tasted, or none was found (R500). -/
def keepArrive (d : Dev) : Dev :=
  if d.boot.keepExit && (!d.boot.fromReset || d.rd .SYS_STATE_STAGE == 15) then
    afterStep (setLadder 3 (enterSleep ((staysLost d).updBoot (fun b => { b with keepExit := false }))))
  else d

/-- WAKE (R501): an enabled source that acts in the present state fires. In KEEP the wake is a reset (R500, R534). -/
def wake (src : Nat) (s : Part) : Part :=
  let st := s.dev.ladder
  if !wakeActs src st || !wakeEnabled src s.dev then s
  else if st = 5 then
    let d := wakeNoted src s.dev
    let goal := d.rd .SYS_LADDER_WAKE_TO
    (resetPart true false false 0 { s with dev := d }).onDev (fun x => x.updPwr (fun w => { w with
      wakeNote := d.pwr.wakeNote, deep := 5, busyTo := some 3, target := if goal < 3 then some goal else none }))
  else s.onDev (fun d => wakeAscent (wakeNoted src d))

end Sys2Proof.Machine
end

