-- ==== Sys2Proof/Syntax.lean ====
section
/-! DEFINITION. The commands: one constructor per row of the opcode table, in its order, each with the row's operands. Operands of
an event are what the outside decides: which instance it concerns, the levels, frames and outcomes that reach the part. -/

namespace Sys2Proof

open Sys2Proof.Machine

/-- Pin levels that the input filter takes over: the instant and the equal samples seen by then (R194). -/
structure PinLevels where
  time : Nat
  seen : Nat
  deriving DecidableEq, Repr

/-- A wire-fault condition that has been absent for 10 ms: its pair and class (R209). -/
structure WireEnd where
  pair : Fin 3
  cls : Fin 8
  deriving DecidableEq, Repr

/-- An instant at which a divider output may step, and whether its read-back is wrong there (R217). -/
structure PoTick where
  time : Nat
  bad : Bool
  deriving DecidableEq, Repr

/-- A command of the block. A row of a mailbox command carries its header (R508); a row of a register write carries its writer
where a plane or a core matters; a row of a core's instruction carries the plane, the core and the fields of the instruction
(R427, R429), with what ECC finds (R475, R476) and which halves of a store are lost (R470) where it accesses memory. -/
inductive Instr where
  | boundary
  | phaseStart (n : Fin 6) (left : List (Plane × Nat)) (late : Bool) (words : List CoreWord)
  | rackComplete (crcOk : Bool) (markA : Bool) (markB : Bool) (claimA : Option Plane) (claimB : Option Plane)
  | solverMatrixComplete (p : Plane) (id : Fin 256)
  | batchComplete (p : Plane) (cls : Fin 2)
  | cutMaxExpiry (p : Plane) (cls : Fin 2)
  | syncInEdge (t : Nat) (width : Nat) (falling : Bool)
  | edgeMiss
  | syncCtlWrite (w : Word)
  | apply (who : Actor) (b : Blk) (w : Word)
  | registerWrite (a : Nat) (w : Word)
  | powerUp
  | reset (pin : Bool) (rail : Bool) (railId : Fin 16)
  | resetRelease
  | dramTrained (size : Fin 16)
  | patternLoaded
  | tasteDone (passA : Bool) (passB : Bool) (chA : Bool) (chB : Bool) (agree : Bool) (ed : Nat) (vf : Nat)
  | patWrite (h : MbxHdr) (ofs : Nat) (winOfs : Nat) (len : Nat) (first : Bool) (last : Bool) (m : Image)
  | patActivate (h : MbxHdr)
  | patSwitch (h : MbxHdr)
  | flashRead (h : MbxHdr) (ofs : Nat) (len : Nat) (winOfs : Nat)
  | keyProgram (h : MbxHdr) (slot : Fin 4) (hash : Nat)
  | keyRevoke (h : MbxHdr) (slot : Fin 4) (signer : Fin 4) (key : Nat) (sig : List Byte)
  | presChange (a : Bool) (bn : Bool)
  | presenceAssert
  | presDisagree
  | toileWrite (w : Word)
  | segAppend (h : MbxHdr) (n : Fin 8) (recs : List (List Nat))
  | auxMove (h : MbxHdr) (m : Fin 64) (mv : Move)
  | msTableLoad (h : MbxHdr) (t : Fin 4) (vals : List Nat)
  | axisSetpos (h : MbxHdr) (m : Fin 64) (pos : Int)
  | msPark (h : MbxHdr) (m : Fin 64)
  | stop (via : Via) (t : Fin 24)
  | qstop (via : Via) (t : Fin 24)
  | resume (via : Via) (t : Fin 24)
  | abort (via : Via) (t : Fin 24)
  | ppeOvr (who : Actor) (i : Fin 24) (v : BitVec 16)
  | couple (h : MbxHdr) (b : Fin 4)
  | decouple (h : MbxHdr) (b : Fin 4)
  | loopClear (h : MbxHdr) (a : Fin 128)
  | slvDelta (h : MbxHdr) (l : List Delta)
  | slvDeltaHi (who : Actor) (win : Fin 12) (hi : Word)
  | deltaStallEnd (p : Plane)
  | slvCut (p : Plane) (c : Fin 10) (done : Bool) (tdone : Bool)
  | fbCount (n : Fin 18) (a : Bool) (b : Bool) (z : Bool) (t : PinLevels)
  | ssiTransfer (n : Fin 16) (lowBefore : Bool) (first : Bool) (raw : Nat) (par : Bool) (closing : Bool)
  | wireFault (n : Fin 18) (pair : Fin 3) (cls : Fin 8)
  | wireFaultClear (n : Fin 18) (pair : WireEnd)
  | idxArm (n : Fin 18)
  | clrRef (n : Fin 18)
  | fbClrCnt (n : Fin 18)
  | safetyCycleStart (edA : Nat) (edB : Nat) (rb : Nat) (late : Bool)
  | selftestDone (okA : Bool) (okB : Bool)
  | handoverTimeout
  | siEdge (n : Fin 16) (hiA : Bool) (hiB : Bool)
  | siFilterExpiry (n : Fin 16)
  | pairDiscrep (i : Fin 8)
  | testPulse (k : Fin 4) (seen : Nat) (rbBad : Bool)
  | soTestPulse (n : Fin 8) (high : Bool) (cross : List Nat)
  | edmWindow (e : Fin 8) (dropped : Bool)
  | vfieldLow
  | vfieldRev
  | vfieldHigh
  | restartRequest (seenA : Bool) (seenB : Bool)
  | degrExpired
  | degrLeave (b : Fin 9)
  | ssmClear (arm : Fin 8)
  | tasteSignature (p : Plane) (ok : Bool) (lines : Nat)
  | arbLink
  | reloadDone (p : Plane) (ok : Bool)
  | bulkPassDone (p : Plane) (marked : Nat)
  | rejoinRetry (p : Plane)
  | revert
  | riddleStart
  | riddleEnd
  | riddleDefer
  | riddleNow
  | redClrCnt
  | timeInit (h : MbxHdr) (b : Fin 8) (t : Nat)
  | timeStep (h : MbxHdr) (b : Fin 8) (a : StepArg)
  | tbNowRead (b : Fin 8)
  | ptpStamp (q : Fin 2) (seqId : Nat) (msg : Nat) (egress : Bool)
  | ptpInfoRead (q : Fin 2)
  | ptpTsRead (q : Fin 2)
  | ptpSyncTimeout (q : Fin 2)
  | tevEvent (o : Fin 8)
  | timerExpiry (p : Plane) (t : Fin 64)
  | timerArm (who : Actor) (t : Fin 64) (cfg : Fin 16)
  | timerDisarm (who : Actor) (t : Fin 64) (cfg : Fin 16)
  | syncSend (n : Fin 4)
  | syncFrame (n : Fin 4) (x : Fin 512) (q : Path) (f : SyncRx)
  | syncFrameMissed (n : Fin 4) (x : Fin 512) (q : Path)
  | cycleFrameAccept (n : Fin 4) (src : Fin 512) (x : Fin 512) (ws : CycleRx)
  | permissionSubframe (n : Fin 4) (x : Fin 512) (c : Chan) (seq : Nat) (on : List Nat) (valid : PermHead)
  | slotFrame (n : Fin 4) (slot : Nat) (q : Path) (fin : RxHead) (err : Int) (inTime : Bool) (src : Fin 512)
      (pay : SlotPayload)
  | slotEmpty (n : Fin 4) (slot : Nat)
  | guardCutoff (n : Fin 4)
  | tackFrame (n : Fin 4) (rank : Fin 16) (sched : Nat) (own : Option Path) (ok : TackRx) (dly : Nat)
  | claimFrame (n : Fin 4) (src : Fin 512) (tr : Nat) (hearers : List Nat) (clash : ClaimRx)
  | tListenExpiry (n : Fin 4)
  | tTackExpiry (n : Fin 4)
  | laneLockLoss (n : Fin 4) (x : Fin 512) (q : Path)
  | laneRelock (n : Fin 4) (x : Fin 512) (q : Path)
  | lsRestart (n : Fin 4)
  | clrHeal (n : Fin 4)
  | lsClrCnt (n : Fin 4)
  | capArm
  | capStop
  | postTExpiry
  | capRd (w : Word)
  | celRd (w : Word)
  | cellarLoss
  | trgPulse (l : Fin 4) (width : Nat) (t : Nat)
  | trgLineFault (l : Fin 4)
  | trgCalibration
  | cal
  | interruptClaim (p : Plane) (src : Fin 512)
  | interruptDelivery (p : Plane) (c : Fin 10)
  | coreWake (p : Plane) (c : Fin 10)
  | preemptSwitch (p : Plane) (c : Fin 10)
  | tskPost (p : Plane) (c : Fin 10) (t : Fin 1024)
  | postStallEnd (p : Plane) (c : Fin 10)
  | postTimeout (p : Plane) (c : Fin 10)
  | msgRelease (p : Plane) (t : Fin 1024)
  | tskTake (p : Plane) (c : Fin 10)
  | tskDone (p : Plane) (c : Fin 10)
  | icuRaise (who : Actor) (src : Fin 512)
  | icuSrcWrite (who : Actor) (f : IcuReg) (w : Word)
  | taskPost (h : MbxHdr) (t : Fin 1024) (arg : Word)
  | add (p : Plane) (c : Fin 10) (sat : Bool) (gd : Fin 32) (ga : Fin 32) (gb : Fin 32)
  | sub (p : Plane) (c : Fin 10) (sat : Bool) (gd : Fin 32) (ga : Fin 32) (gb : Fin 32)
  | and (p : Plane) (c : Fin 10) (gd : Fin 32) (ga : Fin 32) (gb : Fin 32)
  | or (p : Plane) (c : Fin 10) (gd : Fin 32) (ga : Fin 32) (gb : Fin 32)
  | xor (p : Plane) (c : Fin 10) (gd : Fin 32) (ga : Fin 32) (gb : Fin 32)
  | shl (p : Plane) (c : Fin 10) (sat : Bool) (gd : Fin 32) (ga : Fin 32) (gb : Fin 32)
  | shr (p : Plane) (c : Fin 10) (gd : Fin 32) (ga : Fin 32) (gb : Fin 32)
  | sar (p : Plane) (c : Fin 10) (gd : Fin 32) (ga : Fin 32) (gb : Fin 32)
  | slt (p : Plane) (c : Fin 10) (gd : Fin 32) (ga : Fin 32) (gb : Fin 32)
  | sltu (p : Plane) (c : Fin 10) (gd : Fin 32) (ga : Fin 32) (gb : Fin 32)
  | min (p : Plane) (c : Fin 10) (gd : Fin 32) (ga : Fin 32) (gb : Fin 32)
  | max (p : Plane) (c : Fin 10) (gd : Fin 32) (ga : Fin 32) (gb : Fin 32)
  | mul (p : Plane) (c : Fin 10) (sat : Bool) (gd : Fin 32) (ga : Fin 32) (gb : Fin 32)
  | mulh (p : Plane) (c : Fin 10) (gd : Fin 32) (ga : Fin 32) (gb : Fin 32)
  | mulhu (p : Plane) (c : Fin 10) (gd : Fin 32) (ga : Fin 32) (gb : Fin 32)
  | div (p : Plane) (c : Fin 10) (sat : Bool) (gd : Fin 32) (ga : Fin 32) (gb : Fin 32)
  | divu (p : Plane) (c : Fin 10) (gd : Fin 32) (ga : Fin 32) (gb : Fin 32)
  | rem (p : Plane) (c : Fin 10) (gd : Fin 32) (ga : Fin 32) (gb : Fin 32)
  | remu (p : Plane) (c : Fin 10) (gd : Fin 32) (ga : Fin 32) (gb : Fin 32)
  | exp (p : Plane) (c : Fin 10) (gd : Fin 32) (ga : Fin 32)
  | norm (p : Plane) (c : Fin 10) (gd : Fin 32) (gb : Fin 32) (ga : Fin 32)
  | expa (p : Plane) (c : Fin 10) (gd : Fin 32) (a : Fin 4)
  | mfs (p : Plane) (c : Fin 10) (gd : Fin 32) (n : Fin 8)
  | mts (p : Plane) (c : Fin 10) (n : Fin 8) (gb : Fin 32)
  | addiS (p : Plane) (c : Fin 10) (gd : Fin 32) (ga : Fin 32) (imm : BitVec 16)
  | addi (p : Plane) (c : Fin 10) (gd : Fin 32) (ga : Fin 32) (imm : BitVec 16)
  | andi (p : Plane) (c : Fin 10) (gd : Fin 32) (ga : Fin 32) (imm : BitVec 16)
  | ori (p : Plane) (c : Fin 10) (gd : Fin 32) (ga : Fin 32) (imm : BitVec 16)
  | lui (p : Plane) (c : Fin 10) (gd : Fin 32) (imm : BitVec 16)
  | ld (p : Plane) (c : Fin 10) (g : Fin 32) (pi : Fin 8) (mi : Fin 8) (pm : Bool) (size : Fin 4) (sx : Bool)
      (disp : BitVec 11) (ecc : Ecc)
  | st (p : Plane) (c : Fin 10) (g : Fin 32) (pi : Fin 8) (mi : Fin 8) (pm : Bool) (size : Fin 4) (disp : BitVec 11)
      (lostLo : Bool) (lostHi : Bool)
  | postedStoreWritten (p : Plane) (c : Fin 10)
  | mac (p : Plane) (c : Fin 10) (a : Fin 4) (ga : Fin 32) (gb : Fin 32) (sat : Bool)
  | msu (p : Plane) (c : Fin 10) (a : Fin 4) (ga : Fin 32) (gb : Fin 32) (sat : Bool)
  | amul (p : Plane) (c : Fin 10) (a : Fin 4) (ga : Fin 32) (gb : Fin 32) (sat : Bool)
  | aclr (p : Plane) (c : Fin 10) (a : Fin 4)
  | aadd (p : Plane) (c : Fin 10) (a : Fin 4) (ga : Fin 32) (sat : Bool) (sh : Fin 64)
  | ashl (p : Plane) (c : Fin 10) (a : Fin 4) (sat : Bool) (sh : Fin 64)
  | ashr (p : Plane) (c : Fin 10) (a : Fin 4) (sh : Fin 64)
  | aext (p : Plane) (c : Fin 10) (a : Fin 4) (gd : Fin 32) (sh : Fin 64) (rnd : Bool)
  | aextd (p : Plane) (c : Fin 10) (a : Fin 4) (gd : Fin 32) (sh : Fin 64) (rnd : Bool)
  | ains (p : Plane) (c : Fin 10) (a : Fin 4) (gs : Fin 32) (sh : Fin 64)
  | beq (p : Plane) (c : Fin 10) (ga : Fin 32) (gb : Fin 32) (off : BitVec 16)
  | bne (p : Plane) (c : Fin 10) (ga : Fin 32) (gb : Fin 32) (off : BitVec 16)
  | blt (p : Plane) (c : Fin 10) (ga : Fin 32) (gb : Fin 32) (off : BitVec 16)
  | bge (p : Plane) (c : Fin 10) (ga : Fin 32) (gb : Fin 32) (off : BitVec 16)
  | bltu (p : Plane) (c : Fin 10) (ga : Fin 32) (gb : Fin 32) (off : BitVec 16)
  | bgeu (p : Plane) (c : Fin 10) (ga : Fin 32) (gb : Fin 32) (off : BitVec 16)
  | jal (p : Plane) (c : Fin 10) (gd : Fin 32) (off : BitVec 21)
  | jalr (p : Plane) (c : Fin 10) (gd : Fin 32) (ga : Fin 32)
  | movp (p : Plane) (c : Fin 10) (i : Fin 8) (g : Fin 32)
  | movm (p : Plane) (c : Fin 10) (i : Fin 8) (g : Fin 32)
  | mfp (p : Plane) (c : Fin 10) (g : Fin 32) (i : Fin 8)
  | paddi (p : Plane) (c : Fin 10) (i : Fin 8) (imm : BitVec 16)
  | amoadd (p : Plane) (c : Fin 10) (g : Fin 32) (pi : Fin 8) (pm : Bool) (size : Fin 4) (disp : BitVec 11) (ecc : Ecc)
      (lost : Bool)
  | swap (p : Plane) (c : Fin 10) (g : Fin 32) (pi : Fin 8) (pm : Bool) (size : Fin 4) (disp : BitVec 11) (ecc : Ecc)
      (lost : Bool)
  | ftap (p : Plane) (c : Fin 10) (a : Fin 4) (px : Fin 8) (mx : Fin 8) (pc : Fin 8) (mc : Fin 8) (sat : Bool) (neg : Bool)
      (ecc : Ecc)
  | ftap2 (p : Plane) (c : Fin 10) (a : Fin 4) (px : Fin 8) (mx : Fin 8) (pc : Fin 8) (mc : Fin 8) (sat : Bool) (neg : Bool)
      (ecc : Ecc)
  | sleep (p : Plane) (c : Fin 10)
  | eret (p : Plane) (c : Fin 10)
  | reti (p : Plane) (c : Fin 10)
  | trap (p : Plane) (c : Fin 10) (n : Fin 256)
  | fence (p : Plane) (c : Fin 10)
  | memBankpwr (who : Actor) (i : Fin 2) (w : Word)
  | bankFillDone (p : Plane) (b : Fin 32)
  | dramScrub (a : Nat) (e : Ecc)
  | paceWindow (laps : List Nat)
  | tempReading (tj : Int)
  | avsTransaction (write : Bool) (ok : Bool)
  | avsRetry (ok : Bool)
  | pwrAvsWrite (w : Word)
  | pwrClr
  | ladderTarget (who : Actor) (w : Word)
  | ladderSet (h : MbxHdr) (t : Fin 8)
  | ladderDescentTimer
  | wake (src : Fin 20)
  | ascentStepDone (passA : Bool) (passB : Bool)
  | doorbell (u : Bool) (wp : Nat) (cmds : List MbxHdr)
  | rplRp (rp : Nat)
  | hstProto (w : Word)
  | bar4Write (o : Nat) (bs : List Byte)
  | kick (t : BitVec 16)
  | hostTimeout
  | coreDb
  | pcieLinkDown
  | debugUnlock (h : MbxHdr) (tok : DbgToken)
  | debugLock (h : MbxHdr)
  | nonceRead
  | cellarNote (h : MbxHdr) (text : List Nat)
  | fusesRead
  | flashOperationDone (read : Bool) (ok : Bool)
  | ppeSignalsCut (p : Plane)
  | aiSample (c : Fin 4) (code : Int) (cm : Bool)
  | fastChannelSample (c : Fin 16) (k : Nat)
  | poOutputStep (o : Fin 4) (t : PoTick)
  | soReadbackFault (n : Fin 8) (high : Bool)
  | vfieldRestored
  | vkeepLoss
  | symbolLock (n : Fin 4) (q : Path)
  | openRelisten (n : Fin 4)
  | trgLineIdle (l : Fin 4)
  | trgOutputPulse (l : Fin 4)
  | illegal (p : Plane) (c : Fin 10)
  | pcieLinkUp (w : Fin 4) (gen : Fin 4)
  | ethFrameRx (mac : Fin 2) (len : Nat)
  | debugPortAccess (op : DebugOp)
  | jtagInstruction (i : JtagInstr)
  deriving DecidableEq, Repr

end Sys2Proof
end

