-- ==== Sys2Proof/Machine/State.lean ====
section
/-! DEFINITION. The state of the block: the queue of commands that wait, the fuses, and the part with its memories and its
device; the state after reset; the reasons for a stop. -/

namespace Sys2Proof.Machine

/-- Faults. No rule of the spec stops the part with a fault outside its own state, and no command raises one: the type has no
constructor. -/
inductive Fault where
  deriving DecidableEq, Repr

/-- Refusals. -/
inductive Refusal where
  /-- A command that has no meaning yet, by its mnemonic. No arm of `exec` raises it; it would be safe. -/
  | notModelled (mnemonic : String)
  deriving DecidableEq, Repr

/-- The state. `pending` holds the commands that wait, first in, first out; `vault` the fuses (R53); `part` everything else. -/
structure State where
  pending : List Instr := []
  vault : Vault := {}
  part : Part := {}
  deriving DecidableEq, Repr

/-- The state right after the power-on reset (R532, R534), with reset still held: registers at their reset values, TB3 running,
RSTCAUSE showing a power-on reset, blank fuses and an erased flash (log entries 2 and 3), nothing waiting. -/
def State.reset : State where
  pending := []
  vault := {}
  part := { dev := (({ boot := { pgood := true }, time := { bases := (⟨{}, []⟩ : Tab BaseSt).set 3 tb3Start } } : Dev).wr .TB_STAT_STATE 1 3).wr .SYS_RSTCAUSE_POR 1 }

end Sys2Proof.Machine
end

