-- ==== Sys2Proof/Machine/Lift.lean ====
section
/-! DEFINITION. Lifting a change of the device, of the part or of the state to the meaning of a command. -/

namespace Sys2Proof.Machine

/-- What a command answers. -/
abbrev Out := Host.Outcome State Fault Refusal

/-- A command that changes the device alone. -/
def doDev (f : Dev → Dev) (s : State) : Out := .next { s with part := s.part.onDev f }

/-- A command that changes memories too. -/
def doPart (f : Part → Part) (s : State) : Out := .next { s with part := f s.part }

/-- A command that changes fuses too. -/
def doState (f : State → State) (s : State) : Out := .next (f s)

end Sys2Proof.Machine
end

