-- ==== Sys2Proof/Machine/BootRows.lean ====
section
/-! DEFINITION. Rows of start-up, the Pattern and the keys (02_pattern_startup.md). -/

namespace Sys2Proof.Machine

/-- A key command changes the fuses beside the device (R54). -/
def keyProgramS (h : MbxHdr) (slot hash : Nat) (s : State) : State :=
  let v1 := keyProgramVault h slot hash s.vault s.part.dev
  { s with vault := v1, part := s.part.onDev (keyDev h (keyProgramFault s.vault s.part.dev slot) v1) }

/-- KEY_REVOKE on the fuses and the device (R54). -/
def keyRevokeS (h : MbxHdr) (slot signer key : Nat) (sig : List Byte) (s : State) : State :=
  let v1 := keyRevokeVault h slot signer key sig s.vault s.part.dev
  { s with vault := v1, part := s.part.onDev (keyDev h (keyRevokeFault s.vault s.part.dev slot signer key sig) v1) }

/-- POWER_UP (R532). VKEEP rises, TB3 starts and the power-up sequence drives the rails. -/
def execPowerUp (s : State) : Out :=
  doPart powerUp s

/-- RESET (R534). A reset cause occurs and outputs, transmitters and the link go to their reset state. -/
def execReset (pin : Bool) (rail : Bool) (railId : Fin 16) (s : State) : Out :=
  doPart (reset pin rail railId) s

/-- RESET_RELEASE (R70). Reset is released, TR starts and start-up stages begin. -/
def execResetRelease (s : State) : Out :=
  doDev resetRelease s

/-- DRAM_TRAINED (R70). DRAM training completes and stage SELECT begins. -/
def execDramTrained (size : Fin 16) (s : State) : Out :=
  doDev (dramTrained size) s

/-- PATTERN_LOADED (R70). Image reading, digests, signatures and load checks complete and sections are distributed. -/
def execPatternLoaded (s : State) : Out :=
  doPart (fun x => (patternLoaded s.vault x).onDev keepArrive) s

/-- TASTE_DONE (R71). Start-up tasting and safety self-tests complete and the controller continues, retries or stops. -/
def execTasteDone (passA : Bool) (passB : Bool) (chA : Bool) (chB : Bool) (agree : Bool) (ed : Nat) (vf : Nat)
    (s : State) : Out :=
  doPart (fun x => (tasteDonePart passA passB chA chB agree ed vf x).onDev keepArrive) s

/-- PAT_WRITE (R516). Mailbox command writing one chunk of a Pattern image into the inactive flash slot. -/
def execPatWrite (h : MbxHdr) (ofs : Nat) (winOfs : Nat) (len : Nat) (first : Bool) (last : Bool) (m : Image)
    (s : State) : Out :=
  doPart (patWrite s.vault h ofs winOfs len first last m) s

/-- PAT_ACTIVATE (R66). Mailbox command that activates the Pattern that boot selection would choose. -/
def execPatActivate (h : MbxHdr) (s : State) : Out :=
  doPart (patActivate h) s

/-- PAT_SWITCH (R62). Mailbox command that withdraws the active slot under presence. -/
def execPatSwitch (h : MbxHdr) (s : State) : Out :=
  doPart (patSwitch s.vault h) s

/-- FLASH_READ (R514). Mailbox command that reads flash into the shared window. -/
def execFlashRead (h : MbxHdr) (ofs : Nat) (len : Nat) (winOfs : Nat) (s : State) : Out :=
  doDev (mailboxLong h (flashReadExe ofs len winOfs)) s

/-- KEY_PROGRAM (R54). Mailbox command that programs an empty key slot under presence. -/
def execKeyProgram (h : MbxHdr) (slot : Fin 4) (hash : Nat) (s : State) : Out :=
  doState (keyProgramS h slot hash) s

/-- KEY_REVOKE (R54). Mailbox command that revokes a key slot under presence and a signature. -/
def execKeyRevoke (h : MbxHdr) (slot : Fin 4) (signer : Fin 4) (key : Nat) (sig : List Byte) (s : State) : Out :=
  doState (keyRevokeS h slot signer key sig) s

/-- PRES_CHANGE (R55). A filtered presence pin changes level; presence ends at once when a pin leaves its asserted level. -/
def execPresChange (a : Bool) (bn : Bool) (s : State) : Out :=
  doDev (presChange a bn) s

/-- PRESENCE_ASSERT (R55). Both presence pins have held their asserted levels for 200 ms and presence is asserted. -/
def execPresenceAssert (s : State) : Out :=
  doDev presenceAssert s

/-- PRES_DISAGREE (R57). The presence pins disagree for more than 200 ms. -/
def execPresDisagree (s : State) : Out :=
  doDev presDisagree s

/-- TOILE_WRITE (R69). A write to PAT_CTL.TOILE requests toile mode on or off at the next boundary. -/
def execToileWrite (w : Word) (s : State) : Out :=
  doDev (toileWrite w.toNat) s

end Sys2Proof.Machine
end

