-- ==== Sys2Proof/Machine/CaptureRows.lean ====
section
/-! DEFINITION. Rows of capture, the trigger bus and the cellar book (14_capture_cellar_book.md). -/

namespace Sys2Proof.Machine

/-- CAP_ARM (R404). A write of ARM to CAP_ARM starts a capture run at the next boundary or is refused. -/
def execCapArm (s : State) : Out :=
  doDev capArm s

/-- CAP_STOP (R404). A write of STOP to CAP_ARM ends the run at the next boundary. -/
def execCapStop (s : State) : Out :=
  doDev capStopWrite s

/-- POST_T_EXPIRY (R405). POST_T after the stop trigger elapses and capture stops at the next boundary. -/
def execPostTExpiry (s : State) : Out :=
  doDev postExpiry s

/-- CAP_RD (R407). A write of CAP_RD reports the host read position and re-arms the overwrite notification. -/
def execCapRd (w : Word) (s : State) : Out :=
  doDev (capRdWrite w.toNat) s

/-- CEL_RD (R415). A write of CEL_RD reports the host's cellar read position. -/
def execCelRd (w : Word) (s : State) : Out :=
  doDev (celRdWrite w.toNat) s

/-- CELLAR_LOSS (R415). Space returns in the cellar staging buffer and a loss record is written per affected writer. -/
def execCellarLoss (s : State) : Out :=
  doPart cellarDrain s

/-- TRG_PULSE (R411). A trigger bus pulse is received, its sender identified and its instant compensated. -/
def execTrgPulse (l : Fin 4) (width : Nat) (t : Nat) (s : State) : Out :=
  doPart (trgPulse l width t) s

/-- TRG_LINE_FAULT (R411). A trigger line stays active for more than 2 µs. -/
def execTrgLineFault (l : Fin 4) (s : State) : Out :=
  doDev (trgLineFault l) s

/-- TRG_CALIBRATION (R412). A calibration window sequence starts at a TB0 multiple of 4 s. -/
def execTrgCalibration (s : State) : Out :=
  doDev trgCalibration s

/-- CAL (R412). A write of CAL requests a trigger bus calibration at the next multiple of 4 s. -/
def execCal (s : State) : Out :=
  doDev calWrite s

/-- FAST_CHANNEL_SAMPLE (R394). A fast capture channel samples at boundary plus k × DIV µs, and triggers test the sample. -/
def execFastChannelSample (c : Fin 16) (k : Nat) (s : State) : Out :=
  doPart (fastSample c k) s

/-- TRG_LINE_IDLE (R411). A faulty trigger line has been idle for 10 ms and LINE_FLT clears. -/
def execTrgLineIdle (l : Fin 4) (s : State) : Out :=
  doDev (trgLineIdle l) s

/-- TRG_OUTPUT_PULSE (R410). A pending trigger-bus output pulse or calibration echo is driven once the line has been idle for 1
µs or the echo delay has passed. -/
def execTrgOutputPulse (l : Fin 4) (s : State) : Out :=
  doDev (trgOutput l) s

end Sys2Proof.Machine
end

