-- ==== Sys2Proof/Machine/Fd32.lean ====
section
/-! DEFINITION. The FD32 instructions that work on registers alone (15_cores_datapath.md R423 to R430 and the opcode map):
integer, divide, special, immediate, accumulator, branch, jump and pointer class, TRAP and the ILLEGAL exception. -/

namespace Sys2Proof.Machine

/-! ### Integer and divide class -/

/-- gd := ga op gb with flags. -/
def aluF (f : Word → Word → Word → Word × FlagOut) (gd ga gb : Nat) (k : Core) : Core :=
  let r := f k.csw (k.rg ga) (k.rg gb)
  (k.wg gd r.1).flag r.2

/-- gd := ga op gb without flags. -/
def alu (f : Word → Word → Word) (gd ga gb : Nat) (k : Core) : Core := k.wg gd (f (k.rg ga) (k.rg gb))

def addOp (s : Bool) (csw a b : Word) : Word × FlagOut := over32 csw s (a.toInt + b.toInt)
def subOp (s : Bool) (csw a b : Word) : Word × FlagOut := over32 csw s (a.toInt - b.toInt)
def mulOp (s : Bool) (csw a b : Word) : Word × FlagOut := over32 csw s (a.toInt * b.toInt)
def sltOp (a b : Word) : Word := if a.toInt < b.toInt then 1 else 0
def sltuOp (a b : Word) : Word := if a.toNat < b.toNat then 1 else 0
def minOp (a b : Word) : Word := if a.toInt ≤ b.toInt then a else b
def maxOp (a b : Word) : Word := if a.toInt ≤ b.toInt then b else a
def mulhOp (a b : Word) : Word := BitVec.ofInt 32 (a.toInt * b.toInt / (2 ^ 32 : Nat))
def mulhuOp (a b : Word) : Word := BitVec.ofNat 32 (a.toNat * b.toNat / 2 ^ 32)

/-- ADDI and ADDI.S (R424): gd := ga + IMM with flags. -/
def addImm (s : Bool) (gd ga : Nat) (imm : BitVec 16) (k : Core) : Core :=
  let r := over32 k.csw s ((k.rg ga).toInt + imm.toInt)
  (k.wg gd r.1).flag r.2

/-! ### Special class -/

/-- NORM gd, gb, ga (R430): the value to gd, the count to gb; gd = gb is illegal (R427). -/
def normI (gd gb ga : Nat) (k : Core) : CoreRes :=
  if gd = gb then .exc excIllegal
  else
    let v := k.rg ga
    .done ((k.wg gd (v <<< expW v)).wg gb (BitVec.ofNat 32 (expW v))).next

/-- MFS: HSCNT counts the handshakes of the datapath, whose number per instruction the spec does not give (free value). -/
def mfs (p : Plane) (c gd n : Nat) (d : Dev) : Dev :=
  if d.coreActive p c then
    if n = 7 then
      let h := Config.handshakes d.free p.num c
      let d1 := d.takeFree.2
      d1.setCore p c (({ (d.core p c) with hscnt := h }).wg gd h).next
    else d.setCore p c ((d.core p c).wg gd ((d.core p c).sys p c n)).next
  else d

/-! ### Accumulator class -/

/-- aN := an exact integer under R424. -/
def accTo (s : Bool) (a : Nat) (x : Int) (k : Core) : Core :=
  let r := overAcc k.csw s x
  (k.wa a r.1).flag r.2

/-- ga × gb, exact. -/
def prod (k : Core) (ga gb : Nat) : Int := (k.rg ga).toInt * (k.rg gb).toInt

/-- AEXT: shift right with the rounding of R425, then saturation to 32 bits. -/
def aext (a gd sh : Nat) (rnd : Bool) (k : Core) : Core :=
  let r := accStore 32 (roundShift (k.ra a).toInt sh rnd)
  (k.wg gd (BitVec.ofInt 32 r.1)).flag r.2

/-- A register pair needs g(gd + 1): gd = 31 has none and is illegal (DESIGN CHOICE, log entry 21). -/
def aextd (a gd sh : Nat) (rnd : Bool) (k : Core) : CoreRes :=
  if gd = 31 then .exc excIllegal
  else
    let r := accStore 64 (roundShift (k.ra a).toInt sh rnd)
    .done ((k.wpair gd (unsigned 64 r.1)).flag r.2).next

/-- AINS: the sign-extended pair, shifted left, saturated as a 72-bit value (R425). -/
def ains (a gd sh : Nat) (k : Core) : CoreRes :=
  if gd = 31 then .exc excIllegal
  else
    let r := accStore 72 (signed 64 (k.rpair gd) * 2 ^ sh)
    .done ((k.wa a (BitVec.ofInt 72 r.1)).flag r.2).next

/-! ### Branches and jumps -/

/-- A branch: the target when taken, else the next instruction. -/
def branch (taken : Word → Word → Bool) (ga gb : Nat) (off : BitVec 16) (k : Core) : Core :=
  if taken (k.rg ga) (k.rg gb) then k.jump (relTarget k.pc off.toInt) else k.next

/-- JAL: gd := pc + 4; pc := pc + 4 × offset. -/
def jal (gd : Nat) (off : BitVec 21) (k : Core) : Core := (k.wg gd (k.pc + 4)).jump (relTarget k.pc off.toInt)

/-- JALR: gd := pc + 4; pc := ga; a target that is not a multiple of 4 raises ALIGN (R432). -/
def jalr (gd ga : Nat) (k : Core) : CoreRes :=
  if (k.rg ga).toNat % 4 = 0 then .done ((k.wg gd (k.pc + 4)).jump (k.rg ga)) else .exc (excAlign 0)

/-! ### System -/

/-- TRAP #n: the exception is taken after the instruction has completed (R432). -/
def trap (p : Plane) (c n : Nat) (d : Dev) : Dev :=
  if d.coreActive p c then
    let k := d.core p c
    takeExc p c k (excTrap n) (k.pc + 4) d
  else d

/-- ERET (R433): CSW from ECSW, continue at EPC. A return address that is not a multiple of 4 is a jump target of that kind and
raises ALIGN (DEDUCED, log entry 22). -/
def eret (k : Core) : CoreRes :=
  if k.epc.toNat % 4 = 0 then .done (({ k with csw := k.ecsw &&& 0xFFF } : Core).jump k.epc) else .exc (excAlign 0)

end Sys2Proof.Machine
end

