-- ==== Sys2Proof/Machine/HostLink.lean ====
section
/-! DEFINITION. The host link beside the mailbox's delivery (19_host_link.md R506 to R525): doorbells and pointers, version,
BAR4, watchdog, Ethernet, debug and the notes of the host. -/

namespace Sys2Proof.Machine

/-- Passes the host link through `f`. -/
def Dev.updHost (d : Dev) (f : HostSt → HostSt) : Dev := { d with host := f d.host }

/-- DOORBELL (R509): a write of a ring's WP makes the commands before it readable. Until DRAM is trained the ring holds none
(R506). -/
def doorbell (u : Bool) (wp : Nat) (cmds : List MbxHdr) (d : Dev) : Dev :=
  let d1 := d.wr (if u then .HST_CMDU_WP else .HST_CMDB_WP) (wp / 8 * 8)
  if d.rd .HST_STATUS_MBX_READY = 0 then d1
  else
    let own := cmds.map (fun h => { h with u := u })
    skipHead u (d1.updHost (fun x => if u then { x with ringU := x.ringU ++ own } else { x with ringB := x.ringB ++ own }))

/-- Releases late replies while there is room. -/
def releaseLate : List Reply → Dev → Dev
  | [], d => d
  | r :: t, d => releaseLate t (lateReply r d)

/-- RPL_RP (R511): the host has read up to `rp`; replies that waited for room follow. -/
def rplRp (rp : Nat) (d : Dev) : Dev :=
  let d1 := d.wr .HST_RPL_RP (rp / 8 * 8)
  let read := ((rp / 8 * 8 + 2 ^ 19 - d.rd .HST_RPL_RP) % 2 ^ 19) / 32
  releaseLate d1.host.late (d1.updHost (fun x => { x with late := [], replies := x.replies.drop read }))

/-- HST_PROTO (R515): ACT is min(REQ, MAX), 0 for REQ 0; ignored while a ring holds an undelivered command. -/
def protoWrite (req : Nat) (d : Dev) : Dev :=
  if !d.host.ringB.isEmpty || !d.host.ringU.isEmpty then d
  else
    let q := req % 256
    (d.wr .HST_PROTO_REQ q).wr .HST_PROTO_ACT (min q (d.rd .HST_PROTO_MAX))

/-- BAR4_WRITE (R517): bytes at BAR4 offset `o` reach usable DRAM inside the host window; any other write is dropped and reported
once per millisecond. -/
def bar4Write (o : Nat) (bs : List Byte) (s : Part) : Part :=
  let d := s.dev
  let a := d.rd .HST_WIN_BASE * 4096 + o
  let w := d.pat.mem.hostWin
  if d.rd .HST_STATUS_MBX_READY = 0 then s
  else if w.base ≤ a && a + bs.length ≤ w.base + w.size && a + bs.length ≤ d.dramUsable then
    s.onMems (fun m => { m with dram := m.dram.writeBytes a bs })
  else if d.host.winRefusedAt.any (fun t => decide (d.time.tr < t + 1000000 * nsUnit)) then s
  else s.onDev (fun d => raise .WIN_WRITE_REFUSED wShared [o] (d.updHost (fun x => { x with winRefusedAt := some d.time.tr })))

/-- KICK (R519): the watchdog restarts and a time-out ends. -/
def kick (d : Dev) : Dev := d.updHost (fun x => { x with timedOut := false })

/-- HOST_TIMEOUT (R519): no KICK for WDOG_T: every arm and every auxiliary group gets a STOP. -/
def hostTimeout (d : Dev) : Dev :=
  if d.rd .HST_WDOG_WDOG_T = 0 || d.host.timedOut then d
  else
    let d1 := raise .HOST_TIMEOUT wShared [] ((d.wr .HST_WDOG_EXPIRED 1).updHost (fun x => { x with timedOut := true }))
    bothPlanes (fun p d => forL d.pat.groups (fun e d => requestTarget p (0x80 + e.1) .stop false d)
      (forL d.pat.arms (fun e d => requestTarget p e.1 .stop false d) d)) d1

/-- CORE_DB (R524). -/
def coreDb (d : Dev) : Dev := icuBoth 416 d

/-- PCIE_LINK_DOWN (R507, R524). -/
def linkDown (d : Dev) : Dev :=
  if !d.host.linkUp then d
  else raise .PCIE_LINK_DOWN wShared [] (((d.wr .HST_STATUS_LINK_W 0).wr .HST_STATUS_LINK_GEN 0).updHost (fun x => { x with
    linkUp := false }))

/-- PCIE_LINK_UP (R506, R524): from stage FUSES on the endpoint trains to a width and a generation. -/
def linkUp (w gen : Nat) (d : Dev) : Dev :=
  if d.host.linkUp || d.rd .SYS_STATE_STAGE = 0 || 3 < d.rd .SYS_LADDER_STATE then d
  else icuBoth 417 (((d.wr .HST_STATUS_LINK_W w).wr .HST_STATUS_LINK_GEN gen).updHost (fun x => { x with linkUp := true }))

/-- ETH_FRAME_RX (R520): a frame of 64 to 1,522 bytes that passes the filter reaches the MAC's owner: the host's rings, or CC1 of both
planes. -/
def ethFrame (mac len : Nat) (d : Dev) : Dev :=
  if 2 ≤ mac || len < 64 || 1522 < len then d
  else d.updHost (fun x => { x with frames := x.frames ++ [⟨mac, len, d.pat.ethCell.contains mac⟩] })

/-! ### Cellar notes (R413, R514) -/

/-- Splits text into pieces of 12 bytes; `fuel` bounds the pieces. -/
def pieces : Nat → List Nat → List (List Nat)
  | 0, _ => []
  | n + 1, l => if l.isEmpty then [] else l.take 12 :: pieces n (l.drop 12)

/-- The records of a note: the first of KIND event, the others continuations with the same T. -/
def noteRecords (t : T96) (b : Nat) (first : Bool) : List (List Nat) → Dev → Dev
  | [], d => d
  | x :: rest, d => noteRecords t b false rest
      (recordAt t b Code.HOST_NOTE.num (if first then Code.HOST_NOTE.kind.num else 3) wHost (x.map (fun (n : Nat) => (n : Int))) d)

/-- CELLAR_NOTE: text of the host as records of writer 8. -/
def cellarNote (h : MbxHdr) (text : List Nat) (d : Dev) : Dev :=
  mailbox h (fun d => (noteRecords d.stamp.1 d.stamp.2 true (pieces 342 (text.map (· % 256))) d, 0, 0)) d

/-! ### Debug (R521 to R523) -/

/-- Fields of a token (R522): bytes 0 to 3 SYS_ID, 4 to 11 the nonce, 12 to 15 the key slot, 16 to 31 reserved. -/
def DbgToken.field (t : DbgToken) (o n : Nat) : Nat := leNum ((t.bytes.drop o).take n)
def DbgToken.sysId (t : DbgToken) : Nat := t.field 0 4
def DbgToken.nonce (t : DbgToken) : Nat := t.field 4 8
def DbgToken.slot (t : DbgToken) : Nat := t.field 12 4
def DbgToken.reserved (t : DbgToken) : Nat := t.field 16 16

/-- Whether the token is accepted under R53 but for presence: its slot is good, the key is the slot's, and the signature in bytes 32 to 95
over the SM3 hash of bytes 0 to 31 is valid for it. -/
def tokenOk (v : Vault) (tok : DbgToken) (d : Dev) : Bool :=
  tok.bytes.length == 96 && tok.reserved == 0 &&
  tok.sysId == d.rd .SYS_ID_DEVICE * 256 + d.rd .SYS_ID_STEPPING && d.host.nonceGiven && tok.nonce == d.host.nonce &&
  keyGood v tok.slot tok.key && sm2Verify tok.key (tok.bytes.drop 32) (bytesFrom 32 (sm3 (tok.bytes.take 32)))

/-- DEBUG_UNLOCK (R522, R56): a token is good for one unlock. -/
def debugUnlock (v : Vault) (h : MbxHdr) (tok : DbgToken) (d : Dev) : Dev :=
  mailbox h (fun d =>
    if !tokenOk v tok d then (raise .DBG_REFUSED wSec [] d, Code.DBG_REFUSED.num, 0)
    else if !d.present then
      (raise .DBG_REFUSED wSec [] (raise .PRESENCE_REQUIRED wSec [] (d.wr .PAT_STATUS_LAST_ERR Code.PRESENCE_REQUIRED.num)), Code.PRESENCE_REQUIRED.num, 0)
    else (raise .DBG_UNLOCKED wSec [] ((d.wr .HST_DBG_UNLOCKED 1).updHost (fun x => { x with nonceGiven := false })), 0, 0)) d

/-- DEBUG_LOCK. -/
def debugLock (h : MbxHdr) (d : Dev) : Dev := mailbox h (fun d => (d.wr .HST_DBG_UNLOCKED 0, 0, 0)) d

/-- NONCE_READ (R522): a read of LO produces a new nonce, which LO and HI then show. -/
def nonceRead (d : Dev) : Dev :=
  let n := (Config.nonce d.free).toNat
  (({ d with free := d.free + 1 }.wr .HST_DBG_NONCE_LO n).wr .HST_DBG_NONCE_HI (n / 2 ^ 32)).updHost (fun x => { x with
    nonce := n, nonceGiven := true })

/-- What the JTAG port shifts out under IDCODE (R521). -/
def idCode : Word := 0x08064C3B
def Dev.jtagData (d : Dev) : Option Word := if d.boot.jtag = .idcode then some idCode else none

/-- JTAG_INSTRUCTION (R521): EXTEST, CLAMP and HIGHZ need debug unlocked, every axis in STO and every safety output off; EXTEST forces
the cells of SO0 to SO7 and TP0 to TP3 to off. -/
def jtag (i : JtagInstr) (d : Dev) : Dev :=
  let d1 := d.updBoot (fun b => { b with jtag := i })
  match i with
  | .idcode | .bypass | .samplePreload => d1
  | .extest => if d.rd .HST_DBG_UNLOCKED = 1 && allSto d && d.rd .SAF_SO_ON = 0 then outsOff d1 else d
  | .clamp | .highz => if d.rd .HST_DBG_UNLOCKED = 1 && allSto d && d.rd .SAF_SO_ON = 0 then d1 else d

end Sys2Proof.Machine
end

