-- ==== Sys2Proof/Machine/RegFile.lean ====
section
/-! DEFINITION. Reading and writing registers by address, and staging (00_scope.md R8 to R16, R20, R21; 10_planes_racking.md
R280). A write is by the host or by a core; a read or write with a side effect of its own leads to that register's operation. -/

namespace Sys2Proof.Machine

/-- The core of a plane that writes, if it is a core. -/
def Actor.coreNo : Actor → Option Nat
  | .host => none
  | .core _ c => some c

/-! ### Fields at an offset -/

/-- The index of a multiple of a stride below a count. -/
def strideIdx (x s n : Nat) : Option Nat :=
  if s = 0 then (if x = 0 then some 0 else none)
  else if x % s = 0 && decide (x / s < n) then some (x / s) else none

/-- The indices with which field `f` lies in the word at offset `off`. -/
def Fld.at (f : Fld) (off : Nat) : Option (Nat × Nat) :=
  if off < f.off then none
  else if f.s2 = 0 then (strideIdx (off - f.off) f.s1 f.n1).map (fun i => (i, 0))
  else
    let i := (off - f.off) / f.s1
    if i < f.n1 then (strideIdx (off - f.off - i * f.s1) f.s2 f.n2).map (fun j => (i, j)) else none

/-- The fields of the word at an offset of a block, each with its indices. -/
def fieldsAt (b : Blk) (off : Nat) : List (Fld × Nat × Nat) :=
  fldTable.filterMap (fun f => if f.blk = b then (f.at off).map (fun ij => (f, ij.1, ij.2)) else none)

/-- What a read returns of a field (R8): nothing of a WO field, the staging copy of an RWS field while STAGE_VIEW is 1. -/
def Dev.shown (d : Dev) (p : Plane) (f : Fld) (i j : Nat) : Nat :=
  match f.acc with
  | .wo => 0
  | .rws => if d.rdP p (.APPLY_STAGE_VIEW f.blk) = 1 then d.staged f p i j else d.live f p i j
  | _ => d.live f p i j

/-- The plane whose copy an access through plane `p`'s view meets: shared blocks alias (R20). -/
def Blk.home (b : Blk) (p : Plane) : Plane := if b.starred then p else .A

/-- The word that a read without side effects returns. Reserved bits read 0 (R4). -/
def Dev.word (d : Dev) (p : Plane) (b : Blk) (off : Nat) : Nat :=
  ((fieldsAt b off).map (fun e => d.shown (b.home p) e.1 e.2.1 e.2.2 * 2 ^ e.1.lo)).foldl (· + ·) 0

/-! ### Reads with side effects, and registers that show the reading core -/

/-- TSK_POST_ARG and TSK_CUR as core `c` reads them: word `k` from offset 0x14 up. -/
def curWord (p : Plane) (c off : Nat) (d : Dev) : Nat :=
  let k := d.core p c
  let t := k.intTask.orElse (fun _ => k.curTask)
  let a := k.current.getD {}
  match off with
  | 0x14 => k.postArg.toNat
  | 0x20 =>
    match t with
    | some n => n % 1024 + a.base % 16 * 2 ^ 10 + a.src % 8 * 2 ^ 14 + b2n a.late * 2 ^ 17 + b2n a.host * 2 ^ 18 + b2n a.nostamp * 2 ^ 19
    | none => 0x3FF
  | 0x24 => t96Ns a.t
  | 0x28 => t96Sl a.t
  | 0x2C => t96Hi a.t + t96Frac a.t * 65536
  | 0x30 => if t.isSome then a.arg else 0
  | 0x34 => (t.map (fun n => (d.taskDesc n).entry)).getD 0
  | 0x38 => (t.map (fun n => d.rdP p .TSK_TASK_SEQ n)).getD 0
  | _ => 0

/-- A read of the word at an offset of a block through plane `p`'s view: the state after it and the word. -/
def readWord (who : Actor) (p : Plane) (b : Blk) (off : Nat) (d : Dev) : Dev × Nat :=
  let q := b.home p
  let plain (d : Dev) : Dev × Nat := (d, d.word p b off)
  match b with
  | .tsk =>
    match who.coreNo with
    | some c => if off = 0x18 then tskTake q c d else if 0x14 ≤ off && off ≤ 0x38 then (d, curWord q c off d) else plain d
    | none => if 0x14 ≤ off && off ≤ 0x38 && off != 0x18 then (d, curWord q 8 off d) else plain d
  | .time =>
    if 0x118 ≤ off && off < 0x318 && (off - 0x118) % 64 = 0 then plain (tbNowRead ((off - 0x118) / 64) d)
    else if off = 0xC04 || off = 0xC24 then plain (ptpInfoRead ((off - 0xC04) / 32) d)
    else if off = 0xC10 || off = 0xC30 then
      let r := d.word p b off
      (ptpTsRead ((off - 0xC10) / 32) d, r)
    else plain d
  | .hst => if off = 0x48 then plain (nonceRead d) else plain d
  | _ => plain d

/-! ### Staging (R9 to R13) -/

/-- What APPLY refuses in the staged PPE set (03_paths_profiles.md, 05_cooperation.md): an axis, a local pair, the proximity
distances, a block. -/
def ppeRefused (p : Plane) (d : Dev) : Option Nat :=
  let st (f : Fld) (i : Nat) : Nat := d.staged f p i 0
  let pwBad (n : Nat) : Bool := st .PPE_SD_CFG_PW n < 20 || 4000 < st .PPE_SD_CFG_PW n
  let dsBad (n : Nat) : Bool := st .PPE_SD_CFG_DS n < 40 || 4000 < st .PPE_SD_CFG_DS n
  let ax := (List.range 64).find? (fun i =>
    let div := st .PPE_AX_CFG_STEP_DIV i
    let sd := d.rdP p .PPE_AX_CFG_SD i
    div == 0 || decide (256 < div) ||
      (d.rdP p .PPE_AX_CFG_OUT i == 1 && !stepsFit d (64 + i) (st .PPE_SD_CFG_PW sd) (st .PPE_SD_CFG_DS sd) div))
  match ax with
  | some i => some i
  | none =>
    match (List.range 8).find? (fun n => pwBad n || dsBad n) with
    | some n => some (64 + n)
    | none =>
      if st .PPE_PROX_DIST_D_SLOW 0 ≤ st .PPE_PROX_DIST_D_HOLD 0 then some 72
      else ((List.range 4).find? (fun k => decide (0x8000 < st .PPE_BLK_GAIN_CLOSE_GAIN k))).map (80 + ·)

/-- The first item that APPLY of a block refuses. -/
def applyRefused (b : Blk) (p : Plane) (d : Dev) : Option Nat :=
  match b with
  | .lpe => lpeRefused p d
  | .ppe => ppeRefused p d
  | .slv => slvRefused p d
  | .fbi => fbiRefused d
  | .cap => capRefused d
  | .time => timeRefused d
  | _ => none

/-- The key names an RWS field: only those have a staging copy that becomes live (R9). -/
def rwsKey (k : Nat) : Bool := (fieldsAt (keyBlk k) (k / 32 % 0x10000)).any (fun e => e.1.lo == k % 32 && e.1.acc == .rws)

/-- The staged values of a block in a plane: its RWS fields. -/
def stagedOf (b : Blk) (p : Plane) (d : Dev) : List (Nat × Nat) :=
  d.staging.filter (fun e => keyBlk e.1 == b && (!b.starred || keyPlane e.1 == p) && rwsKey e.1)

/-- A refusal names its item; of CAP, BAD_TRG names a trigger (14_capture_cellar_book.md). -/
def applyError (b : Blk) (p : Plane) (n : Nat) (d : Dev) : Dev :=
  let e := (d.wrP p (.APPLY_ERR b) 1).wrP p (.APPLY_ERR_FIELD b) n
  if b = .cap then
    if 256 ≤ n then ((e.wrP p (.APPLY_ERR_FIELD b) 0xFF).wr .CAP_STAT_TRG_ERR 1).wr .CAP_STAT_BAD_TRG (n - 256)
    else e.wr .CAP_STAT_TRG_ERR 0
  else e

/-- A 1 written to APPLY of a staged block in plane `p` (R11, R13, R314). -/
def applyWrite (b : Blk) (p : Plane) (d : Dev) : Dev :=
  match applyRefused b p d with
  | some n => applyError b p n d
  | none =>
    let others := d.applySets.filter (fun x => !(x.blk == b && x.plane == p))
    let d1 : Dev := { d with applySets := others ++ [⟨b, p, stagedOf b p d⟩] }
    let d2 := d1.wrP p (.APPLY_PEND b) 1
    if b = .time then
      forN 8 (fun n d => if (d.bs n).slewStaged then d.updBase n (fun x => { x with slewStaged := false, slewPend := true }) else d) d2
    else d2

/-- A pending set becomes live in one step (R11): the fields, PEND and APPLY_CNT. -/
def setLive (x : ApplySet) (d : Dev) : Dev :=
  let d1 := forL x.vals (fun e (d : Dev) => { d with regs := Sparse.put d.regs e.1 e.2 }) d
  (d1.wrP x.plane (.APPLY_PEND x.blk) 0).wrP x.plane (.APPLY_CNT x.blk) (d1.rdP x.plane (.APPLY_CNT x.blk) + 1)

/-- Whether a block's sets become live only at planning-tick boundaries (R16). -/
def Blk.tickApply (b : Blk) : Bool := b == .ppe || b == .slv

/-- The boundary makes the pending sets live (R11, R16), with what each block does beside its fields. -/
def applyBoundary (tick : Bool) (d : Dev) : Dev :=
  let due := d.applySets.filter (fun x => tick || !x.blk.tickApply)
  let rest := d.applySets.filter (fun x => !(tick || !x.blk.tickApply))
  forL due (fun x d =>
    let e := setLive x d
    match x.blk with
    | .lpe => lpeLive x.plane d e
    | .fbi => fbiLive d e
    | .time => timeLive d e
    | _ => e) { d with applySets := rest }

/-! ### Writes -/

/-- A write of a word to fields by their access codes alone (R8). -/
def plainWrite (p : Plane) (b : Blk) (off w : Nat) (d : Dev) : Dev :=
  forL (fieldsAt b off) (fun e d =>
    let f := e.1
    let v := mask f.width (w / 2 ^ f.lo)
    match f.acc with
    | .rw => d.wrAt f p e.2.1 e.2.2 v
    | .rws => d.stage f p e.2.1 e.2.2 v
    | .w1c =>
      let old := d.rdAt f p e.2.1 e.2.2
      d.wrAt f p e.2.1 e.2.2 (old - (old &&& v))
    | _ => d) d

/-- A write of blk_APPLY (R15). -/
def applyWord (b : Blk) (p : Plane) (w : Nat) (d : Dev) : Dev :=
  whenD (bit w 0) (applyWrite b p) (plainWrite p b 4 w d)

/-- A write of HST_WDOG (R519): a WDOG_T of 1 to 9 is ignored, KICK restarts the watchdog. -/
def wdogWrite (w : Nat) (d : Dev) : Dev :=
  let t := w % 65536
  let d1 := if 1 ≤ t && t ≤ 9 then d else d.wr .HST_WDOG_WDOG_T t
  let d2 := if bit w 17 then d1.wr .HST_WDOG_EXPIRED 0 else d1
  whenD (bit w 16) kick d2

/-- A write of TSK_TMRt_CTL (R453): the configuration stands while ARMED is 1. -/
def timerCtl (p : Plane) (t w : Nat) (d : Dev) : Dev :=
  let d1 := if d.rdP p .TSK_TMR_CTL_ARMED t = 1 then d
    else (d.wrP p .TSK_TMR_CTL_BASE w t).wrP p .TSK_TMR_CTL_MODE (w / 8) t
  whenD (bit w 5) (timerDisarm p t) (whenD (bit w 4) (timerArm p t) d1)

/-- A write to the timer registers of a plane: T, PER and PER_FRAC stand while ARMED is 1. -/
def timerWrite (p : Plane) (off w : Nat) (d : Dev) : Dev :=
  let t := (off - 0x400) / 32
  let o := (off - 0x400) % 32
  if o = 0 then timerCtl p t w d
  else if o ≤ 0x14 && d.rdP p .TSK_TMR_CTL_ARMED t = 1 then d
  else plainWrite p .tsk off w d

/-- A write to the TSK block of a plane, but for DONE. The host writes no post register: the dispatcher knows the writing core
(R450). -/
def tskWrite (c : Option Nat) (p : Plane) (off w : Nat) (d : Dev) : Dev :=
  if 0x400 ≤ off && off < 0xC00 then timerWrite p off w d
  else
    match c with
    | some k =>
      if off = 0x10 then tskPost p k (w % 1024) d
      else if off = 0x14 then d.updCore p k (fun x => { x with postArg := BitVec.ofNat 32 w })
      else plainWrite p .tsk off w d
    | none => plainWrite p .tsk off w d

/-- A write to the ICU block of a plane (R454, R462). -/
def icuWrite (p : Plane) (off w : Nat) (d : Dev) : Dev :=
  if off = 0xC then icuFallbackWrite p w d
  else if off = 0x10 then icuRaiseWrite p (w % 512) d
  else if 0x100 ≤ off && off < 0x1A0 && (off - 0x100) % 16 = 0 then icuThreshWrite p ((off - 0x100) / 16) w d
  else if 0x1000 ≤ off && off < 0x1800 then icuSrcWrite p ((off - 0x1000) / 4) w d
  else d

/-- A write to the SLV block of a plane by core `c` or the host. A delta window belongs to its producer: 0 to 9 the cores, 11 the
host, whose HI then LO give one delta to both planes. -/
def slvWrite (c : Option Nat) (p : Plane) (off w : Nat) (d : Dev) : Dev :=
  if off = 0xC then
    match c with
    | some k => slvCut p k (bit w k) (bit w (16 + k)) d
    | none => d
  else if 0x100 ≤ off && off < 0x160 then
    let n := (off - 0x100) / 8
    if (off - 0x100) % 8 = 0 then deltaLo p n w d
    else if n = 11 && c.isNone && p == .B then d
    else deltaHi p c n w d
  else plainWrite p .slv off w d

/-- A write to the FBI block: FBn_CMD gives commands. -/
def fbiWrite (off w : Nat) (d : Dev) : Dev :=
  if 0x110 ≤ off && off < 0x590 && (off - 0x110) % 64 = 0 then
    let n := (off - 0x110) / 64
    whenD (bit w 2) (clearFbCounters n) (whenD (bit w 1) (clearRef n) (whenD (bit w 0) (armIndex n) d))
  else plainWrite .A .fbi off w d

/-- A write to the LSR block. -/
def lsrWrite (off w : Nat) (d : Dev) : Dev :=
  if 0x100 ≤ off && off < 0x300 then
    let n := (off - 0x100) / 128
    let o := (off - 0x100) % 128
    if o = 0x8 then nselWrite n (w % 512) d
    else if o = 0x1C then whenD (bit w 1) (clrHeal n) (whenD (bit w 0) (lsRestart n) d)
    else if o = 0x38 then whenD (bit w 0) (lsClrCnt n) d
    else plainWrite .A .lsr off w d
  else plainWrite .A .lsr off w d

/-- A write to the CAP block. -/
def capWriteReg (off w : Nat) (d : Dev) : Dev :=
  if off = 0xC then
    whenD (bit w 1) capStopWrite (whenD (bit w 0) capArm (whenD (bit w 2) (fun d => d.wr .CAP_ARM_ARM_ERR 0) d))
  else if off = 0x20 then capRdWrite w d
  else if off = 0x1400 then whenD (bit w 20) calWrite d
  else if off = 0x1808 then celRdWrite w d
  else plainWrite .A .cap off w d

/-- A write to the TIME block: a write of TBn_SLEW marks it for the next APPLY (R314). -/
def timeWrite (off w : Nat) (d : Dev) : Dev :=
  let d1 := plainWrite .A .time off w d
  if 0x10C ≤ off && off < 0x300 && (off - 0x10C) % 64 = 0 then
    d1.updBase ((off - 0x10C) / 64) (fun x => { x with slewStaged := true })
  else d1

/-- A write to the SYS block. Of the cores only CC0 may write TARGET (R494). -/
def sysWrite (c : Option Nat) (off w : Nat) (d : Dev) : Dev :=
  if off = 0x110 then syncCtlWrite w d
  else if off = 0x114 then syncOfsWrite w d
  else if off = 0x200 then (if c = none ∨ c = some 8 then ladderTarget w d else d)
  else plainWrite .A .sys off w d

/-- A write to the HST block. -/
def hstWrite (c : Option Nat) (off w : Nat) (d : Dev) : Dev :=
  match off with
  | 0x0 => protoWrite w d
  | 0x10 => doorbell false w [] d
  | 0x18 => doorbell true w [] d
  | 0x24 => rplRp w d
  | 0x34 => wdogWrite w d
  | 0x3C => if c.isNone && bit w 0 then coreDb d else d
  | _ => plainWrite .A .hst off w d

/-- A write of PWR_ALARM: an instant already passed fires at once, when its last word is written. -/
def alarmWrite (off w : Nat) (s : Part) : Part :=
  let s1 := s.onDev (plainWrite .A .pwr off w)
  let d := s1.dev
  let t := t96 (d.rd .PWR_ALARM_NS) (d.rd .PWR_ALARM_SL) (d.rd .PWR_ALARM_SEC_HI) (d.rd .PWR_ALARM_FRAC)
  if off = 0x20 && d.baseState 3 != 0 && decide (t ≤ d.base 3) then wake 18 s1 else s1

/-- A whole word written to an offset of a block, in plane `p` where the block is starred. -/
def writeWord (c : Option Nat) (p : Plane) (b : Blk) (off w : Nat) (s : Part) : Part :=
  if off = 4 && stagedBlks.contains b then s.onDev (applyWord b p w)
  else
    match b with
    | .sys => s.onDev (sysWrite c off w)
    | .pat => s.onDev (if off = 8 then toileWrite w else plainWrite .A .pat off w)
    | .time => s.onDev (timeWrite off w)
    | .lsr => s.onDev (lsrWrite off w)
    | .icu => s.onDev (icuWrite p off w)
    | .tsk =>
      match c with
      | some k => if off = 0x1C then (if bit w 0 then tskDone p k s else s) else s.onDev (tskWrite c p off w)
      | none => s.onDev (tskWrite c p off w)
    | .lpe => if 0x8000 ≤ off && off < 0x8044 then s else s.onDev (plainWrite p .lpe off w)
    | .ppe => s.onDev (if 0x100 ≤ off && off < 0x200 && off % 32 = 0 then armCommand p ((off - 0x100) / 32) w else plainWrite p .ppe off w)
    | .slv => s.onDev (slvWrite c p off w)
    | .cap => s.onDev (capWriteReg off w)
    | .fbi => s.onDev (fbiWrite off w)
    | .saf => s.onDev (plainWrite .A .saf off w)
    | .red => s.onDev (if off = 0x28 then (fun d => whenD (bit w 1) redClear (whenD (bit w 0) riddleNow d)) else plainWrite .A .red off w)
    | .mem => s.onDev (if off = 0x20 || off = 0x24 then bankPwrWrite p ((off - 0x20) / 4) w else plainWrite p .mem off w)
    | .pwr =>
      if 0x18 ≤ off && off ≤ 0x20 then alarmWrite off w s
      else s.onDev (match off with
        | 0x4 => pwrAvsWrite w
        | 0xC => whenD (bit w 0) pwrClr
        | _ => plainWrite .A .pwr off w)
    | .hst => s.onDev (hstWrite c off w)

/-- The word that a store of some byte lanes writes: a field wholly in those lanes takes its new value, any other keeps an RW value
and clears or commands nothing (DESIGN CHOICE, log entry 30). -/
def mergeWord (d : Dev) (p : Plane) (b : Blk) (off w : Nat) (lanes : List Nat) : Nat :=
  if lanes.length = 4 then w
  else
    ((fieldsAt b off).map (fun e =>
      let f := e.1
      let whole := (List.range 4).all (fun k => lanes.contains k || decide (8 * k + 8 ≤ f.lo) || decide (f.lo + f.width ≤ 8 * k))
      let v := if whole then mask f.width (w / 2 ^ f.lo)
        else match f.acc with
          | .rw => d.rdAt f (b.home p) e.2.1 e.2.2
          | .rws => d.staged f (b.home p) e.2.1 e.2.2
          | _ => 0
      v * 2 ^ f.lo)).foldl (· + ·) 0

/-- A host write of a word reaches its block: both planes where the block is starred (R21). -/
def hostWordNow (b : Blk) (off w : Nat) (s : Part) : Part :=
  if b.starred then writeWord none .B b off w (writeWord none .A b off w s) else writeWord none .A b off w s

/-- A host write of a word; one to a starred block during φ5 is held until the closing boundary (R280). -/
def hostWord (b : Blk) (off w : Nat) (s : Part) : Part :=
  if b.starred && s.dev.rd .SYS_PHASE = 5 && s.dev.cyc.running then
    s.onDev (fun d => d.updHost (fun x => { x with held := x.held ++ [(b.num * 65536 + off, w)] }))
  else hostWordNow b off w s

/-- The boundary delivers the host writes held in φ5 to both planes, oldest first (R280). -/
def deliverHeld (s : Part) : Part :=
  forL s.dev.host.held (fun e s => hostWordNow (Blk.ofNum (e.1 / 65536)) (e.1 % 65536) e.2 s)
    (s.onDev (fun d => d.updHost (fun x => { x with held := [] })))

/-- A host write to the register file at BAR0 address `a` (R20): an aligned word; addresses past BAR0 reach nothing. -/
def hostWrite (a w : Nat) (s : Part) : Part :=
  if a < 0x200000 && a % 4 = 0 then hostWord (Blk.ofNum (a / 65536 % 16)) (a % 65536) (mask 32 w) s else s

/-- A register write by anyone through its own view, as the commands of single registers give it: `f` acts in one plane. A host
write goes to both planes or is held (R21, R280). -/
def writeBy (who : Actor) (b : Blk) (off w : Nat) (f : Plane → Dev → Dev) (d : Dev) : Dev :=
  match who with
  | .core p c => coreDo p c (f p) d
  | .host =>
    if d.rd .SYS_PHASE = 5 && d.cyc.running then d.updHost (fun x => { x with held := x.held ++ [(b.num * 65536 + off, mask 32 w)] })
    else bothPlanes f d

/-- A write of a whole word by anyone through its own view. -/
def regWrite (who : Actor) (b : Blk) (off w : Nat) (s : Part) : Part :=
  match who with
  | .host => hostWord b off w s
  | .core p c => coreDoP p c (writeWord (some c) (b.home p) b off w) s

/-- A write of blk_APPLY of a block that stages (R11, R15). -/
def applyRow (who : Actor) (b : Blk) (w : Nat) (s : Part) : Part :=
  if stagedBlks.contains b then regWrite who b 4 w s else s

/-- Offset of an ICU register in its block. -/
def IcuReg.off : IcuReg → Nat
  | .src s => 0x1000 + 4 * s
  | .thresh c => 0x100 + 16 * c

/-- A write of LEVEL, TARGET or THRESH (R462). -/
def icuRegWrite (p : Plane) (f : IcuReg) (w : Nat) (d : Dev) : Dev :=
  match f with
  | .src s => icuSrcWrite p s w d
  | .thresh c => icuThreshWrite p c w d

/-- A write of SYS_LADDER.TARGET: of the cores only CC0 may write it (R494). -/
def ladderBy (who : Actor) (w : Nat) (d : Dev) : Dev :=
  match who with
  | .host => ladderTarget w d
  | .core p c => coreDo p c (fun d => if c = 8 then ladderTarget w d else d) d

/-! ### Accesses of a core to its register view -/

/-- The words that `n` bytes at offset `a` of the view touch. -/
def wordsOf (a n : Nat) : List Nat := (List.range ((a + n - 1) / 4 - a / 4 + 1)).map (fun i => (a / 4 + i) * 4)

/-- A load of `n` bytes from offset `a` of the register view, lower word first. -/
def viewLoad (p : Plane) (c a n : Nat) (d : Dev) : Dev × Nat :=
  let r := (wordsOf a n).foldl (fun (acc : Dev × Nat) o =>
    let x := readWord (.core p c) p (Blk.ofNum (o / 65536)) (o % 65536) acc.1
    (x.1, acc.2 + x.2 * 2 ^ (8 * (o - a / 4 * 4)))) (d, 0)
  (r.1, r.2 / 2 ^ (8 * (a % 4)) % 2 ^ (8 * n))

/-- A store of `n` bytes to offset `a` of the register view, lower word first. -/
def viewStore (p : Plane) (c a n v : Nat) (s : Part) : Part :=
  forL (wordsOf a n) (fun o s =>
    let lanes := (List.range 4).filter (fun k => decide (a ≤ o + k) && decide (o + k < a + n))
    let w := v * 2 ^ (8 * (a % 4)) / 2 ^ (8 * (o - a / 4 * 4)) % 2 ^ 32
    let b := Blk.ofNum (o / 65536)
    writeWord (some c) (b.home p) b (o % 65536) (mergeWord s.dev p b (o % 65536) w lanes) s) s

end Sys2Proof.Machine
end

