-- ==== Sys2Proof/Machine/Access.lean ====
section
/-! DEFINITION. The memory accesses of a core (15_cores_datapath.md R420 to R422, R429, R431; 17_memory.md R466 to R480): loads,
stores, atomics, filter taps, posted stores and FENCE, and the debug port's reach into cores and memories (19_host_link.md R523). -/

namespace Sys2Proof.Machine

/-! ### Solver work memory (R114, R116, R143) -/

/-- Byte `i` of a list of bytes-as-numbers given by a function of chunks: byte `i` of the little-endian value `v`. -/
def byteOfNat (v i : Nat) : Byte := BitVec.ofNat 8 (v / 256 ^ i)

/-- Byte `i` of a 32-byte matrix descriptor (R114). -/
def descByte (id : Nat) (m : MatDesc) (i : Nat) : Byte :=
  let v := id % 256 + m.op % 256 * 256 + m.n % 256 * 2 ^ 16 + m.k % 256 * 2 ^ 24 + m.cls % 256 * 2 ^ 32 + m.qin % 256 * 2 ^ 40 +
    m.qf % 256 * 2 ^ 48 + m.qx % 256 * 2 ^ 56 + m.cons.getD 0 0 % 256 * 2 ^ 64 + m.cons.getD 1 0 % 256 * 2 ^ 72 +
    m.cons.getD 2 0 % 256 * 2 ^ 80 + m.cons.getD 3 0 % 256 * 2 ^ 88 + m.mapOfs % 2 ^ 32 * 2 ^ 96 + m.entOfs % 2 ^ 32 * 2 ^ 128 +
    m.solOfs % 2 ^ 32 * 2 ^ 160 + m.dmax % 2 ^ 16 * 2 ^ 192
  byteOfNat v i

/-- Byte `i` of a vector of 32-bit values. -/
def vecByte (l : List Int) (i : Nat) : Byte := byteOfNat (unsigned 32 (l.getD (i / 4) 0)) (i % 4)

/-- Byte `i` of a solution buffer of length `len` (R143): its header, then the values. -/
def solByte (b : SolBuf) (i : Nat) : Byte :=
  if i < 4 then byteOfNat b.stat i
  else if i < 8 then byteOfNat b.seq (i - 4)
  else if i < 20 then ((t96Bytes b.target)[i - 8]?).getD 0
  else if i < 32 then 0
  else vecByte b.vals (i - 32)

/-- Byte `i` of the area at SOL_OFS: two solution buffers, then the two history vectors. -/
def solArea (len : Nat) (x : MatSt) (i : Nat) : Byte :=
  let one := 32 + 4 * len
  if i < one then solByte x.buf0 i
  else if i < 2 * one then solByte x.buf1 (i - one)
  else if i < 2 * one + 4 * len then vecByte ((x.x1.map (·.1)).getD []) (i - 2 * one)
  else vecByte ((x.x2.map (·.1)).getD []) (i - 2 * one - 4 * len)

/-- The byte of a matrix at offset `off` of solver work memory, if one of its structures lies there. -/
def matByte (d : Dev) (p : Plane) (id : Nat) (m : MatDesc) (off : Nat) : Option Byte :=
  let x := d.matSt p id
  if 32 * id ≤ off && off < 32 * id + 32 then some (descByte id m (off - 32 * id))
  else if m.mapOfs ≤ off && off < m.mapOfs + m.map.length then some (BitVec.ofNat 8 (m.map.getD (off - m.mapOfs) 0))
  else if m.entOfs ≤ off && off < m.entOfs + 4 * x.ent.length then some (vecByte x.ent (off - m.entOfs))
  else if m.solOfs ≤ off && off < m.solOfs + 64 + 16 * m.len then some (solArea m.len x (off - m.solOfs))
  else none

/-- The byte at an offset of solver work memory: a resident structure, else a free value (log entry 26). -/
def solverByte (d : Dev) (p : Plane) (off : Nat) : Byte :=
  match d.pat.solver.mats.findSome? (fun e => matByte d p e.1 e.2 off) with
  | some b => b
  | none => Config.poolByte d.free p.num off

/-- `n` bytes of solver work memory. -/
def solverRead (d : Dev) (p : Plane) (off : Nat) : Nat → Nat
  | 0 => 0
  | n + 1 => (solverByte d p off).toNat + 256 * solverRead d p (off + 1) n

/-! ### Loads -/

/-- The errors that a read of SRAM can meet: corrected ones are noted, an uncorrectable one is a bus error (R475, R476). -/
def isDram (t : Target) : Bool :=
  match t with
  | .dram _ => true
  | _ => false

/-- Whether a target has ECC: every memory, not the register view. -/
def hasEcc (t : Target) : Bool :=
  match t with
  | .view _ => false
  | _ => true

/-- DRAM as a core sees it: its own posted stores are in it (log entry 27). -/
def dramSeen (k : Core) (m : Mem) : Mem := k.posted.foldl (fun m x => m.writeBytes x.addr x.bytes) m

/-- What `n` bytes of a target read as, and the state after the read (a register view may have side effects). -/
def readTarget (p : Plane) (c n : Nat) (t : Target) (s : Part) : Part × Nat :=
  match t with
  | .loc a => (s, (s.mems.loc p c).read a n)
  | .state a => (s.onDev (wakeBanks p a n), (s.mems.pl p).state.read a n)
  | .solver a => (s.onDev (fun d => d.takeFree.2), solverRead s.dev p a n)
  | .view a =>
    let r := viewLoad p c a n s.dev
    (s.onDev (fun _ => r.1), r.2)
  | .dram a => (s, (dramSeen (s.dev.core p c) s.mems.dram).read a n)

/-- An uncorrectable error in a target: what it raises, and the code of the bus error. -/
def eccFail (p : Plane) (t : Target) (d : Dev) : Dev × Code :=
  match t with
  | .dram a => (dramUe a d, .DRAM_UE)
  | _ => (sramUe p d, .SRAM_UE)

/-- A single-bit error in a target. -/
def eccFix (p : Plane) (t : Target) (d : Dev) : Dev := if isDram t then dramCe d else sramCe p d

/-- An exception of core `c` at its present instruction, before any effect. -/
def raiseExc (p : Plane) (c : Nat) (x : Exc) (d : Dev) : Dev := takeExc p c (d.core p c) x (d.core p c).pc d

/-- LD: g := M[addr]. `ecc` is what the read meets. -/
def ldI (p : Plane) (c g pi mi : Nat) (pm : Bool) (size : Nat) (sx : Bool) (disp : BitVec 11) (ecc : Ecc) (s : Part) : Part :=
  let d := s.dev
  let k := d.core p c
  if !d.coreActive p c then s
  else if badAccess g pm size disp then s.onDev (raiseExc p c excIllegal)
  else
    let a := (k.addr pi pm disp).toNat
    let n := sizeBytes size
    match accessCheck d p c a n false false with
    | .error e => s.onDev (raiseExc p c (excBus e a))
    | .ok t =>
      if ecc = .double && hasEcc t then
        let r := eccFail p t d
        s.onDev (fun _ => raiseExc p c (excBus r.2 a) r.1)
      else
        let s1 := s.onDev (whenD (ecc == .single && hasEcc t) (eccFix p t))
        let r := readTarget p c n t s1
        r.1.onDev (fun d => d.updCore p c (fun k => ((k.loadTo g size sx r.2).postMod pi mi pm).next))

/-! ### Stores -/

/-- Posted stores that a plane's write buffer holds (R480). -/
def Dev.postedCount (d : Dev) (p : Plane) : Nat := ((List.range 10).map (fun c => (d.core p c).posted.length)).foldl (· + ·) 0

/-- Bytes of an access of `n` bytes at `a` that belong to its lower half: all of them unless it crosses an 8-byte boundary (R421,
R471). -/
def lowerHalf (a n : Nat) : Nat := min n (8 - a % 8)

/-- Writes `v` to state memory but for a half that a collision discarded (R470, R471). -/
def storeHalves (a n v : Nat) (lostLo lostHi : Bool) (m : Mem) : Mem :=
  let lo := lowerHalf a n
  let m1 := if lostLo then m else m.write a lo v
  if lostHi || lo = n then m1 else m1.write (a + lo) (n - lo) (v / 256 ^ lo)

/-- The lost halves of a store are noted; with WLX at 1 the core takes WRITE_LOST after the instruction (R470). -/
def afterLost (p : Plane) (c a n : Nat) (lostLo lostHi : Bool) (d : Dev) : Dev :=
  let up := lostHi && decide (lowerHalf a n < n)
  let d1 := whenD up (noteLost p c (a + lowerHalf a n)) (whenD lostLo (noteLost p c a) d)
  let k := d1.core p c
  if (lostLo || up) && wbit k.csw cswWlx then takeExc p c k (excLost a) k.pc d1 else d1

/-- ST: M[addr] := g. `lostLo`, `lostHi` say that a collision with port E discards a half of a store to state memory. A store to
DRAM is posted; while the write buffer is full it does not issue. -/
def stI (p : Plane) (c g pi mi : Nat) (pm : Bool) (size : Nat) (disp : BitVec 11) (lostLo lostHi : Bool) (s : Part) : Part :=
  let d := s.dev
  let k := d.core p c
  if !d.coreActive p c then s
  else if badAccess g pm size disp then s.onDev (raiseExc p c excIllegal)
  else
    let a := (k.addr pi pm disp).toNat
    let n := sizeBytes size
    let v := k.storeVal g size
    let adv : Dev → Dev := fun d => d.updCore p c (fun k => (k.postMod pi mi pm).next)
    match accessCheck d p c a n true false with
    | .error e => s.onDev (raiseExc p c (excBus e a))
    | .ok (.loc o) =>
      if rackHolds d c o n then s
      else (s.onMems (fun m => m.setLoc p c ((m.loc p c).write o n v))).onDev (fun d => noteStore p c o n (adv d))
    | .ok (.state o) =>
      if rackHolds d 10 o n then s
      else (s.onMems (fun m => m.setState p (storeHalves o n v lostLo lostHi (m.pl p).state))).onDev
        (fun d => afterLost p c a n lostLo lostHi (noteStore p 10 o n (adv (wakeBanks p o n d))))
    | .ok (.view o) => viewStore p c o n v (s.onDev adv)
    | .ok (.dram o) =>
      if 32 ≤ d.postedCount p then s
      else s.onDev (fun d => (adv d).updCore p c (fun k => { k with posted := k.posted ++ [⟨o, bytesOf n v⟩] }))
    | .ok (.solver _) => s

/-- POSTED_STORE_WRITTEN: DRAM writes the oldest posted store of a core; a FENCE ends with the last (R422). -/
def postedWritten (p : Plane) (c : Nat) (s : Part) : Part :=
  match (s.dev.core p c).posted with
  | [] => s
  | x :: t =>
    (s.onMems (fun m => { m with dram := m.dram.writeBytes x.addr x.bytes })).onDev
      (fun d => d.updCore p c (fun k => { k with posted := t, fence := k.fence && !t.isEmpty }))

/-- FENCE: the core waits until every posted store of its own is written. -/
def fenceI (p : Plane) (c : Nat) (d : Dev) : Dev :=
  instrDo p c (fun k => .done { k.next with fence := !k.posted.isEmpty }) d

/-! ### Atomics (R429, R468, R470) -/

/-- AMOADD and SWAP: the old word goes to g and a new one to memory, in state memory only. `f` forms the new word from the old one
and g. -/
def amoI (f : Word → Word → Word) (p : Plane) (c g pi : Nat) (pm : Bool) (size : Nat) (disp : BitVec 11) (ecc : Ecc) (lost : Bool)
    (s : Part) : Part :=
  let d := s.dev
  let k := d.core p c
  if !d.coreActive p c then s
  else if pm || size % 4 != 2 then s.onDev (raiseExc p c excIllegal)
  else
    let a := (k.addr pi false disp).toNat
    match accessCheck d p c a 4 true true with
    | .ok (.state o) =>
      if rackHolds d 10 o 4 then s
      else if ecc = .double then s.onDev (fun d => raiseExc p c (excBus .SRAM_UE a) (sramUe p d))
      else
        let old := BitVec.ofNat 32 ((s.mems.pl p).state.read o 4)
        let new := (f old (k.rg g)).toNat
        (s.onMems (fun m => m.setState p (storeHalves o 4 new lost false (m.pl p).state))).onDev (fun d =>
          afterLost p c a 4 lost false
            (noteStore p 10 o 4 ((wakeBanks p o 4 (whenD (ecc == .single) (sramCe p) d)).updCore p c (fun k => (k.wg g old).next))))
    | .ok _ => s.onDev (raiseExc p c (excBus .BUS_REGION a))
    | .error e => s.onDev (raiseExc p c (excBus e a))

/-! ### Filter taps (R431, R432) -/

/-- The words of local memory that a tap reads and the words that it writes, from pX and pC. -/
def tapReads (two : Bool) (x pc : Nat) : List Int :=
  if two then [(x : Int), x - 4, (pc : Int), pc - 4] else [(x : Int), (pc : Int)]

def tapWrites (two : Bool) (x : Nat) : List Int := if two then [(x : Int) + 4, (x : Int)] else [(x : Int) + 4]

/-- What a tap raises instead of its effects: ALIGN, then FTAP_REGION, then the write protection of its move targets. -/
def tapCheck (d : Dev) (c : Nat) (two : Bool) (x pc : Nat) : Option Exc :=
  let off (a : Nat) : Bool := if two then a % 8 != 4 else a % 4 != 0
  let out (a : Int) : Bool := decide (a < 0) || decide ((locBytes : Int) < a + 4)
  if off x then some (excAlign x)
  else if off pc then some (excAlign pc)
  else
    match (tapReads two x pc ++ tapWrites two x).find? out with
    | some a => some (excFtap (a % 2 ^ 32).toNat)
    | none =>
      match (tapWrites two x).find? (fun a => anyConst d c a.toNat 4) with
      | some a => some (excBus .WRITE_PROTECT a.toNat)
      | none => none

/-- A word of local memory as a signed number. -/
def tapWord (m : Mem) (a : Nat) : Int := signed 32 (m.read a 4)

/-- FTAP and FTAP2: the product or products go to the accumulator, the delay line moves by one word or two. -/
def tapI (two : Bool) (p : Plane) (c a px mx pc mc : Nat) (s neg : Bool) (ecc : Ecc) (st : Part) : Part :=
  let d := st.dev
  let k := d.core p c
  if !d.coreActive p c then st
  else
    let x := (k.rp px).toNat
    let y := (k.rp pc).toNat
    match tapCheck d c two x y with
    | some e => st.onDev (raiseExc p c e)
    | none =>
      if (tapWrites two x).any (fun w => rackHolds d c w.toNat 4) then st
      else if ecc = .double then st.onDev (fun d => raiseExc p c (excBus .SRAM_UE x) (sramUe p d))
      else
        let m := st.mems.loc p c
        let x1 := m.read x 4
        let x0 := m.read (x - 4) 4
        let prod := if two then tapWord m x * tapWord m y + tapWord m (x - 4) * tapWord m (y - 4) else tapWord m x * tapWord m y
        let k1 := accTo s a ((k.ra a).toInt + (if neg then -prod else prod)) k
        let k2 := k1.wp px (k1.rp px + k1.rm mx)
        let k3 := k2.wp pc (k2.rp pc + k2.rm mc)
        let m1 := m.write (x + 4) 4 x1
        let m2 := if two then m1.write x 4 x0 else m1
        (st.onMems (fun z => z.setLoc p c m2)).onDev (fun d =>
          forL (tapWrites two x) (fun w d => noteStore p c w.toNat 4 d) ((whenD (ecc == .single) (sramCe p) d).setCore p c k3.next))

/-! ### The debug port (R522, R523) -/

/-- A list of bytes as a little-endian number. -/
def natOfBytes : List Byte → Nat
  | [] => 0
  | b :: t => b.toNat + 256 * natOfBytes t

/-- Writes bytes where a core's address leads. Solver work memory is not written (R114). -/
def debugStore (p : Plane) (c a : Nat) (bs : List Byte) (s : Part) : Part :=
  match target s.dev p a bs.length with
  | some (.loc o) => (s.onMems (fun m => m.setLoc p c ((m.loc p c).writeBytes o bs))).onDev (noteStore p c o bs.length)
  | some (.state o) => (s.onMems (fun m => m.setState p ((m.pl p).state.writeBytes o bs))).onDev (noteStore p 10 o bs.length)
  | some (.dram o) => s.onMems (fun m => { m with dram := m.dram.writeBytes o bs })
  | some (.view o) => viewStore p c o bs.length (natOfBytes bs) s
  | _ => s

/-- Reads bytes where a core's address leads: a register read has its side effects. -/
def debugLoad (p : Plane) (c a n : Nat) (s : Part) : Part :=
  match target s.dev p a n with
  | some t => (readTarget p c n t s).1
  | none => s

/-- DEBUG_PORT_ACCESS (R523): accepted while debug is unlocked; halts and writes only while every axis is in STO. A halted core is
halted as under R434 and reported with CORE_HALT (R556); a step lets it run one instruction. -/
def debugPort (op : DebugOp) (s : Part) : Part :=
  let d := s.dev
  if d.rd .HST_DBG_UNLOCKED = 0 then s
  else
    match op with
    | .halt p c =>
      if allSto d && decide (c < 10) && !(d.core p c).halted then
        s.onDev (fun d => raiseP p .CORE_HALT [c, 0] (d.updCore p c (fun k => { k with halted := true })))
      else s
    | .step p c => if c < 10 && (d.core p c).halted then s.onDev (fun d => d.updCore p c (fun k => { k with step := true })) else s
    | .read p c a n => if c < 10 then debugLoad p c a n s else s
    | .write p c a bs => if allSto d && decide (c < 10) then debugStore p c a bs s else s

end Sys2Proof.Machine
end

