-- ==== Sys2Proof/Machine/CoreRows.lean ====
section
/-! DEFINITION. Rows of the FD32 instructions (15_cores_datapath.md). Plane `p`, core `c`; the other operands are the fields of the instruction. -/

namespace Sys2Proof.Machine

/-- ADD (R424). Integer instruction that adds two registers. -/
def execAdd (p : Plane) (c : Fin 10) (sat : Bool) (gd : Fin 32) (ga : Fin 32) (gb : Fin 32) (s : State) : Out :=
  doDev (instrReg p c (aluF (addOp sat) gd ga gb)) s

/-- SUB (R424). Integer instruction that subtracts two registers. -/
def execSub (p : Plane) (c : Fin 10) (sat : Bool) (gd : Fin 32) (ga : Fin 32) (gb : Fin 32) (s : State) : Out :=
  doDev (instrReg p c (aluF (subOp sat) gd ga gb)) s

/-- AND (R429). Integer instruction that forms a bitwise AND. -/
def execAnd (p : Plane) (c : Fin 10) (gd : Fin 32) (ga : Fin 32) (gb : Fin 32) (s : State) : Out :=
  doDev (instrReg p c (alu ((· &&& ·)) gd ga gb)) s

/-- OR (R429). Integer instruction that forms a bitwise OR. -/
def execOr (p : Plane) (c : Fin 10) (gd : Fin 32) (ga : Fin 32) (gb : Fin 32) (s : State) : Out :=
  doDev (instrReg p c (alu ((· ||| ·)) gd ga gb)) s

/-- XOR (R429). Integer instruction that forms a bitwise XOR. -/
def execXor (p : Plane) (c : Fin 10) (gd : Fin 32) (ga : Fin 32) (gb : Fin 32) (s : State) : Out :=
  doDev (instrReg p c (alu ((· ^^^ ·)) gd ga gb)) s

/-- SHL (R423). Integer instruction that shifts left. -/
def execShl (p : Plane) (c : Fin 10) (sat : Bool) (gd : Fin 32) (ga : Fin 32) (gb : Fin 32) (s : State) : Out :=
  doDev (instrReg p c (aluF (fun csw => shiftLeft csw sat) gd ga gb)) s

/-- SHR (R423). Integer instruction that shifts right logically. -/
def execShr (p : Plane) (c : Fin 10) (gd : Fin 32) (ga : Fin 32) (gb : Fin 32) (s : State) : Out :=
  doDev (instrReg p c (alu (shiftRight) gd ga gb)) s

/-- SAR (R423). Integer instruction that shifts right arithmetically. -/
def execSar (p : Plane) (c : Fin 10) (gd : Fin 32) (ga : Fin 32) (gb : Fin 32) (s : State) : Out :=
  doDev (instrReg p c (alu (shiftArith) gd ga gb)) s

/-- SLT (R429). Integer instruction that sets on signed less-than. -/
def execSlt (p : Plane) (c : Fin 10) (gd : Fin 32) (ga : Fin 32) (gb : Fin 32) (s : State) : Out :=
  doDev (instrReg p c (alu (sltOp) gd ga gb)) s

/-- SLTU (R429). Integer instruction that sets on unsigned less-than. -/
def execSltu (p : Plane) (c : Fin 10) (gd : Fin 32) (ga : Fin 32) (gb : Fin 32) (s : State) : Out :=
  doDev (instrReg p c (alu (sltuOp) gd ga gb)) s

/-- MIN (R429). Integer instruction that takes the minimum. -/
def execMin (p : Plane) (c : Fin 10) (gd : Fin 32) (ga : Fin 32) (gb : Fin 32) (s : State) : Out :=
  doDev (instrReg p c (alu (minOp) gd ga gb)) s

/-- MAX (R429). Integer instruction that takes the maximum. -/
def execMax (p : Plane) (c : Fin 10) (gd : Fin 32) (ga : Fin 32) (gb : Fin 32) (s : State) : Out :=
  doDev (instrReg p c (alu (maxOp) gd ga gb)) s

/-- MUL (R423). Integer instruction that multiplies. -/
def execMul (p : Plane) (c : Fin 10) (sat : Bool) (gd : Fin 32) (ga : Fin 32) (gb : Fin 32) (s : State) : Out :=
  doDev (instrReg p c (aluF (mulOp sat) gd ga gb)) s

/-- MULH (R423). Integer instruction that returns the high word of a signed product. -/
def execMulh (p : Plane) (c : Fin 10) (gd : Fin 32) (ga : Fin 32) (gb : Fin 32) (s : State) : Out :=
  doDev (instrReg p c (alu (mulhOp) gd ga gb)) s

/-- MULHU (R423). Integer instruction that returns the high word of an unsigned product. -/
def execMulhu (p : Plane) (c : Fin 10) (gd : Fin 32) (ga : Fin 32) (gb : Fin 32) (s : State) : Out :=
  doDev (instrReg p c (alu (mulhuOp) gd ga gb)) s

/-- DIV (R423). Signed division toward zero. -/
def execDiv (p : Plane) (c : Fin 10) (sat : Bool) (gd : Fin 32) (ga : Fin 32) (gb : Fin 32) (s : State) : Out :=
  doDev (instrReg p c (aluF (fun csw => divide csw sat) gd ga gb)) s

/-- DIVU (R423). Unsigned division. -/
def execDivu (p : Plane) (c : Fin 10) (gd : Fin 32) (ga : Fin 32) (gb : Fin 32) (s : State) : Out :=
  doDev (instrReg p c (aluF (fun _ => divideU) gd ga gb)) s

/-- REM (R423). Signed remainder. -/
def execRem (p : Plane) (c : Fin 10) (gd : Fin 32) (ga : Fin 32) (gb : Fin 32) (s : State) : Out :=
  doDev (instrReg p c (aluF (fun _ => remainder) gd ga gb)) s

/-- REMU (R423). Unsigned remainder. -/
def execRemu (p : Plane) (c : Fin 10) (gd : Fin 32) (ga : Fin 32) (gb : Fin 32) (s : State) : Out :=
  doDev (instrReg p c (aluF (fun _ => remainderU) gd ga gb)) s

/-- EXP (R430). Counts the redundant sign bits of a register. -/
def execExp (p : Plane) (c : Fin 10) (gd : Fin 32) (ga : Fin 32) (s : State) : Out :=
  doDev (instrReg p c (fun k => k.wg gd (BitVec.ofNat 32 (expW (k.rg ga))))) s

/-- NORM (R430). Normalises a register and returns the shift count. -/
def execNorm (p : Plane) (c : Fin 10) (gd : Fin 32) (gb : Fin 32) (ga : Fin 32) (s : State) : Out :=
  doDev (instrDo p c (normI gd gb ga)) s

/-- EXPA (R430). Counts the redundant sign bits of an accumulator. -/
def execExpa (p : Plane) (c : Fin 10) (gd : Fin 32) (a : Fin 4) (s : State) : Out :=
  doDev (instrReg p c (fun k => k.wg gd (BitVec.ofInt 32 ((expA (k.ra a) : Int) - 8)))) s

/-- MFS (R429). Reads a system register. -/
def execMfs (p : Plane) (c : Fin 10) (gd : Fin 32) (n : Fin 8) (s : State) : Out :=
  doDev (mfs p c gd n) s

/-- MTS (R419). Writes a system register. -/
def execMts (p : Plane) (c : Fin 10) (n : Fin 8) (gb : Fin 32) (s : State) : Out :=
  doDev (instrReg p c (fun k => k.setSys n (k.rg gb))) s

/-- ADDI_S (R424). Adds an immediate with saturation. -/
def execAddiS (p : Plane) (c : Fin 10) (gd : Fin 32) (ga : Fin 32) (imm : BitVec 16) (s : State) : Out :=
  doDev (instrReg p c (addImm true gd ga imm)) s

/-- ADDI (R429). Adds an immediate. -/
def execAddi (p : Plane) (c : Fin 10) (gd : Fin 32) (ga : Fin 32) (imm : BitVec 16) (s : State) : Out :=
  doDev (instrReg p c (addImm false gd ga imm)) s

/-- ANDI (R429). ANDs with a zero-extended immediate. -/
def execAndi (p : Plane) (c : Fin 10) (gd : Fin 32) (ga : Fin 32) (imm : BitVec 16) (s : State) : Out :=
  doDev (instrReg p c (fun k => k.wg gd (k.rg ga &&& imm.setWidth 32))) s

/-- ORI (R429). ORs with a zero-extended immediate. -/
def execOri (p : Plane) (c : Fin 10) (gd : Fin 32) (ga : Fin 32) (imm : BitVec 16) (s : State) : Out :=
  doDev (instrReg p c (fun k => k.wg gd (k.rg ga ||| imm.setWidth 32))) s

/-- LUI (R429). Loads an immediate into the upper half. -/
def execLui (p : Plane) (c : Fin 10) (gd : Fin 32) (imm : BitVec 16) (s : State) : Out :=
  doDev (instrReg p c (fun k => k.wg gd (imm.setWidth 32 <<< 16))) s

/-- LD (R420). Loads from memory with offset or post-modified addressing. -/
def execLd (p : Plane) (c : Fin 10) (g : Fin 32) (pi : Fin 8) (mi : Fin 8) (pm : Bool) (size : Fin 4) (sx : Bool)
    (disp : BitVec 11) (ecc : Ecc) (s : State) : Out :=
  doPart (ldI p c g pi mi pm size sx disp ecc) s

/-- ST (R422). Stores to memory with offset or post-modified addressing. -/
def execSt (p : Plane) (c : Fin 10) (g : Fin 32) (pi : Fin 8) (mi : Fin 8) (pm : Bool) (size : Fin 4) (disp : BitVec 11)
    (lostLo : Bool) (lostHi : Bool) (s : State) : Out :=
  doPart (stI p c g pi mi pm size disp lostLo lostHi) s

/-- POSTED_STORE_WRITTEN (R422). A posted store to the DRAM window is accepted by DRAM. -/
def execPostedStoreWritten (p : Plane) (c : Fin 10) (s : State) : Out :=
  doPart (postedWritten p c) s

/-- MAC (R424). Multiply-accumulates into an accumulator. -/
def execMac (p : Plane) (c : Fin 10) (a : Fin 4) (ga : Fin 32) (gb : Fin 32) (sat : Bool) (s : State) : Out :=
  doDev (instrReg p c (fun k => accTo sat a ((k.ra a).toInt + prod k ga gb) k)) s

/-- MSU (R424). Multiply-subtracts from an accumulator. -/
def execMsu (p : Plane) (c : Fin 10) (a : Fin 4) (ga : Fin 32) (gb : Fin 32) (sat : Bool) (s : State) : Out :=
  doDev (instrReg p c (fun k => accTo sat a ((k.ra a).toInt - prod k ga gb) k)) s

/-- AMUL (R424). Loads an accumulator with a product. -/
def execAmul (p : Plane) (c : Fin 10) (a : Fin 4) (ga : Fin 32) (gb : Fin 32) (sat : Bool) (s : State) : Out :=
  doDev (instrReg p c (fun k => accTo sat a (prod k ga gb) k)) s

/-- ACLR (R429). Clears an accumulator. -/
def execAclr (p : Plane) (c : Fin 10) (a : Fin 4) (s : State) : Out :=
  doDev (instrReg p c (fun k => k.wa a 0)) s

/-- AADD (R424). Adds a shifted register to an accumulator. -/
def execAadd (p : Plane) (c : Fin 10) (a : Fin 4) (ga : Fin 32) (sat : Bool) (sh : Fin 64) (s : State) : Out :=
  doDev (instrReg p c (fun k => accTo sat a ((k.ra a).toInt + (k.rg ga).toInt * 2 ^ (sh : Nat)) k)) s

/-- ASHL (R424). Shifts an accumulator left. -/
def execAshl (p : Plane) (c : Fin 10) (a : Fin 4) (sat : Bool) (sh : Fin 64) (s : State) : Out :=
  doDev (instrReg p c (fun k => accTo sat a ((k.ra a).toInt * 2 ^ (sh : Nat)) k)) s

/-- ASHR (R429). Shifts an accumulator right arithmetically. -/
def execAshr (p : Plane) (c : Fin 10) (a : Fin 4) (sh : Fin 64) (s : State) : Out :=
  doDev (instrReg p c (fun k => k.wa a (BitVec.ofInt 72 ((k.ra a).toInt / (2 ^ (sh : Nat) : Nat))))) s

/-- AEXT (R425). Extracts a rounded and saturated 32-bit value from an accumulator. -/
def execAext (p : Plane) (c : Fin 10) (a : Fin 4) (gd : Fin 32) (sh : Fin 64) (rnd : Bool) (s : State) : Out :=
  doDev (instrReg p c (aext a gd sh rnd)) s

/-- AEXTD (R425). Extracts a rounded and saturated 64-bit value from an accumulator. -/
def execAextd (p : Plane) (c : Fin 10) (a : Fin 4) (gd : Fin 32) (sh : Fin 64) (rnd : Bool) (s : State) : Out :=
  doDev (instrDo p c (aextd a gd sh rnd)) s

/-- AINS (R425). Loads a shifted register pair into an accumulator. -/
def execAins (p : Plane) (c : Fin 10) (a : Fin 4) (gs : Fin 32) (sh : Fin 64) (s : State) : Out :=
  doDev (instrDo p c (ains a gs sh)) s

/-- BEQ (R429). Branches when equal. -/
def execBeq (p : Plane) (c : Fin 10) (ga : Fin 32) (gb : Fin 32) (off : BitVec 16) (s : State) : Out :=
  doDev (instrDo p c (fun k => .done (branch ((· == ·)) ga gb off k))) s

/-- BNE (R429). Branches when not equal. -/
def execBne (p : Plane) (c : Fin 10) (ga : Fin 32) (gb : Fin 32) (off : BitVec 16) (s : State) : Out :=
  doDev (instrDo p c (fun k => .done (branch ((· != ·)) ga gb off k))) s

/-- BLT (R429). Branches when signed less. -/
def execBlt (p : Plane) (c : Fin 10) (ga : Fin 32) (gb : Fin 32) (off : BitVec 16) (s : State) : Out :=
  doDev (instrDo p c (fun k => .done (branch (fun a b => decide (a.toInt < b.toInt)) ga gb off k))) s

/-- BGE (R429). Branches when signed greater or equal. -/
def execBge (p : Plane) (c : Fin 10) (ga : Fin 32) (gb : Fin 32) (off : BitVec 16) (s : State) : Out :=
  doDev (instrDo p c (fun k => .done (branch (fun a b => decide (b.toInt ≤ a.toInt)) ga gb off k))) s

/-- BLTU (R429). Branches when unsigned less. -/
def execBltu (p : Plane) (c : Fin 10) (ga : Fin 32) (gb : Fin 32) (off : BitVec 16) (s : State) : Out :=
  doDev (instrDo p c (fun k => .done (branch (fun a b => decide (a.toNat < b.toNat)) ga gb off k))) s

/-- BGEU (R429). Branches when unsigned greater or equal. -/
def execBgeu (p : Plane) (c : Fin 10) (ga : Fin 32) (gb : Fin 32) (off : BitVec 16) (s : State) : Out :=
  doDev (instrDo p c (fun k => .done (branch (fun a b => decide (b.toNat ≤ a.toNat)) ga gb off k))) s

/-- JAL (R429). Jumps relative and links. -/
def execJal (p : Plane) (c : Fin 10) (gd : Fin 32) (off : BitVec 21) (s : State) : Out :=
  doDev (instrDo p c (fun k => .done (jal gd off k))) s

/-- JALR (R429). Jumps to a register and links. -/
def execJalr (p : Plane) (c : Fin 10) (gd : Fin 32) (ga : Fin 32) (s : State) : Out :=
  doDev (instrDo p c (jalr gd ga)) s

/-- MOVP (R429). Moves a register into a pointer. -/
def execMovp (p : Plane) (c : Fin 10) (i : Fin 8) (g : Fin 32) (s : State) : Out :=
  doDev (instrReg p c (fun k => k.wp i (k.rg g))) s

/-- MOVM (R429). Moves a register into an offset register. -/
def execMovm (p : Plane) (c : Fin 10) (i : Fin 8) (g : Fin 32) (s : State) : Out :=
  doDev (instrReg p c (fun k => k.wm i (k.rg g))) s

/-- MFP (R429). Moves a pointer into a register. -/
def execMfp (p : Plane) (c : Fin 10) (g : Fin 32) (i : Fin 8) (s : State) : Out :=
  doDev (instrReg p c (fun k => k.wg g (k.rp i))) s

/-- PADDI (R429). Adds an immediate to a pointer. -/
def execPaddi (p : Plane) (c : Fin 10) (i : Fin 8) (imm : BitVec 16) (s : State) : Out :=
  doDev (instrReg p c (fun k => k.wp i (k.rp i + imm16 imm))) s

/-- AMOADD (R437). Atomically adds to a state-memory word and returns the old value. -/
def execAmoadd (p : Plane) (c : Fin 10) (g : Fin 32) (pi : Fin 8) (pm : Bool) (size : Fin 4) (disp : BitVec 11) (ecc : Ecc)
    (lost : Bool) (s : State) : Out :=
  doPart (amoI (· + ·) p c g pi pm size disp ecc lost) s

/-- SWAP (R437). Atomically swaps a state-memory word. -/
def execSwap (p : Plane) (c : Fin 10) (g : Fin 32) (pi : Fin 8) (pm : Bool) (size : Fin 4) (disp : BitVec 11) (ecc : Ecc)
    (lost : Bool) (s : State) : Out :=
  doPart (amoI (fun _ g => g) p c g pi pm size disp ecc lost) s

/-- FTAP (R431). Computes one FIR tap and moves the delay line. -/
def execFtap (p : Plane) (c : Fin 10) (a : Fin 4) (px : Fin 8) (mx : Fin 8) (pc : Fin 8) (mc : Fin 8) (sat : Bool)
    (neg : Bool) (ecc : Ecc) (s : State) : Out :=
  doPart (tapI false p c a px mx pc mc sat neg ecc) s

/-- FTAP2 (R431). Computes two FIR taps and moves the delay line. -/
def execFtap2 (p : Plane) (c : Fin 10) (a : Fin 4) (px : Fin 8) (mx : Fin 8) (pc : Fin 8) (mc : Fin 8) (sat : Bool)
    (neg : Bool) (ecc : Ecc) (s : State) : Out :=
  doPart (tapI true p c a px mx pc mc sat neg ecc) s

/-- SLEEP (R461). Suspends the core until a wake condition. -/
def execSleep (p : Plane) (c : Fin 10) (s : State) : Out :=
  doDev (sleepI p c) s

/-- ERET (R433). Returns from an exception handler. -/
def execEret (p : Plane) (c : Fin 10) (s : State) : Out :=
  doDev (instrDo p c eret) s

/-- RETI (R457). Returns from an interrupt, chaining or switching when due. -/
def execReti (p : Plane) (c : Fin 10) (s : State) : Out :=
  doPart (reti p c) s

/-- TRAP (R432). Raises the TRAP exception after completing. -/
def execTrap (p : Plane) (c : Fin 10) (n : Fin 256) (s : State) : Out :=
  doDev (trap p c n) s

/-- FENCE (R422). Waits until every posted store of the core is written. -/
def execFence (p : Plane) (c : Fin 10) (s : State) : Out :=
  doDev (fenceI p c) s

/-- ILLEGAL (R427). A core executes an instruction word that is not listed, or that breaks a field rule, and takes the ILLEGAL
exception. -/
def execIllegal (p : Plane) (c : Fin 10) (s : State) : Out :=
  doDev (instrDo p c (fun _ => .exc excIllegal)) s

end Sys2Proof.Machine
end

