-- ==== Sys2Proof/Machine/Frames.lean ====
section
/-! DEFINITION. What an accepted slot frame gives the dispatcher (16_dispatch_interrupts.md R440): SLOT activations on the first
copy, and the activations of the messages that it carries. -/

namespace Sys2Proof.Machine

/-- Whether the frame of a slot was accepted by this event as its first copy. -/
def firstCopy (n slot : Nat) (before after : Dev) : Bool :=
  ((before.port n).slots.get slot).first.isNone && ((after.port n).slots.get slot).first.isSome

/-- A slot frame with its activations; the instant of acceptance is on TB0, to 0.2 ns (R324). A REFUSED node's frame reaches no consumer, nor a
process record of a node that is not admitted (R374, R378). -/
def slotArrives (n slot : Nat) (q : Path) (h : RxHead) (err : Int) (inTime : Bool) (src : Nat) (pay : SlotPayload) (d : Dev) : Dev :=
  let d1 := slotFrame n slot q h err inTime src pay d
  let ident := decide ((d.slotBytes n src pay).length = 24)
  if firstCopy n slot d d1 && (d.node n src).state != 4 && (ident || (d.node n src).state == 3) then
    let t := toFifth (d.base 0)
    let d2 := slotTasks n slot (q == .S) t d1
    match pay with
    | .ident _ => d2
    | .process _ _ msgs => if ident then d2 else forL msgs (fun m => msgArrives n src m.ch m.ofs t) d2
  else d1

end Sys2Proof.Machine
end

