-- ==== Sys2Proof/Machine/Cycle.lean ====
section
/-! DEFINITION. The cell cycle: the work of each phase start, the end of racking and the boundary (01_cell_cycle.md, with what
the other chapters place at these instants). -/

namespace Sys2Proof.Machine

/-! ### What the phases share -/

/-- An overrun of phase `ph` (R41): its flag, the fault, which carries the phase number, and degraded mode. -/
def overrun (ph : Nat) (flag : Fld) (d : Dev) : Dev := degrCause 8 (raise .PHASE_OVERRUN wShared [ph] (d.wr flag 1))

/-- The instant at which phase `n` of the running cycle is placed (R27): φ1 to φ4 after the opening boundary, φ5 before the closing
one. -/
def Dev.phaseAt (d : Dev) (n : Nat) : T96 :=
  let c := d.pat.cell
  if n = 5 then d.cyc.closeAt - c.phi5 * nsUnit
  else d.cyc.openAt + (if n = 1 then c.phi1 else if n = 2 then c.phi2 else if n = 3 then c.phi3 else c.phi4) * nsUnit

/-- The axes of plane `p` whose work of the phase stays unfinished. -/
def Dev.leftOf (d : Dev) (p : Plane) : List Nat := (d.cyc.left.filter (fun e => e.1 == p)).map (·.2)

/-- Takes the unfinished axes of the phase that starts. -/
def setLeft (l : List (Plane × Nat)) (d : Dev) : Dev := { d with cyc := { d.cyc with left := l } }

/-- Units 0 to 7 are the arms, 8 to 23 the auxiliary groups. -/
def Dev.motionUnits (d : Dev) : List Nat := d.pat.arms.map (·.1) ++ d.pat.groups.map (fun g => g.1 + 8)

/-- The dispatcher gives activations: the cores may have started (stages RING to RUN). -/
def Dev.dispatches (d : Dev) : Bool := decide (6 ≤ d.rd .SYS_STATE_STAGE) && decide (d.rd .SYS_STATE_STAGE ≤ 8)

/-- Activates the tasks of a phase start in every plane that computes, stamped with its placed instant: of a boundary the value before a step
(R317, R558). -/
def phaseActs (n : Nat) (t : T96) (d : Dev) : Dev := if d.dispatches then runPlanes (phaseTasks n t) d else d

/-! ### φ2 and φ3 -/

/-- φ2 starts: the ports judge φ1, and every plane closes its loops (R168, R386). -/
def phase2 (d : Dev) : Dev := runPlanes (fun p d => loopCycle p (d.leftOf p) d) (takeWords (forL d.usedPorts ringPhase1End d))

/-- Commands of axes whose loop output is not ready (R41). -/
def repeatLeft (d : Dev) : Dev :=
  let d1 := runPlanes (fun p d => forL ((d.leftOf p).filter d.loopAxes.contains) (repeatCommand p) d) d
  if d.cyc.left.isEmpty then d else overrun 2 .SYS_PHASE_OVR_LPE d1

/-- The boundary decision (R33): the instant that closes the next cycle, and whether it is one of IDLE (R495, R502). A follower keeps the
instant of the leader's sync frame and takes its own steps of the ladder (DEDUCED, log entry 204). -/
def decideBoundary (d : Dev) : Dev :=
  let l := d.ladderLen
  { d with cyc := { d.cyc with nextAt := if d.leads then some (d.cyc.closeAt + l.1) else d.cyc.nextAt, idleLen := l.2 } }

/-- The step pulses of a local pair for a cycle (R107, R108): those carried and those due, in that order, as far as they fit. The pair
stays idle in toile mode (R68) and while the arbiter's link is lost (R295). -/
def localSteps (p : Plane) (m : Nat) (d : Dev) : Dev :=
  if !(d.auxSec m).out then d
  else
    let idle := decide (d.rd .PAT_STATUS_TOILE = 1) || d.red.linkLost
    let sd := (d.auxSec m).sd
    let unit := 5 * nsUnit
    let x := if idle then ([], d.field.sdBacklog.get sd, d.field.sdDown.get sd)
      else driveSteps (d.rdP p .PPE_SD_CFG_PW sd * unit) (d.rdP p .PPE_SD_CFG_DS sd * unit) (d.field.sdDown.get sd) d.cycLen
        (d.field.sdBacklog.get sd ++ [(d.aux p m).due])
    let d1 := d.updField (fun f => { f with
      sdBacklog := f.sdBacklog.set sd x.2.1, sdOut := f.sdOut.set sd x.1, sdDown := f.sdDown.set sd x.2.2 })
    if !x.2.1.isEmpty && !idle then bothPlanes (fun q d => raiseP q .STEP_LAG [m] (d.wrP q .PPE_AX_STAT_STEP_LAG 1 (m - 64))) d1 else d1

/-- The microstep generator of every stepper axis in every plane, and the local pairs after the active one (R104 to R108). -/
def phase3Steps (d : Dev) : Dev :=
  let steppers := (d.pat.aux.filter (fun e => e.2.stepper)).map (·.1)
  forL steppers (fun m d => localSteps d.active m (runPlanes (fun p d => microstep p m (d.lax p m).pCmd d) d)) d

/-- The safety latch of the φ3 start (R38): STO of every axis as its unit has it, and of every axis in toile mode (R68) or when the
arbiter's link is lost (R295). -/
def latchAxes (d : Dev) : Dev :=
  let all := decide (d.rd .PAT_STATUS_TOILE = 1) || d.red.linkLost
  forL d.motionUnits (fun u d =>
    let sto := all || (d.governing u).sto
    forL (d.unitAxes u) (fun a d => d.wrBoth .LPE_AX_STAT_STO (b2n sto) a) d) d

/-- An arm with an axis in STO, or a member of whose block has one, loses its start permission (R93, R158). -/
def clearGo (n : Nat) (p : Plane) (d : Dev) : Dev :=
  if (d.armGroup p n).any (d.armHeld p) then d.wrP p .PPE_ARM_STAT_GO 0 n else d

/-- The latch of φ3 and what STO ends at once. -/
def latchSto (d : Dev) : Dev := forL (d.pat.arms.map (·.1)) (fun n d => bothPlanes (clearGo n) d) (latchAxes d)

/-- φ3 starts; the cores have placed `words` for the frames that are assembled in it (R344; log entry 174). -/
def phase3 (words : List CoreWord) (d0 : Dev) : Dev :=
  let d : Dev := { d0 with cyc := { d0.cyc with words := words } }
  setLeft [] (latchSto (forL d.usedPorts latchPermits (phase3Steps (forL d.usedPorts ringPhase3 (decideBoundary (repeatLeft d))))))

/-! ### φ4 -/

/-- The stop request that the safety plane holds for a unit at the φ4 start (R38). -/
def Dev.safRequest (d : Dev) (u : Nat) : Option StopReq :=
  (d.governing u).stop.map (fun m => { cause := if m.ss1 then .ss1 else .ss2, prog := m.prog, quick := m.quick })

/-- The safety request for an arm: a request for any member of its block acts on the whole block (R158). -/
def Dev.safArm (d : Dev) (p : Plane) (n : Nat) : Option StopReq :=
  (d.armGroup p n).foldl (fun acc m => mergeReq acc (d.safRequest m)) none

/-- The safety scales of the φ4 start (R38, R87, R88). -/
def latchScales (d : Dev) : Dev :=
  forL d.motionUnits (fun u d =>
    let s := (d.governing u).scale
    bothPlanes (fun p d => d.updPpe p (fun x => { x with scale := x.scale.set u s })) d) d

/-- The set-points of the latest φ4 become the previous ones. -/
def keepSp (p : Plane) (d : Dev) : Dev := d.updPpe p (fun x => { x with spPrev := x.sp })

/-- Below RUN the PPE plans nothing: set-points hold, feed-forward is 0 (R496). -/
def holdSp (p : Plane) (d : Dev) : Dev :=
  forL d.loopAxes (fun a d => d.setSp p a { d.spOf p a with vel := 0, trq := 0 }) d

/-- Path planning of a plane in φ4: the arms of each path, members of coupled blocks, auxiliary axes, blocks (R35, R77, R95). -/
def planPlane (p : Plane) (d : Dev) : Dev :=
  let arms := d.pat.arms.map (·.1)
  let d1 := forL arms (fun n d => if d.notCarrier p n then d else planArm p n (d.safArm p n) (d.meas p) d) d
  let d2 := forL arms (jointLimitCheck p) d1
  let d3 := forL arms (fun n d => if d.notCarrier p n then mirrorBlock p n d else d) d2
  let d4 := forL (d.pat.aux.map (·.1)) (fun m d => planAux p m (d.safRequest (8 + (d.auxSec m).group)) (d.meas p) d) d3
  forL (d.pat.geom.blocks.map (·.1)) (blockCycle p) d4

/-- φ4 starts: the cycle frame has left, its commands are compared, held deltas are taken, the PPE plans, and a batch whose producers have
all signalled has its cut (R38, R124, R126, R287, R344). -/
def phase4 (d : Dev) : Dev :=
  let d1 := latchScales (compareCommands (forL d.usedPorts sendCycleFrame d))
  let d2 := bothPlanes takeHeldDeltas (d1.updHost (fun h => { h with deliverCnt := 0, deliverBytes := 0 }))
  let d3 := bothPlanes keepSp d2
  let d4 := if d3.holding then runPlanes holdSp d3 else runPlanes planPlane d3
  runPlanes (fun p d => tryCut p 1 (tryCut p 0 (freshCuts p d))) d4

/-! ### φ5 -/

/-- An axis whose set-point is not ready: the previous position advanced by the previous velocity over the cycle, marked stale
(R41). -/
def staleSp (p : Plane) (a : Nat) (d : Dev) : Dev :=
  let y := (d.pl p).ppe.spPrev.get a
  d.setSp p a { y with pos := y.pos + rdiv (y.vel * d.cycLen) 1000000000, stale := true }

/-- Set-points of unfinished axes (R41). -/
def staleLeft (d : Dev) : Dev :=
  let d1 := runPlanes (fun p d => forL (d.leftOf p) (staleSp p) d) d
  if d.cyc.left.isEmpty then d else overrun 4 .SYS_PHASE_OVR_PLAN d1

/-- A batch that is unfinished at its deadline: the fault of R41 with the phase of its work, and degraded mode. SYS_PHASE has no flag for it
(log entry 118). -/
def batchOverrun (d : Dev) : Dev := degrCause 8 (raise .PHASE_OVERRUN wShared [4] d)

/-- The batch deadlines that lie at this φ5 start, with the overrun of a batch that is unfinished in the token holder, and degraded mode
when a matrix starves (R36, R41, R136, R138). -/
def deadlines (d : Dev) : Dev :=
  if d.holding then d
  else
    let tick := decide (d.rd .SYS_PHASE_TICK_POS + 1 = d.rd .SYS_CYCLE_TICK)
    let d1 := runPlanes (closeBatch · 0) d
    let d2 := if tick then runPlanes (closeBatch · 1) d1 else d1
    let ids := d.classMats 0 ++ (if tick then d.classMats 1 else [])
    let late := !(batchReady d d.active 0) || (tick && !(batchReady d d.active 1))
    let d3 := if late then batchOverrun d2 else d2
    if ids.any (fun m => starvedNow d3 d3.active m) then degrCause 7 d3 else d3

/-- φ5 starts: unfinished set-points, tasting, deadlines, comparison, capture samples (R41, R136, R287, R290, R393). `late` says that
the comparison is unfinished; the replies are then compared for the closing boundary. -/
def phase5 (late : Bool) (s : Part) : Part :=
  let d1 := deadlines (tastePhase5 (staleLeft s.dev))
  let d2 := if late then overrun 4 .SYS_PHASE_OVR_CMP d1 else d1
  let d3 := compareRecords late d2
  let d3 := if late then d3 else compareReplies d3
  capPhase5 { s with dev := startRack s.mems.pl (setLeft [] d3) }

/-! ### PHASE_START (R27) -/

/-- Phase `n` may start: it follows the phase that runs. -/
def Dev.phaseDue (d : Dev) (n : Nat) : Bool :=
  d.cyc.running && d.cyc.started && decide (1 ≤ n) && decide (n ≤ 5) && decide (d.rd .SYS_PHASE + 1 = n)

/-- The placed start of phase `n` is reached. `left` are the axes, by plane, whose work of the phase that starts will not be
finished, given at φ2 for loop outputs and at φ4 for set-points; `words` belong to φ3, `late` to φ5. -/
def phaseStart (n : Nat) (left : List (Plane × Nat)) (late : Bool) (words : List CoreWord) (s : Part) : Part :=
  if !s.dev.phaseDue n then s
  else
    let d0 := runUntil (s.dev.phaseAt n) s.dev
    let d1 := d0.wr .SYS_PHASE n
    let s1 : Part :=
      if n = 2 then { s with dev := phase2 (setLeft left d1) }
      else if n = 3 then { s with dev := phase3 words d1 }
      else if n = 4 then { s with dev := phase4 (setLeft left d1) }
      else if n = 5 then phase5 late { s with dev := d1 }
      else { s with dev := d1 }
    s1.onDev (phaseActs n (s.dev.phaseAt n))

/-! ### RACK_COMPLETE (R284 to R286, R298) -/

/-- The memory of a plane by space: 0 to 9 local, 10 state. -/
def PlaneMems.space (x : PlaneMems) (n : Nat) : Mem := if n = 10 then x.state else x.loc.get n

/-- Replaces the memory of a space of plane `p`. -/
def Mems.setSpace (m : Mems) (p : Plane) (n : Nat) (x : Mem) : Mems := if n = 10 then m.setState p x else m.setLoc p n x

/-- Copies a range of `src` over that of the same space of plane `p`. -/
def Mems.copyIn (m : Mems) (p : Plane) (n : Nat) (src : PlaneMems) (lo hi : Nat) : Mems :=
  m.setSpace p n ((src.space n).copyRange ((m.pl p).space n) lo hi)

/-- The memory of the receiving plane after racking: RACKED regions as the other plane held them at the φ5 start, with what the plane
itself wrote there since racking ended; at a join the PAIRED regions too (R284, R285, R298). -/
def rackMems (d : Dev) (r : RackRun) (m : Mems) : Mems :=
  let dst := r.src.other
  let own := m.pl dst
  let regions (c : MemClass) := d.pat.mem.regions.filter (fun x => x.cls == c)
  let m1 := forL (regions .racked) (fun x m => m.copyIn dst x.space r.here.mem x.lo x.hi) m
  let m2 := forL r.written (fun w m => m.copyIn dst w.1 own w.2.1 (w.2.1 + w.2.2)) m1
  if r.join then forL (regions .paired) (fun x m => m.copyIn dst x.space (m.pl r.src) x.lo x.hi) m2 else m2

/-- A core of a plane that joins: a task that runs on the token holder's core `h` restarts from its entry at its current
activation (R283), another core stays at its ENTRY. -/
def joinCore (d : Dev) (p : Plane) (c : Nat) (h k : Core) : Core :=
  match h.intTask, h.curTask with
  | some t, cur => { startCtx d p c t h.intAct k with curTask := cur, curAct := h.curAct, intTask := some t, intAct := h.intAct }
  | none, some t => startCtx d p c t h.curAct k
  | none, none => k

/-- The saved contexts of a joining plane's core: pre-empted tasks restart from their entries too, the base context from ENTRY. -/
def joinSaved (d : Dev) (p : Plane) (c : Nat) (k : Core) (m : Mem) : Mem :=
  let mine := (d.tsk p).saved.cells.filter (fun e => (d.taskDesc e.1).core == c)
  let m1 := if (d.core p.other c).curTask.isSome then saveCtx k (d.rdP p .TSK_CORE_BASE c) m else m
  mine.foldl (fun m e =>
    match e.2 with
    | some a => saveCtx (startCtx d p c e.1 a k) (d.taskDesc e.1).save m
    | none => m) m1

/-- The cores of a joining plane (R283, R298). -/
def joinCores (p : Plane) (s : Part) : Part :=
  forN 10 (fun c s =>
    let k := s.dev.core p c
    if !k.loaded then s
    else
      { mems := s.mems.setLoc p c (joinSaved s.dev p c k (s.mems.loc p c))
        dev := s.dev.setCore p c (joinCore s.dev p c (s.dev.core p.other c) k) }) s

/-- What racking copied becomes visible to the receiving plane at the closing boundary (R40): memory, the rest of the set, and at a
join the PAIRED state and the cores (R298). The role part of the boundary reads the run that has landed, and ends it. -/
def landRack (s : Part) : Part :=
  match s.dev.rack with
  | none => s
  | some r =>
    let dst := r.src.other
    if !r.ok then s
    else
      let s1 : Part := { mems := rackMems s.dev r s.mems, dev := if r.join then bulkSet r.src s.dev else rackSet dst r s.dev }
      if r.join then joinCores dst s1 else s1

/-- RACK_COMPLETE with its outcome: whether the check value agrees, the close marks and the role claims. -/
def rackComplete (crcOk markA markB : Bool) (claimA claimB : Option Plane) (d : Dev) : Dev :=
  if !d.cyc.running || d.rd .SYS_PHASE ≠ 5 || d.cyc.rackDone then d else rackDev crcOk markA markB claimA claimB d

end Sys2Proof.Machine
end

