-- ==== Sys2Proof/Machine/Boundary.lean ====
section
/-! DEFINITION. The cell boundary: what is sampled, decided, flipped, counted and made live at the instant that closes a cycle and
opens the next one (R30, R34, R35, R40, and what the other chapters place there). -/

namespace Sys2Proof.Machine

/-! ### The closing cycle -/

/-- Feedback of the F die is sampled at the boundary instant (R30). -/
def sampleField (d : Dev) : Dev := forN 4 aiBoundary (forN 18 (fun n d => fbBoundary n d.cyc.closeAt d) d)

/-- Racking that no RACK_COMPLETE ended is unfinished (R41, R286): the generation does not advance. Each running plane counts
as having sent its close mark. -/
def rackUnfinished (d : Dev) : Dev :=
  if !d.cyc.started || d.cyc.rackDone then d
  else
    let mark (p : Plane) (d : Dev) : Dev := d.updRole p (fun r => { r with mark := true })
    let d1 := runPlanes mark d
    if d.red.taste.on || !d.inStep then d1
    else overrun 5 .SYS_PHASE_OVR_RACK (d1.updRed (fun r => { r with rackFail := true }))

/-- Solution buffers flip (R128); below RUN a batch only gives its cut up (R496). -/
def flipBatches (tick : Bool) (d : Dev) : Dev :=
  let classes := if tick then [0, 1] else [0]
  forL classes (fun cls d => runPlanes (fun p d =>
    if d.holding then d.updSlv p (fun s => { s with cut := s.cut.set cls false })
    else
      let due := decide (d.batchState p cls = 3) && !(d.classMats cls).isEmpty
      let d1 := flipBatch p cls d
      if due && d.dispatches then solverTasks p cls d.cyc.closeAt d1 else d1) d) d

/-! ### Counters and bases -/

/-- SYS_CYCNT and TICK_POS of the cycle that opens (R34): a follower counts as its leader announced. -/
def countCycle (tick : Nat) (d : Dev) : Dev :=
  let n := if d.leads then (if d.cyc.restart then 0 else d.rd .SYS_CYCNT + 1) else d.cyc.announced.getD (d.rd .SYS_CYCNT + 1)
  (d.wr .SYS_CYCNT n).wr .SYS_PHASE_TICK_POS tick

/-- TICK_POS of the cycle that opens. -/
def Dev.nextTick (d : Dev) : Nat :=
  if d.cyc.restart || d.rd .SYS_CYCLE_TICK ≤ d.rd .SYS_PHASE_TICK_POS + 1 then 0 else d.rd .SYS_PHASE_TICK_POS + 1

/-- The rate of every base against TB0 over the cycle that closed, and the values that the next cycle counts from, which are those of `d1`,
after the steps of the boundary (R81; DEDUCED, log entry 160). -/
def Dev.measureRates (d d1 : Dev) : Dev :=
  let span : Int := (d.base 0 : Int) - (d.cyc.bases.get 0 : Int)
  let rate (b : Nat) : Nat := (((d.base b : Int) - (d.cyc.bases.get b : Int)) * 2 ^ 24 / span).toNat
  let rates := if d.cyc.started && decide (0 < span) then (List.range 8).foldl (fun t b => t.set b (rate b)) d.cyc.rates else d.cyc.rates
  { d1 with cyc := { d1.cyc with rates := rates, bases := (List.range 8).foldl (fun t b => t.set b (d1.base b)) d1.cyc.bases } }

/-- The snapshot and the steps of the bases; dispatcher timers of a stepped base follow (R316, R317, R453). Answers whether
the base of capture was stepped, be it by zero. -/
def stepBases (d : Dev) : Dev × Bool :=
  let d1 := d.measureRates (timeSteps (d.rd .SYS_CYCNT) d)
  let jumped := (List.range 8).filter (fun b => d.base b != d1.base b)
  (forL jumped (fun b d => runPlanes (stepTimers b (d.base b)) d) d1, (d1.bs d.capBase).stepNow)

/-- The bases after the staged set, and what a holdover of TB2 that this boundary began stops (R103, R312, R323): `old` is the device
before its staged sets went live, of which one may force a holdover. -/
def basesLive (old d : Dev) : Dev :=
  let d1 := timeBoundary d
  if old.baseState 2 ≠ 2 && d1.baseState 2 = 2 then runPlanes shaftHoldover d1 else d1

/-! ### The planning tick (R35) -/

/-- The tick's work of a plane at a planning-tick boundary. Zones are reserved from SEWN on: at the first tick after it every token is free
(R152). -/
def tickWork (p : Plane) (d : Dev) : Dev :=
  let arms := d.pat.arms.map (·.1)
  let aux := d.pat.aux.map (·.1)
  let tickNs := d.rd .SYS_CYCLE_TICK * (d.tCell / nsUnit)
  let d1 := tablesLive p (overridesLive p d)
  let d2 := forL arms (fun n d => if d.notCarrier p n then d else enterLookAhead p n 64 d) d1
  let d3 := if d2.rd .SYS_STATE_STAGE = 8 then reservationPass p d2 else d2
  let d5 := forL arms (fun n d => armShaft p n tickNs d) d3
  let d6 := forL aux (fun m d => auxShaft p m tickNs d) d5
  let d7 := forL (d.pat.geom.blocks.map (·.1)) (fun b d => blockTick p b (d.meas p) d) d6
  proximity p d7

/-- An accepted AXIS_SETPOS or LOOP_CLEAR takes effect (R111, R190). -/
def axesBoundary (p : Plane) (d : Dev) : Dev :=
  forL d.loopAxes (loopBoundary p) (forL (d.pat.aux.map (·.1)) (setposBoundary p) d)

/-! ### After the new cycle is open -/

/-- Cores begin at ENTRY at the first boundary after their plane has passed tasting (15_cores_datapath.md). -/
def startCores (d : Dev) : Dev :=
  if !d.dispatches then d
  else runPlanes (fun p d => forN 10 (fun c d =>
    if (d.core p c).loaded && !(d.core p c).started then d.updCore p c (fun k => { k with started := true }) else d) d) d

/-- Both planes have failed and every arm and group is in STO: the controller reloads from stage LOAD (R296). -/
def reloadBoth (d : Dev) : Dev :=
  if d.red.bothFail && !d.red.reload && allSto d then setStage 4 (d.updRed (fun r => { r with reload := true })) else d

/-- The instants of the cycle that opens; an undecided one is placed T_cell on. -/
def openCycle (d : Dev) : Dev :=
  { d with cyc := { d.cyc with
      openAt := d.cyc.closeAt, closeAt := d.cyc.nextAt.getD (d.cyc.closeAt + d.tCell), nextAt := none } }

/-- The marks of the cycle start anew, in phase φ0. -/
def freshCycle (d : Dev) : Dev :=
  { d.wr .SYS_PHASE 0 with
      cycNo := d.cycNo + 1
      cyc := { d.cyc with restart := false, rackDone := false, rackOk := true, left := [], announced := none, started := true } }

/-! ### BOUNDARY (R30) -/

/-- The boundary may occur: the cycle runs and its last phase has started, or it is the first one. -/
def Dev.boundaryDue (d : Dev) : Bool := d.cyc.running && (!d.cyc.started || d.rd .SYS_PHASE == 5)

/-- The closing cycle at the boundary instant: samples, the arbiter, flips (R30, R128, R293). -/
def closeCycle (tick : Bool) (d : Dev) : Dev :=
  let d1 := rackUnfinished (sampleField (runUntil d.cyc.closeAt d))
  let d2 := if d.cyc.started then releaseDisputed (roleBoundary (d1.cycLen / nsUnit) (compareReplies d1)) else d1
  let d3 : Dev := { d2 with rack := none, cyc := { d2.cyc with words := [] } }
  freshHostDeltas (if d.cyc.started then flipBatches tick d3 else d3)

/-- What becomes live as the new cycle opens: bases, staged sets, SYNC_IN counters, accepted commands, the planning tick. -/
def liveCycle (tick : Bool) (d : Dev) : Dev :=
  let d1 := basesLive d (applyBoundary tick d)
  let d2 := runPlanes axesBoundary (syncBoundary d.cyc.openAt d1)
  if tick && !d2.holding then runPlanes tickWork d2 else d2

/-- What ends the boundary of the device alone: ring, cores, toile, ladder, reload. -/
def settleCycle (tick : Bool) (d : Dev) : Dev :=
  let d1 := clearInputs (forL d.usedPorts ringBoundary d)
  reloadBoth (ladderBoundary tick d1.cyc.idleLen (toileBoundary (startCores d1)))

/-- The boundary. -/
def boundary (s : Part) : Part :=
  if !s.dev.boundaryDue then s
  else
    let n := s.dev.nextTick
    let tick := decide (n = 0)
    let s0 := landRack s
    let d1 := countCycle n (openCycle (closeCycle tick s0.dev))
    let at' := d1.cyc.openAt
    let st := stepBases d1
    let d2 := liveCycle tick st.1
    let live := st.1.applySets.any (fun x => x.blk == .cap)
    let changed := capChanged st.1 d2
    let s1 : Part := { s0 with dev := d2 }
    let s2 := (bankBoundary .B (bankBoundary .A s1)).onDev (settleCycle tick)
    let s3 := (cellarDrain (capBoundary st.2 live changed s2)).onDev calFinish
    let s4 := deliverHeld s3
    s4.onDev (fun d => phaseActs 0 at' (freshCycle d))

end Sys2Proof.Machine
end

