-- ==== Sys2Proof/Machine/CycleRows.lean ====
section
/-! DEFINITION. Rows of the cell cycle, of the solver's batches, of SYNC_IN and of register writes (01_cell_cycle.md, 04_solver.md, 00_scope.md). -/

namespace Sys2Proof.Machine

/-- BOUNDARY (R30). The cell boundary instant on TB0 is reached: feedback is sampled, commands take effect, staged sets go live
and the cycle counter advances. -/
def execBoundary (s : State) : Out :=
  doPart boundary s

/-- PHASE_START (R27). A placed phase start of the cell cycle is reached and its phase work begins. -/
def execPhaseStart (n : Fin 6) (left : List (Plane × Nat)) (late : Bool) (words : List CoreWord) (s : State) : Out :=
  doPart (phaseStart n left late words) s

/-- RACK_COMPLETE (R285). Racking of the cycle ends, the generation advances and each plane sends its close mark. -/
def execRackComplete (crcOk : Bool) (markA : Bool) (markB : Bool) (claimA : Option Plane) (claimB : Option Plane)
    (s : State) : Out :=
  doDev (rackComplete crcOk markA markB claimA claimB) s

/-- SOLVER_MATRIX_COMPLETE (R135). A matrix stage or the matrix's final result completes in the factor pool. -/
def execSolverMatrixComplete (p : Plane) (id : Fin 256) (s : State) : Out :=
  doDev (matrixStage p id) s

/-- BATCH_COMPLETE (R127). The cycle batch completes and tick-batch work or tasting may proceed. -/
def execBatchComplete (p : Plane) (cls : Fin 2) (s : State) : Out :=
  doDev (batchComplete p cls) s

/-- CUT_MAX_EXPIRY (R126). CUT_MAX after the φ4 start expires and the cut happens without the missing producers. -/
def execCutMaxExpiry (p : Plane) (cls : Fin 2) (s : State) : Out :=
  doDev (cutMaxExpiry p cls) s

/-- SYNC_IN_EDGE (R43). An accepted SYNC_IN edge is stamped and the phase error and rate and phase terms updated. -/
def execSyncInEdge (t : Nat) (width : Nat) (falling : Bool) (s : State) : Out :=
  doDev (syncEdge t width falling) s

/-- EDGE_MISS (R46). No SYNC_IN edge is accepted within M + 16 cell cycles. -/
def execEdgeMiss (s : State) : Out :=
  doDev edgeMiss s

/-- SYNC_CTL_WRITE (R48). A write to SYS_SYNC_CTL enables, disables or is ignored under the SYNC_EN rules. -/
def execSyncCtlWrite (w : Word) (s : State) : Out :=
  doDev (syncCtlWrite w.toNat) s

/-- APPLY (R11). A write of APPLY checks a block's staging set and makes it pending or sets APPLY_ERR. -/
def execApply (who : Actor) (b : Blk) (w : Word) (s : State) : Out :=
  doPart (applyRow who b w.toNat) s

/-- REGISTER_WRITE (R8). A write to a register field that has no behaviour of its own updates it under its access code. -/
def execRegisterWrite (a : Nat) (w : Word) (s : State) : Out :=
  doPart (hostWrite a w.toNat) s

end Sys2Proof.Machine
end

