-- ==== Sys2Proof/Machine/DispatchRows.lean ====
section
/-! DEFINITION. Rows of task dispatch and interrupts (16_dispatch_interrupts.md). -/

namespace Sys2Proof.Machine

/-- INTERRUPT_CLAIM (R455). The ICU commits a pending source to one core and clears PEND. -/
def execInterruptClaim (p : Plane) (src : Fin 512) (s : State) : Out :=
  doDev (interruptClaim p src) s

/-- INTERRUPT_DELIVERY (R456). After the instruction in progress a claimed interrupt is delivered with a frame and vector. -/
def execInterruptDelivery (p : Plane) (c : Fin 10) (s : State) : Out :=
  doPart (interruptDelivery p c) s

/-- CORE_WAKE (R461). A sleeping core is woken by a pending source or a ready higher task. -/
def execCoreWake (p : Plane) (c : Fin 10) (s : State) : Out :=
  doDev (coreWake p c) s

/-- PREEMPT_SWITCH (R446). The dispatcher switches a core to a higher-priority PREEMPT task in hardware. -/
def execPreemptSwitch (p : Plane) (c : Fin 10) (s : State) : Out :=
  doPart (preemptSwitch p c) s

/-- TSK_POST (R450). A core's write of TSK_POST posts to a task, is dropped, or stalls. -/
def execTskPost (p : Plane) (c : Fin 10) (t : Fin 1024) (s : State) : Out :=
  doDev (coreDo p c (tskPost p c t)) s

/-- POST_STALL_END (R450). Room appears in the target queue and a stalled post completes. -/
def execPostStallEnd (p : Plane) (c : Fin 10) (s : State) : Out :=
  doDev (postStallEnd p c) s

/-- POST_TIMEOUT (R450). A stalled post lasts 64 µs and is discarded. -/
def execPostTimeout (p : Plane) (c : Fin 10) (s : State) : Out :=
  doDev (postTimeout p c) s

/-- MSG_RELEASE (R452). Room appears in a task queue and a held message enters it. -/
def execMsgRelease (p : Plane) (t : Fin 1024) (s : State) : Out :=
  doDev (msgRelease p t) s

/-- TSK_TAKE (R445). A read of TSK_TAKE makes the chosen INTERRUPT-mode task's oldest activation current. -/
def execTskTake (p : Plane) (c : Fin 10) (s : State) : Out :=
  doDev (coreDo p c (fun d => (tskTake p c d).1)) s

/-- TSK_DONE (R447). A write of DONE ends the current activation and the dispatcher chooses again. -/
def execTskDone (p : Plane) (c : Fin 10) (s : State) : Out :=
  doPart (coreDoP p c (tskDone p c)) s

/-- ICU_RAISE (R454). A write to ICU_RAISE raises a doorbell or software source. -/
def execIcuRaise (who : Actor) (src : Fin 512) (s : State) : Out :=
  doDev (writeBy who .icu 0x10 src (fun p => icuRaiseWrite p src)) s

/-- ICU_SRC_WRITE (R462). A write of LEVEL, TARGET or THRESH takes effect at its commit at the ICU. -/
def execIcuSrcWrite (who : Actor) (f : IcuReg) (w : Word) (s : State) : Out :=
  doDev (writeBy who .icu f.off w.toNat (fun p => icuRegWrite p f w.toNat)) s

/-- TASK_POST (R451). Mailbox command that posts to a task. -/
def execTaskPost (h : MbxHdr) (t : Fin 1024) (arg : Word) (s : State) : Out :=
  doDev (fun d => mailboxP h (hostPostRoom t d) (taskPost t arg.toNat) d) s

end Sys2Proof.Machine
end

