-- ==== Sys2Proof/Machine/FieldRows.lean ====
section
/-! DEFINITION. Rows of feedback, analog inputs and pulse dividers (07_feedback.md). -/

namespace Sys2Proof.Machine

/-- FB_COUNT (R196): accepted levels of a channel; pulse dividers and PULSE bases on it follow (R215, R321). -/
def fbCount (n : Nat) (a b z : Bool) (seen : Nat) (t : T96) (d : Dev) : Dev :=
  if !d.filtered n seen then d else
  let r := acceptLevels n a b z (d.pinStamp n t) d
  let d1 := poFollow n r.2.1 r.2.2 r.1
  if 16 ≤ n && r.2.1 != 0 then shaftCount (n - 16) (decide (0 < r.2.1)) d1 else d1

/-- FB_COUNT (R196). An accepted edge on a feedback or pulse input moves the counter. -/
def execFbCount (n : Fin 18) (a : Bool) (b : Bool) (z : Bool) (t : PinLevels) (s : State) : Out :=
  doDev (fbCount n a b z t.seen t.time) s

/-- SSI_TRANSFER (R207). An SSI transfer ends and its value or failure is taken. -/
def execSsiTransfer (n : Fin 16) (lowBefore : Bool) (first : Bool) (raw : Nat) (par : Bool) (closing : Bool)
    (s : State) : Out :=
  doDev (ssiTransfer n lowBefore first raw par closing) s

/-- WIRE_FAULT (R211). A wire-fault condition has held for 1 µs and its class sets. -/
def execWireFault (n : Fin 18) (pair : Fin 3) (cls : Fin 8) (s : State) : Out :=
  doDev (wireFault n pair cls) s

/-- WIRE_FAULT_CLEAR (R209). A wire-fault condition has been absent for 10 ms and its class clears. -/
def execWireFaultClear (n : Fin 18) (pair : WireEnd) (s : State) : Out :=
  doDev (wireClear n pair.pair pair.cls) s

/-- IDX_ARM (R199). A write of IDX_ARM arms a ONCE index event. -/
def execIdxArm (n : Fin 18) (s : State) : Out :=
  doDev (armIndex n) s

/-- CLR_REF (R212). A write of CLR_REF clears REF_LOST when the pairs are fault-free. -/
def execClrRef (n : Fin 18) (s : State) : Out :=
  doDev (clearRef n) s

/-- FB_CLR_CNT (R212). A write of CLR_CNT in FBn_CMD clears the channel's error counters. -/
def execFbClrCnt (n : Fin 18) (s : State) : Out :=
  doDev (clearFbCounters n) s

/-- AI_SAMPLE (R214). The F die takes one 50 kS/s conversion of an analog input, updating RANGE and CM and raising AI_RANGE or
AI_CM. -/
def execAiSample (c : Fin 4) (code : Int) (cm : Bool) (s : State) : Out :=
  doDev (aiSample c code cm) s

/-- PO_OUTPUT_STEP (R215). A pulse divider output steps one quadrature state toward zero backlog after MIN_SEP, reducing the
backlog and clearing LAG. -/
def execPoOutputStep (o : Fin 4) (t : PoTick) (s : State) : Out :=
  doDev (poStep o t.time t.bad) s

end Sys2Proof.Machine
end

