-- ==== Sys2Proof/Machine/HostRows.lean ====
section
/-! DEFINITION. Rows of the host link, the flash and the debug ports (19_host_link.md). -/

namespace Sys2Proof.Machine

/-- DOORBELL (R509). A write of a command ring write pointer rings the doorbell and commands become readable. -/
def execDoorbell (u : Bool) (wp : Nat) (cmds : List MbxHdr) (s : State) : Out :=
  doDev (doorbell u wp cmds) s

/-- RPL_RP (R511). A write of HST_RPL_RP frees reply ring space so delivery may resume. -/
def execRplRp (rp : Nat) (s : State) : Out :=
  doDev (rplRp rp) s

/-- HST_PROTO (R515). A write of HST_PROTO.REQ negotiates the host protocol version. -/
def execHstProto (w : Word) (s : State) : Out :=
  doDev (protoWrite w.toNat) s

/-- BAR4_WRITE (R517). A host write through BAR4 reaches DRAM or is refused outside the host window. -/
def execBar4Write (o : Nat) (bs : List Byte) (s : State) : Out :=
  doPart (bar4Write o bs) s

/-- KICK (R519). A write of KICK restarts the host watchdog. -/
def execKick (t : BitVec 16) (s : State) : Out :=
  doDev (wdogWrite (t.toNat + 0x10000)) s

/-- HOST_TIMEOUT (R519). The watchdog expires and every arm and group receives a STOP. -/
def execHostTimeout (s : State) : Out :=
  doDev hostTimeout s

/-- CORE_DB (R524). A host write of HST_CORE_DB raises source 416 in both planes. -/
def execCoreDb (s : State) : Out :=
  doDev coreDb s

/-- PCIE_LINK_DOWN (R507). The PCIe link goes down and motion and safety continue. -/
def execPcieLinkDown (s : State) : Out :=
  doDev linkDown s

/-- DEBUG_UNLOCK (R522). Mailbox command that unlocks debug with a signed token under presence. -/
def execDebugUnlock (h : MbxHdr) (tok : DbgToken) (s : State) : Out :=
  doDev (debugUnlock s.vault h tok) s

/-- DEBUG_LOCK (R522). Mailbox command that locks debug. -/
def execDebugLock (h : MbxHdr) (s : State) : Out :=
  doDev (debugLock h) s

/-- NONCE_READ (R522). A read of HST_DBG_NONCE LO produces a new nonce and latches HI. -/
def execNonceRead (s : State) : Out :=
  doDev nonceRead s

/-- CELLAR_NOTE (R413). Mailbox command that writes host text as writer 8 records. -/
def execCellarNote (h : MbxHdr) (text : List Nat) (s : State) : Out :=
  doDev (cellarNote h text) s

/-- FUSES_READ (R70). Reading of the fuses and key slots completes and start-up moves from stage FUSES to stage DRAM. -/
def execFusesRead (s : State) : Out :=
  doDev (fusesRead s.vault) s

/-- FLASH_OPERATION_DONE (R60). A flash erase, program or read-back of a Pattern write or flash read completes, so the next
write step, the commit with its presence test, or the reply follows. -/
def execFlashOperationDone (read : Bool) (ok : Bool) (s : State) : Out :=
  doPart (flashOpDone s.vault read ok) s

/-- PCIE_LINK_UP (R524). The PCIe link comes up and raises source 417 for the change of link state. -/
def execPcieLinkUp (w : Fin 4) (gen : Fin 4) (s : State) : Out :=
  doDev (linkUp w gen) s

/-- ETH_FRAME_RX (R520). A MAC receives an Ethernet frame that passes its filter and delivers it to the host rings or to both
planes' CC1. -/
def execEthFrameRx (mac : Fin 2) (len : Nat) (s : State) : Out :=
  doDev (ethFrame mac len) s

/-- DEBUG_PORT_ACCESS (R523). The vendor debug port requests a halt, step or memory access, which is accepted only under the
unlock and STO conditions. -/
def execDebugPortAccess (op : DebugOp) (s : State) : Out :=
  doPart (debugPort op) s

/-- JTAG_INSTRUCTION (R521). A JTAG instruction such as EXTEST, CLAMP or HIGHZ is loaded, is refused unless its conditions hold,
and then forces the boundary cells. -/
def execJtagInstruction (i : JtagInstr) (s : State) : Out :=
  doDev (jtag i) s

end Sys2Proof.Machine
end

