-- ==== Sys2Proof/Machine/MotionRows.lean ====
section
/-! DEFINITION. Rows of paths, auxiliary axes, blocks, loops and the delta queue (03_paths_profiles.md to 06_loops.md). -/

namespace Sys2Proof.Machine

/-- STOP, QSTOP, RESUME or ABORT of a unit (R91, R93): by mailbox, or by a write of `bits` to the arm's command register; groups have
no such register. -/
def motionCommand (via : Via) (t bits : Nat) (f : Plane → Dev → Dev) (reply : Dev → Nat × Nat) (d : Dev) : Dev :=
  match via with
  | .mbx h => mailboxP h true (fun d => (bothPlanes f d, (reply d).1, (reply d).2)) d
  | .reg who => if t < 8 then writeBy who .ppe (0x100 + 32 * t) bits f d else d

/-- SEG_APPEND (R75). Mailbox command that appends checked path segment records to an arm's queue. -/
def execSegAppend (h : MbxHdr) (n : Fin 8) (recs : List (List Nat)) (s : State) : Out :=
  doDev (fun d => mailboxP h (segRoom n recs.length d) (segAppend n recs) d) s

/-- AUX_MOVE (R97). Mailbox command that replaces an auxiliary axis's move. -/
def execAuxMove (h : MbxHdr) (m : Fin 64) (mv : Move) (s : State) : Out :=
  doDev (mailboxP h true (auxMove (64 + m) mv)) s

/-- MS_TABLE_LOAD (R106). Mailbox command that replaces a microstep table. -/
def execMsTableLoad (h : MbxHdr) (t : Fin 4) (vals : List Nat) (s : State) : Out :=
  doDev (mailboxP h true (msTableLoad t vals)) s

/-- AXIS_SETPOS (R111). Mailbox command that sets a stepper axis's coordinate after homing. -/
def execAxisSetpos (h : MbxHdr) (m : Fin 64) (pos : Int) (s : State) : Out :=
  doDev (mailboxP h true (axisSetpos (64 + m) pos)) s

/-- MS_PARK (R109). Mailbox command signalling an orderly power-down of a local SD axis. -/
def execMsPark (h : MbxHdr) (m : Fin 64) (s : State) : Out :=
  doDev (mailboxP h true (msPark (64 + m))) s

/-- STOP (R91). Command that stops an arm or group on the programmed ramp into HELD. -/
def execStop (via : Via) (t : Fin 24) (s : State) : Out :=
  doDev (motionCommand via t 0x1 (fun p => requestTarget p (targetCode t) .stop false) (fun _ => (0, 0))) s

/-- QSTOP (R91). Command that stops an arm or group on the quick-stop ramp into HELD. -/
def execQstop (via : Via) (t : Fin 24) (s : State) : Out :=
  doDev (motionCommand via t 0x2 (fun p => requestTarget p (targetCode t) .qstop true) (fun _ => (0, 0))) s

/-- RESUME (R93). Command that resumes an arm or group when its conditions hold. -/
def execResume (via : Via) (t : Fin 24) (s : State) : Out :=
  doDev (motionCommand via t 0x4 (fun p => resumeTarget p (targetCode t)) (fun d => resumeReply d.active (targetCode t) d)) s

/-- ABORT (R91). Command that stops on the programmed ramp and flushes the queue. -/
def execAbort (via : Via) (t : Fin 24) (s : State) : Out :=
  doDev (motionCommand via t 0x8 (fun p => abortTarget p (targetCode t)) (abortReply (targetCode t))) s

/-- PPE_OVR (R86). A write of an override that takes effect at the next planning-tick boundary. -/
def execPpeOvr (who : Actor) (i : Fin 24) (v : BitVec 16) (s : State) : Out :=
  doDev (writeBy who .ppe (0x40 + 4 * i) v.toNat (fun p d => d.wrP p .PPE_OVR v.toNat i)) s

/-- COUPLE (R155). Mailbox command that couples a block of arms. -/
def execCouple (h : MbxHdr) (b : Fin 4) (s : State) : Out :=
  doDev (fun d => mailboxP h true (coupleCmd b (d.meas d.active)) d) s

/-- DECOUPLE (R161). Mailbox command that decouples a block over two planning ticks. -/
def execDecouple (h : MbxHdr) (b : Fin 4) (s : State) : Out :=
  doDev (mailboxP h true (decoupleCmd b)) s

/-- LOOP_CLEAR (R190). Mailbox command that clears an axis fault. -/
def execLoopClear (h : MbxHdr) (a : Fin 128) (s : State) : Out :=
  doDev (mailboxP h true (loopClear a)) s

/-- SLV_DELTA (R123). Mailbox command that enqueues delta records in both planes. -/
def execSlvDelta (h : MbxHdr) (l : List Delta) (s : State) : Out :=
  doDev (fun d => mailboxP h (deltasFit l.length d) (mailDeltas l) d) s

/-- SLV_DELTA_HI (R123). A write to a delta window's HI word enqueues one delta record, stalling on a full queue. -/
def execSlvDeltaHi (who : Actor) (win : Fin 12) (hi : Word) (s : State) : Out :=
  doPart (regWrite who .slv (0x104 + 8 * win) hi.toNat) s

/-- DELTA_STALL_END (R123). A record leaves the full delta queue and a stalled core store completes. -/
def execDeltaStallEnd (p : Plane) (s : State) : Out :=
  doDev (deltaStallEnd p) s

/-- SLV_CUT (R126). A core signals done for the next cut of the cycle or tick batch. -/
def execSlvCut (p : Plane) (c : Fin 10) (done : Bool) (tdone : Bool) (s : State) : Out :=
  doDev (coreDo p c (slvCut p c done tdone)) s

/-- PPE_SIGNALS_CUT (R126). The PPE finishes its φ4 interpolation, signals done internally, and the batch cut occurs when it is
the last declared producer. -/
def execPpeSignalsCut (p : Plane) (s : State) : Out :=
  doDev (ppeSignals p) s

end Sys2Proof.Machine
end

