-- ==== Sys2Proof/Machine/PlaneRows.lean ====
section
/-! DEFINITION. Rows of the planes and the role arbiter (10_planes_racking.md). -/

namespace Sys2Proof.Machine

/-- TASTE_SIGNATURE (R290). A plane's tasting signature reaches the arbiter and is judged. -/
def execTasteSignature (p : Plane) (ok : Bool) (lines : Nat) (s : State) : Out :=
  doDev (tasteSignature p ok lines) s

/-- ARB_LINK (R295). The die-to-die link loses the arbiter's selects and STO frames are sent. -/
def execArbLink (s : State) : Out :=
  doDev arbLink s

/-- RELOAD_DONE (R298). A rejoining plane finishes reloading and checking its Pattern and starts tasting alone. -/
def execReloadDone (p : Plane) (ok : Bool) (s : State) : Out :=
  doPart (reloadDone p ok) s

/-- BULK_PASS_DONE (R298). A bulk racking pass finishes and the next pass or the join follows. -/
def execBulkPassDone (p : Plane) (marked : Nat) (s : State) : Out :=
  doDev (bulkPassDone p marked) s

/-- REJOIN_RETRY (R299). One second after a failed rejoin the plane starts again from OUT. -/
def execRejoinRetry (p : Plane) (s : State) : Out :=
  doDev (rejoinRetry p) s

/-- REVERT (R301). REVERT_REMAIN has reached 0 and the token returns to plane A at a quiet boundary. -/
def execRevert (s : State) : Out :=
  doDev revert s

/-- RIDDLE_START (R302). RIDDLE_REMAIN has reached 0 and the token passes to plane B at a quiet boundary. -/
def execRiddleStart (s : State) : Out :=
  doDev riddleStart s

/-- RIDDLE_END (R302). After 1,024 cycles the token returns to plane A at a quiet boundary. -/
def execRiddleEnd (s : State) : Out :=
  doDev riddleEnd s

/-- RIDDLE_DEFER (R302). No quiet boundary occurs within 60 s of a riddle instant. -/
def execRiddleDefer (s : State) : Out :=
  doDev riddleDefer s

/-- RIDDLE_NOW (R302). A write of RIDDLE_NOW sets RIDDLE_REMAIN to 0. -/
def execRiddleNow (s : State) : Out :=
  doDev riddleNow s

/-- RED_CLR_CNT (R288). A write of CLR_CNT in RED_CMD clears the comparison registers. -/
def execRedClrCnt (s : State) : Out :=
  doDev redClear s

end Sys2Proof.Machine
end

