-- ==== Sys2Proof/Machine/PowerRows.lean ====
section
/-! DEFINITION. Rows of bank power, the DRAM scrub, pace and the power ladder (17_memory.md, 18_pace_power.md). -/

namespace Sys2Proof.Machine

/-- MEM_BANKPWR (R474). A write requests a new power state for a state-memory bank at the next boundary. -/
def execMemBankpwr (who : Actor) (i : Fin 2) (w : Word) (s : State) : Out :=
  doDev (writeBy who .mem (0x20 + 4 * i) w.toNat (fun p => bankPwrWrite p i w.toNat)) s

/-- BANK_FILL_DONE (R474). A bank leaving OFF finishes its zero fill and stalled accesses proceed. -/
def execBankFillDone (p : Plane) (b : Fin 32) (s : State) : Out :=
  doDev (bankFillDone p b) s

/-- DRAM_SCRUB (R476). The DRAM controller scrubs a line, correcting or reporting errors. -/
def execDramScrub (a : Nat) (e : Ecc) (s : State) : Out :=
  doDev (dramScrub a e) s

/-- PACE_WINDOW (R486). A 10 µs pace window ends; PACE is computed and the governor adjusts VCMD. -/
def execPaceWindow (laps : List Nat) (s : State) : Out :=
  doDev (paceWindow laps) s

/-- TEMP_READING (R491). The temperature sensor is read and TJ_WARN or TJ_HIGH may be raised. -/
def execTempReading (tj : Int) (s : State) : Out :=
  doDev (tempReading tj) s

/-- AVS_TRANSACTION (R488). An AVSBus transaction completes or fails. -/
def execAvsTransaction (write : Bool) (ok : Bool) (s : State) : Out :=
  doDev (avsTransaction write ok) s

/-- AVS_RETRY (R488). While AVS_ERR is 1 the pending transaction is retried once per millisecond. -/
def execAvsRetry (ok : Bool) (s : State) : Out :=
  doDev (avsRetry ok) s

/-- PWR_AVS_WRITE (R489). A write of VMIN or VMAX to PWR_AVS is accepted or ignored. -/
def execPwrAvsWrite (w : Word) (s : State) : Out :=
  doDev (pwrAvsWrite w.toNat) s

/-- PWR_CLR (R482). A write of CLR in PWR_CMD resets LOWEST and TJ_MAX. -/
def execPwrClr (s : State) : Out :=
  doDev pwrClr s

/-- LADDER_TARGET (R494). A write of SYS_LADDER.TARGET requests a power state. -/
def execLadderTarget (who : Actor) (w : Word) (s : State) : Out :=
  doDev (ladderBy who w.toNat) s

/-- LADDER_SET (R494). Mailbox command that requests a power state. -/
def execLadderSet (h : MbxHdr) (t : Fin 8) (s : State) : Out :=
  doDev (mailbox h (ladderSet t)) s

/-- LADDER_DESCENT_TIMER (R495). One millisecond after arrival in SLEEP or DORMANT the next downward step takes effect. -/
def execLadderDescentTimer (s : State) : Out :=
  doPart descentTimer s

/-- WAKE (R501). An enabled wake source fires and an ascent to WAKE_TO starts. -/
def execWake (src : Fin 20) (s : State) : Out :=
  doPart (wake src) s

/-- ASCENT_STEP_DONE (R502). An upward step's work completes and the controller arrives in the state above. -/
def execAscentStepDone (passA : Bool) (passB : Bool) (s : State) : Out :=
  doPart (ascentStepDone passA passB) s

/-- VKEEP_LOSS (R311). VKEEP falls below 1.5 V, so TB3, the KEEP domain and the EDM lockouts are lost. -/
def execVkeepLoss (s : State) : Out :=
  doDev vkeepLoss s

end Sys2Proof.Machine
end

