-- ==== Sys2Proof/Machine/RingRows.lean ====
section
/-! DEFINITION. Rows of the ring (12_lockstitch_schedule.md, 13_lockstitch_startup_healing.md). -/

namespace Sys2Proof.Machine

/-- SYNC_SEND (R341). The leader sends the sync frame SYNC_LEAD before the announced boundary. -/
def execSyncSend (n : Fin 4) (s : State) : Out :=
  doDev (syncSend n) s

/-- SYNC_FRAME (R342). A sync frame is accepted and the node sets its boundary and announcements. -/
def execSyncFrame (n : Fin 4) (x : Fin 512) (q : Path) (f : SyncRx) (s : State) : Out :=
  doDev (syncFrame n x q f) s

/-- SYNC_FRAME_MISSED (R384). An expected sync frame does not arrive on a path. -/
def execSyncFrameMissed (n : Fin 4) (x : Fin 512) (q : Path) (s : State) : Out :=
  doDev (syncMissed n x q) s

/-- CYCLE_FRAME_ACCEPT (R345). A full cycle frame copy is accepted and its command record is taken for the closing boundary. -/
def execCycleFrameAccept (n : Fin 4) (src : Fin 512) (x : Fin 512) (ws : CycleRx) (s : State) : Out :=
  doDev (cycleFrame n src x ws) s

/-- PERMISSION_SUBFRAME (R356). A node accepts a permission sub-frame and updates its torque permission on receipt. -/
def execPermissionSubframe (n : Fin 4) (x : Fin 512) (c : Chan) (seq : Nat) (on : List Nat) (valid : PermHead) (s : State) : Out :=
  doDev (permissionFrame n x c seq on valid) s

/-- SLOT_FRAME (R350). A slot frame arrives and is accepted or refused against its window and owner. -/
def execSlotFrame (n : Fin 4) (slot : Nat) (q : Path) (fin : RxHead) (err : Int) (inTime : Bool) (src : Fin 512)
    (pay : SlotPayload) (s : State) : Out :=
  doDev (slotArrives n slot q fin err inTime src pay) s

/-- SLOT_EMPTY (R352). A due slot phase closes with no copy accepted. -/
def execSlotEmpty (n : Fin 4) (slot : Nat) (s : State) : Out :=
  doDev (slotEmpty n slot) s

/-- GUARD_CUTOFF (R351). An own frame still runs at R + W_max + G/4 and is cut off with END_ABORT. -/
def execGuardCutoff (n : Fin 4) (s : State) : Out :=
  doDev (guardCutoff n) s

/-- TACK_FRAME (R367). A tack frame is heard in LISTEN or TACK and acted on by rank. -/
def execTackFrame (n : Fin 4) (rank : Fin 16) (sched : Nat) (own : Option Path) (ok : TackRx) (dly : Nat) (s : State) : Out :=
  doDev (tackFrame n rank sched own ok dly) s

/-- CLAIM_FRAME (R382). A claim frame is heard in a spare phase window and claimants back off or hold. -/
def execClaimFrame (n : Fin 4) (src : Fin 512) (tr : Nat) (hearers : List Nat) (clash : ClaimRx) (s : State) : Out :=
  doDev (claimFrame n src tr hearers clash) s

/-- T_LISTEN_EXPIRY (R366). A cold-start node hears silence until T_LISTEN ends and sends its tack. -/
def execTListenExpiry (n : Fin 4) (s : State) : Out :=
  doDev (listenExpiry n) s

/-- T_TACK_EXPIRY (R368). T_TACK ends and the node leads or records an open ring. -/
def execTTackExpiry (n : Fin 4) (s : State) : Out :=
  doDev (tackExpiry n) s

/-- LANE_LOCK_LOSS (R383). A receive lane loses lock and the node wraps that path. -/
def execLaneLockLoss (n : Fin 4) (x : Fin 512) (q : Path) (s : State) : Out :=
  doDev (laneLost n x q) s

/-- LANE_RELOCK (R388). A repaired lane has held lock for 1 ms and the node resumes repeating. -/
def execLaneRelock (n : Fin 4) (x : Fin 512) (q : Path) (s : State) : Out :=
  doDev (laneBack n x q) s

/-- LS_RESTART (R72). A write of LSn_START.RESTART returns the port to cold start when all its axes are in STO. -/
def execLsRestart (n : Fin 4) (s : State) : Out :=
  doDev (lsRestart n) s

/-- CLR_HEAL (R389). A write of CLR_HEAL clears the claim and healing counters and PART. -/
def execClrHeal (n : Fin 4) (s : State) : Out :=
  doDev (clrHeal n) s

/-- LS_CLR_CNT (R363). A write of CLR_CNT in LSn_CMD clears every counter of the port. -/
def execLsClrCnt (n : Fin 4) (s : State) : Out :=
  doDev (lsClrCnt n) s

/-- SYMBOL_LOCK (R364). A Lockstitch receive lane gains symbol lock and the node starts repeating. -/
def execSymbolLock (n : Fin 4) (q : Path) (s : State) : Out :=
  doDev (symbolLock n q) s

/-- OPEN_RELISTEN (R368). 100 ms after RING_OPEN the cold-start node returns to LISTEN with a fresh T_LISTEN. -/
def execOpenRelisten (n : Fin 4) (s : State) : Out :=
  doDev (openRelisten n) s

end Sys2Proof.Machine
end

