-- ==== Sys2Proof/Machine/SafetyRows.lean ====
section
/-! DEFINITION. Rows of the safety plane (08_safety_plane.md, 09_separation.md). -/

namespace Sys2Proof.Machine

/-- SAFETY_CYCLE_START (R220). Each safety channel latches its inputs, publishes and compares results and makes its decisions.
-/
def execSafetyCycleStart (edA : Nat) (edB : Nat) (rb : Nat) (late : Bool) (s : State) : Out :=
  doDev (safetyCycle edA edB rb late) s

/-- SELFTEST_DONE (R224). The channels' known-answer self-tests after a discrepancy complete and their outcome acts. -/
def execSelftestDone (okA : Bool) (okB : Bool) (s : State) : Out :=
  doDev (selftestDone okA okB) s

/-- HANDOVER_TIMEOUT (R225). The F-die hand-over timer expires and every output switches off with STO. -/
def execHandoverTimeout (s : State) : Out :=
  doDev handoverTimeout s

/-- SI_EDGE (R227). A safety input changes level and its filter starts. -/
def execSiEdge (n : Fin 16) (hiA : Bool) (hiB : Bool) (s : State) : Out :=
  doDev (siEdge n hiA hiB) s

/-- SI_FILTER_EXPIRY (R227). A safety input level has lasted FILT_SI and counts. -/
def execSiFilterExpiry (n : Fin 16) (s : State) : Out :=
  doDev (siFilter n) s

/-- PAIR_DISCREP (R228). A safety input pair does not agree within DISC_T. -/
def execPairDiscrep (i : Fin 8) (s : State) : Out :=
  doDev (pairDiscrep i) s

/-- TEST_PULSE (R229). A test-pulse output drops for TP_W and the inputs' pulse patterns are checked. -/
def execTestPulse (k : Fin 4) (seen : Nat) (rbBad : Bool) (s : State) : Out :=
  doDev (testPulse k seen rbBad) s

/-- SO_TEST_PULSE (R231). A safety output is switched off for SO_TPW and its read-back is checked. -/
def execSoTestPulse (n : Fin 8) (high : Bool) (cross : List Nat) (s : State) : Out :=
  doDev (soTestPulse n high cross) s

/-- EDM_WINDOW (R234). ED_WIN after an output switch elapses and the contactor feedback is judged. -/
def execEdmWindow (e : Fin 8) (dropped : Bool) (s : State) : Out :=
  doDev (edmWindow e dropped) s

/-- VFIELD_LOW (R231). VFIELD has been below 18.0 V for 1 ms and every output switches off. -/
def execVfieldLow (s : State) : Out :=
  doDev (vfieldBad .VFIELD_LOW) s

/-- VFIELD_REV (R545). VFIELD has been below −1 V for 1 ms and acts as VFIELD_LOW. -/
def execVfieldRev (s : State) : Out :=
  doDev (vfieldBad .VFIELD_REV) s

/-- VFIELD_HIGH (R545). VFIELD has been above 32 V for 1 ms and acts as VFIELD_LOW. -/
def execVfieldHigh (s : State) : Out :=
  doDev (vfieldBad .VFIELD_HIGH) s

/-- RESTART_REQUEST (R249). A falling edge of RESET_SI after a valid high period requests restart. -/
def execRestartRequest (seenA : Bool) (seenB : Bool) (s : State) : Out :=
  doDev (restartRequest seenA seenB) s

/-- DEGR_EXPIRED (R247). SAF_DEGR_REMAIN reaches 0 with a cause active and SS1 is applied. -/
def execDegrExpired (s : State) : Out :=
  doDev degrExpired s

/-- DEGR_LEAVE (R246). An automatic cause has been absent for 1 s and degraded mode ends when no cause remains. -/
def execDegrLeave (b : Fin 9) (s : State) : Out :=
  doDev (degrLeave b) s

/-- SSM_CLEAR (R277). Every pair has met the clearance condition for SSM_CLEAR_T and the SSM stop request ends. -/
def execSsmClear (arm : Fin 8) (s : State) : Out :=
  doDev (ssmClear arm) s

/-- SO_READBACK_FAULT (R231). A safety output reaches its current limit, or its read-back is low while on or high while off
outside a test pulse, and the output fault acts. -/
def execSoReadbackFault (n : Fin 8) (high : Bool) (s : State) : Out :=
  doDev (soReadback n high) s

/-- VFIELD_RESTORED (R231). VFIELD returns within its operating range after a low, reversed or high condition. -/
def execVfieldRestored (s : State) : Out :=
  doDev vfieldBack s

end Sys2Proof.Machine
end

