-- ==== Sys2Proof/Machine/TimeRows.lean ====
section
/-! DEFINITION. Rows of the time bases, event outputs, IEEE 1588 stamps and timers (11_time_bases.md, 16_dispatch_interrupts.md). -/

namespace Sys2Proof.Machine

/-- TIME_INIT (R310). Mailbox command that gives an INVALID FREE or PTP base its first value. -/
def execTimeInit (h : MbxHdr) (b : Fin 8) (t : Nat) (s : State) : Out :=
  doDev (mailbox h (timeInit b t)) s

/-- TIME_STEP (R316). Mailbox command that requests a step of a base under presence. -/
def execTimeStep (h : MbxHdr) (b : Fin 8) (a : StepArg) (s : State) : Out :=
  doDev (mailbox h (timeStep b a)) s

/-- TB_NOW_READ (R307). A read of TBn_NOW.NS latches the base's seconds and fraction. -/
def execTbNowRead (b : Fin 8) (s : State) : Out :=
  doDev (tbNowRead b) s

/-- PTP_STAMP (R326). A PTP event message passes the RGMII interface and its stamp is queued. -/
def execPtpStamp (q : Fin 2) (seqId : Nat) (msg : Nat) (egress : Bool) (s : State) : Out :=
  doDev (ptpStamp q seqId msg egress) s

/-- PTP_INFO_READ (R326). A read of PTPp INFO latches the oldest queued stamp. -/
def execPtpInfoRead (q : Fin 2) (s : State) : Out :=
  doDev (ptpInfoRead q) s

/-- PTP_TS_READ (R326). A read of PTPp TS_SH removes the latched stamp from the queue. -/
def execPtpTsRead (q : Fin 2) (s : State) : Out :=
  doDev (ptpTsRead q) s

/-- PTP_SYNC_TIMEOUT (R318). No ingress Sync is stamped for SYNC_TMO and TB1 enters holdover. -/
def execPtpSyncTimeout (q : Fin 2) (s : State) : Out :=
  doDev (ptpTimeout q) s

/-- TEV_EVENT (R328). A timed event output reaches its placed instant and emits its pulse. -/
def execTevEvent (o : Fin 8) (s : State) : Out :=
  doDev (tevEvent o) s

/-- TIMER_EXPIRY (R453). A dispatcher timer's base reaches its instant and activates its task. -/
def execTimerExpiry (p : Plane) (t : Fin 64) (s : State) : Out :=
  doDev (timerExpiry p t) s

/-- TIMER_ARM (R453). A write of ARM to TSK_TMRt takes its configuration and arms it. -/
def execTimerArm (who : Actor) (t : Fin 64) (cfg : Fin 16) (s : State) : Out :=
  doDev (writeBy who .tsk (0x400 + 32 * t) (cfg + 0x10) (fun p => timerCtl p t (cfg + 0x10))) s

/-- TIMER_DISARM (R453). A write of DISARM to TSK_TMRt disarms the timer. -/
def execTimerDisarm (who : Actor) (t : Fin 64) (cfg : Fin 16) (s : State) : Out :=
  doDev (writeBy who .tsk (0x400 + 32 * t) (cfg + 0x20) (fun p => timerCtl p t (cfg + 0x20))) s

end Sys2Proof.Machine
end

