-- ==== Sys2Proof/Machine/Dispatch.lean ====
section
/-! DEFINITION. The meaning of every command, one arm per constructor. -/

namespace Sys2Proof.Machine

def exec (i : Instr) (s : State) : Host.Outcome State Fault Refusal :=
  match i with
  | .boundary => Sys2Proof.Machine.execBoundary s
  | .phaseStart n left late more => Sys2Proof.Machine.execPhaseStart n left late more s
  | .rackComplete crcOk markA markB claimA claimB => Sys2Proof.Machine.execRackComplete crcOk markA markB claimA claimB s
  | .solverMatrixComplete p id => Sys2Proof.Machine.execSolverMatrixComplete p id s
  | .batchComplete p cls => Sys2Proof.Machine.execBatchComplete p cls s
  | .cutMaxExpiry p cls => Sys2Proof.Machine.execCutMaxExpiry p cls s
  | .syncInEdge t width falling => Sys2Proof.Machine.execSyncInEdge t width falling s
  | .edgeMiss => Sys2Proof.Machine.execEdgeMiss s
  | .syncCtlWrite w => Sys2Proof.Machine.execSyncCtlWrite w s
  | .apply who b w => Sys2Proof.Machine.execApply who b w s
  | .registerWrite a w => Sys2Proof.Machine.execRegisterWrite a w s
  | .powerUp => Sys2Proof.Machine.execPowerUp s
  | .reset pin rail railId => Sys2Proof.Machine.execReset pin rail railId s
  | .resetRelease => Sys2Proof.Machine.execResetRelease s
  | .dramTrained size => Sys2Proof.Machine.execDramTrained size s
  | .patternLoaded => Sys2Proof.Machine.execPatternLoaded s
  | .tasteDone passA passB chA chB agree ed vf => Sys2Proof.Machine.execTasteDone passA passB chA chB agree ed vf s
  | .patWrite h ofs winOfs len first last m => Sys2Proof.Machine.execPatWrite h ofs winOfs len first last m s
  | .patActivate h => Sys2Proof.Machine.execPatActivate h s
  | .patSwitch h => Sys2Proof.Machine.execPatSwitch h s
  | .flashRead h ofs len winOfs => Sys2Proof.Machine.execFlashRead h ofs len winOfs s
  | .keyProgram h slot hash => Sys2Proof.Machine.execKeyProgram h slot hash s
  | .keyRevoke h slot signer key sig => Sys2Proof.Machine.execKeyRevoke h slot signer key sig s
  | .presChange a bn => Sys2Proof.Machine.execPresChange a bn s
  | .presenceAssert => Sys2Proof.Machine.execPresenceAssert s
  | .presDisagree => Sys2Proof.Machine.execPresDisagree s
  | .toileWrite w => Sys2Proof.Machine.execToileWrite w s
  | .segAppend h n recs => Sys2Proof.Machine.execSegAppend h n recs s
  | .auxMove h m mv => Sys2Proof.Machine.execAuxMove h m mv s
  | .msTableLoad h t vals => Sys2Proof.Machine.execMsTableLoad h t vals s
  | .axisSetpos h m pos => Sys2Proof.Machine.execAxisSetpos h m pos s
  | .msPark h m => Sys2Proof.Machine.execMsPark h m s
  | .stop via t => Sys2Proof.Machine.execStop via t s
  | .qstop via t => Sys2Proof.Machine.execQstop via t s
  | .resume via t => Sys2Proof.Machine.execResume via t s
  | .abort via t => Sys2Proof.Machine.execAbort via t s
  | .ppeOvr who k v => Sys2Proof.Machine.execPpeOvr who k v s
  | .couple h b => Sys2Proof.Machine.execCouple h b s
  | .decouple h b => Sys2Proof.Machine.execDecouple h b s
  | .loopClear h a => Sys2Proof.Machine.execLoopClear h a s
  | .slvDelta h l => Sys2Proof.Machine.execSlvDelta h l s
  | .slvDeltaHi who win hi => Sys2Proof.Machine.execSlvDeltaHi who win hi s
  | .deltaStallEnd p => Sys2Proof.Machine.execDeltaStallEnd p s
  | .slvCut p c done tdone => Sys2Proof.Machine.execSlvCut p c done tdone s
  | .fbCount n a b z t => Sys2Proof.Machine.execFbCount n a b z t s
  | .ssiTransfer n lowBefore first raw par closing => Sys2Proof.Machine.execSsiTransfer n lowBefore first raw par closing s
  | .wireFault n pair cls => Sys2Proof.Machine.execWireFault n pair cls s
  | .wireFaultClear n pair => Sys2Proof.Machine.execWireFaultClear n pair s
  | .idxArm n => Sys2Proof.Machine.execIdxArm n s
  | .clrRef n => Sys2Proof.Machine.execClrRef n s
  | .fbClrCnt n => Sys2Proof.Machine.execFbClrCnt n s
  | .safetyCycleStart edA edB rb late => Sys2Proof.Machine.execSafetyCycleStart edA edB rb late s
  | .selftestDone okA okB => Sys2Proof.Machine.execSelftestDone okA okB s
  | .handoverTimeout => Sys2Proof.Machine.execHandoverTimeout s
  | .siEdge n hiA hiB => Sys2Proof.Machine.execSiEdge n hiA hiB s
  | .siFilterExpiry n => Sys2Proof.Machine.execSiFilterExpiry n s
  | .pairDiscrep k => Sys2Proof.Machine.execPairDiscrep k s
  | .testPulse k seen rbBad => Sys2Proof.Machine.execTestPulse k seen rbBad s
  | .soTestPulse n high cross => Sys2Proof.Machine.execSoTestPulse n high cross s
  | .edmWindow e dropped => Sys2Proof.Machine.execEdmWindow e dropped s
  | .vfieldLow => Sys2Proof.Machine.execVfieldLow s
  | .vfieldRev => Sys2Proof.Machine.execVfieldRev s
  | .vfieldHigh => Sys2Proof.Machine.execVfieldHigh s
  | .restartRequest seenA seenB => Sys2Proof.Machine.execRestartRequest seenA seenB s
  | .degrExpired => Sys2Proof.Machine.execDegrExpired s
  | .degrLeave b => Sys2Proof.Machine.execDegrLeave b s
  | .ssmClear arm => Sys2Proof.Machine.execSsmClear arm s
  | .tasteSignature p ok lines => Sys2Proof.Machine.execTasteSignature p ok lines s
  | .arbLink => Sys2Proof.Machine.execArbLink s
  | .reloadDone p ok => Sys2Proof.Machine.execReloadDone p ok s
  | .bulkPassDone p marked => Sys2Proof.Machine.execBulkPassDone p marked s
  | .rejoinRetry p => Sys2Proof.Machine.execRejoinRetry p s
  | .revert => Sys2Proof.Machine.execRevert s
  | .riddleStart => Sys2Proof.Machine.execRiddleStart s
  | .riddleEnd => Sys2Proof.Machine.execRiddleEnd s
  | .riddleDefer => Sys2Proof.Machine.execRiddleDefer s
  | .riddleNow => Sys2Proof.Machine.execRiddleNow s
  | .redClrCnt => Sys2Proof.Machine.execRedClrCnt s
  | .timeInit h b t => Sys2Proof.Machine.execTimeInit h b t s
  | .timeStep h b a => Sys2Proof.Machine.execTimeStep h b a s
  | .tbNowRead b => Sys2Proof.Machine.execTbNowRead b s
  | .ptpStamp q seqId msg egress => Sys2Proof.Machine.execPtpStamp q seqId msg egress s
  | .ptpInfoRead q => Sys2Proof.Machine.execPtpInfoRead q s
  | .ptpTsRead q => Sys2Proof.Machine.execPtpTsRead q s
  | .ptpSyncTimeout q => Sys2Proof.Machine.execPtpSyncTimeout q s
  | .tevEvent o => Sys2Proof.Machine.execTevEvent o s
  | .timerExpiry p t => Sys2Proof.Machine.execTimerExpiry p t s
  | .timerArm who t cfg => Sys2Proof.Machine.execTimerArm who t cfg s
  | .timerDisarm who t cfg => Sys2Proof.Machine.execTimerDisarm who t cfg s
  | .syncSend n => Sys2Proof.Machine.execSyncSend n s
  | .syncFrame n x q f => Sys2Proof.Machine.execSyncFrame n x q f s
  | .syncFrameMissed n x q => Sys2Proof.Machine.execSyncFrameMissed n x q s
  | .cycleFrameAccept n src x ws => Sys2Proof.Machine.execCycleFrameAccept n src x ws s
  | .permissionSubframe n x c seq on valid => Sys2Proof.Machine.execPermissionSubframe n x c seq on valid s
  | .slotFrame n slot q fin err inTime src pay => Sys2Proof.Machine.execSlotFrame n slot q fin err inTime src pay s
  | .slotEmpty n slot => Sys2Proof.Machine.execSlotEmpty n slot s
  | .guardCutoff n => Sys2Proof.Machine.execGuardCutoff n s
  | .tackFrame n rank sched own ok dly => Sys2Proof.Machine.execTackFrame n rank sched own ok dly s
  | .claimFrame n src tr hearers clash => Sys2Proof.Machine.execClaimFrame n src tr hearers clash s
  | .tListenExpiry n => Sys2Proof.Machine.execTListenExpiry n s
  | .tTackExpiry n => Sys2Proof.Machine.execTTackExpiry n s
  | .laneLockLoss n x q => Sys2Proof.Machine.execLaneLockLoss n x q s
  | .laneRelock n x q => Sys2Proof.Machine.execLaneRelock n x q s
  | .lsRestart n => Sys2Proof.Machine.execLsRestart n s
  | .clrHeal n => Sys2Proof.Machine.execClrHeal n s
  | .lsClrCnt n => Sys2Proof.Machine.execLsClrCnt n s
  | .capArm => Sys2Proof.Machine.execCapArm s
  | .capStop => Sys2Proof.Machine.execCapStop s
  | .postTExpiry => Sys2Proof.Machine.execPostTExpiry s
  | .capRd w => Sys2Proof.Machine.execCapRd w s
  | .celRd w => Sys2Proof.Machine.execCelRd w s
  | .cellarLoss => Sys2Proof.Machine.execCellarLoss s
  | .trgPulse l width t => Sys2Proof.Machine.execTrgPulse l width t s
  | .trgLineFault l => Sys2Proof.Machine.execTrgLineFault l s
  | .trgCalibration => Sys2Proof.Machine.execTrgCalibration s
  | .cal => Sys2Proof.Machine.execCal s
  | .interruptClaim p src => Sys2Proof.Machine.execInterruptClaim p src s
  | .interruptDelivery p c => Sys2Proof.Machine.execInterruptDelivery p c s
  | .coreWake p c => Sys2Proof.Machine.execCoreWake p c s
  | .preemptSwitch p c => Sys2Proof.Machine.execPreemptSwitch p c s
  | .tskPost p c t => Sys2Proof.Machine.execTskPost p c t s
  | .postStallEnd p c => Sys2Proof.Machine.execPostStallEnd p c s
  | .postTimeout p c => Sys2Proof.Machine.execPostTimeout p c s
  | .msgRelease p t => Sys2Proof.Machine.execMsgRelease p t s
  | .tskTake p c => Sys2Proof.Machine.execTskTake p c s
  | .tskDone p c => Sys2Proof.Machine.execTskDone p c s
  | .icuRaise who src => Sys2Proof.Machine.execIcuRaise who src s
  | .icuSrcWrite who f w => Sys2Proof.Machine.execIcuSrcWrite who f w s
  | .taskPost h t arg => Sys2Proof.Machine.execTaskPost h t arg s
  | .add p c sat gd ga gb => Sys2Proof.Machine.execAdd p c sat gd ga gb s
  | .sub p c sat gd ga gb => Sys2Proof.Machine.execSub p c sat gd ga gb s
  | .and p c gd ga gb => Sys2Proof.Machine.execAnd p c gd ga gb s
  | .or p c gd ga gb => Sys2Proof.Machine.execOr p c gd ga gb s
  | .xor p c gd ga gb => Sys2Proof.Machine.execXor p c gd ga gb s
  | .shl p c sat gd ga gb => Sys2Proof.Machine.execShl p c sat gd ga gb s
  | .shr p c gd ga gb => Sys2Proof.Machine.execShr p c gd ga gb s
  | .sar p c gd ga gb => Sys2Proof.Machine.execSar p c gd ga gb s
  | .slt p c gd ga gb => Sys2Proof.Machine.execSlt p c gd ga gb s
  | .sltu p c gd ga gb => Sys2Proof.Machine.execSltu p c gd ga gb s
  | .min p c gd ga gb => Sys2Proof.Machine.execMin p c gd ga gb s
  | .max p c gd ga gb => Sys2Proof.Machine.execMax p c gd ga gb s
  | .mul p c sat gd ga gb => Sys2Proof.Machine.execMul p c sat gd ga gb s
  | .mulh p c gd ga gb => Sys2Proof.Machine.execMulh p c gd ga gb s
  | .mulhu p c gd ga gb => Sys2Proof.Machine.execMulhu p c gd ga gb s
  | .div p c sat gd ga gb => Sys2Proof.Machine.execDiv p c sat gd ga gb s
  | .divu p c gd ga gb => Sys2Proof.Machine.execDivu p c gd ga gb s
  | .rem p c gd ga gb => Sys2Proof.Machine.execRem p c gd ga gb s
  | .remu p c gd ga gb => Sys2Proof.Machine.execRemu p c gd ga gb s
  | .exp p c gd ga => Sys2Proof.Machine.execExp p c gd ga s
  | .norm p c gd gb ga => Sys2Proof.Machine.execNorm p c gd gb ga s
  | .expa p c gd a => Sys2Proof.Machine.execExpa p c gd a s
  | .mfs p c gd n => Sys2Proof.Machine.execMfs p c gd n s
  | .mts p c n gb => Sys2Proof.Machine.execMts p c n gb s
  | .addiS p c gd ga imm => Sys2Proof.Machine.execAddiS p c gd ga imm s
  | .addi p c gd ga imm => Sys2Proof.Machine.execAddi p c gd ga imm s
  | .andi p c gd ga imm => Sys2Proof.Machine.execAndi p c gd ga imm s
  | .ori p c gd ga imm => Sys2Proof.Machine.execOri p c gd ga imm s
  | .lui p c gd imm => Sys2Proof.Machine.execLui p c gd imm s
  | .ld p c g pi mi pm size sx disp ecc => Sys2Proof.Machine.execLd p c g pi mi pm size sx disp ecc s
  | .st p c g pi mi pm size disp lostLo lostHi => Sys2Proof.Machine.execSt p c g pi mi pm size disp lostLo lostHi s
  | .postedStoreWritten p c => Sys2Proof.Machine.execPostedStoreWritten p c s
  | .mac p c a ga gb sat => Sys2Proof.Machine.execMac p c a ga gb sat s
  | .msu p c a ga gb sat => Sys2Proof.Machine.execMsu p c a ga gb sat s
  | .amul p c a ga gb sat => Sys2Proof.Machine.execAmul p c a ga gb sat s
  | .aclr p c a => Sys2Proof.Machine.execAclr p c a s
  | .aadd p c a ga sat sh => Sys2Proof.Machine.execAadd p c a ga sat sh s
  | .ashl p c a sat sh => Sys2Proof.Machine.execAshl p c a sat sh s
  | .ashr p c a sh => Sys2Proof.Machine.execAshr p c a sh s
  | .aext p c a gd sh rnd => Sys2Proof.Machine.execAext p c a gd sh rnd s
  | .aextd p c a gd sh rnd => Sys2Proof.Machine.execAextd p c a gd sh rnd s
  | .ains p c a gs sh => Sys2Proof.Machine.execAins p c a gs sh s
  | .beq p c ga gb off => Sys2Proof.Machine.execBeq p c ga gb off s
  | .bne p c ga gb off => Sys2Proof.Machine.execBne p c ga gb off s
  | .blt p c ga gb off => Sys2Proof.Machine.execBlt p c ga gb off s
  | .bge p c ga gb off => Sys2Proof.Machine.execBge p c ga gb off s
  | .bltu p c ga gb off => Sys2Proof.Machine.execBltu p c ga gb off s
  | .bgeu p c ga gb off => Sys2Proof.Machine.execBgeu p c ga gb off s
  | .jal p c gd off => Sys2Proof.Machine.execJal p c gd off s
  | .jalr p c gd ga => Sys2Proof.Machine.execJalr p c gd ga s
  | .movp p c ix g => Sys2Proof.Machine.execMovp p c ix g s
  | .movm p c ix g => Sys2Proof.Machine.execMovm p c ix g s
  | .mfp p c g ix => Sys2Proof.Machine.execMfp p c g ix s
  | .paddi p c ix imm => Sys2Proof.Machine.execPaddi p c ix imm s
  | .amoadd p c g pi pm size disp ecc lost => Sys2Proof.Machine.execAmoadd p c g pi pm size disp ecc lost s
  | .swap p c g pi pm size disp ecc lost => Sys2Proof.Machine.execSwap p c g pi pm size disp ecc lost s
  | .ftap p c a px mx pc mc sat neg ecc => Sys2Proof.Machine.execFtap p c a px mx pc mc sat neg ecc s
  | .ftap2 p c a px mx pc mc sat neg ecc => Sys2Proof.Machine.execFtap2 p c a px mx pc mc sat neg ecc s
  | .sleep p c => Sys2Proof.Machine.execSleep p c s
  | .eret p c => Sys2Proof.Machine.execEret p c s
  | .reti p c => Sys2Proof.Machine.execReti p c s
  | .trap p c n => Sys2Proof.Machine.execTrap p c n s
  | .fence p c => Sys2Proof.Machine.execFence p c s
  | .memBankpwr who k w => Sys2Proof.Machine.execMemBankpwr who k w s
  | .bankFillDone p b => Sys2Proof.Machine.execBankFillDone p b s
  | .dramScrub a e => Sys2Proof.Machine.execDramScrub a e s
  | .paceWindow laps => Sys2Proof.Machine.execPaceWindow laps s
  | .tempReading tj => Sys2Proof.Machine.execTempReading tj s
  | .avsTransaction write ok => Sys2Proof.Machine.execAvsTransaction write ok s
  | .avsRetry ok => Sys2Proof.Machine.execAvsRetry ok s
  | .pwrAvsWrite w => Sys2Proof.Machine.execPwrAvsWrite w s
  | .pwrClr => Sys2Proof.Machine.execPwrClr s
  | .ladderTarget who w => Sys2Proof.Machine.execLadderTarget who w s
  | .ladderSet h t => Sys2Proof.Machine.execLadderSet h t s
  | .ladderDescentTimer => Sys2Proof.Machine.execLadderDescentTimer s
  | .wake src => Sys2Proof.Machine.execWake src s
  | .ascentStepDone passA passB => Sys2Proof.Machine.execAscentStepDone passA passB s
  | .doorbell u wp cmds => Sys2Proof.Machine.execDoorbell u wp cmds s
  | .rplRp rp => Sys2Proof.Machine.execRplRp rp s
  | .hstProto w => Sys2Proof.Machine.execHstProto w s
  | .bar4Write o bs => Sys2Proof.Machine.execBar4Write o bs s
  | .kick t => Sys2Proof.Machine.execKick t s
  | .hostTimeout => Sys2Proof.Machine.execHostTimeout s
  | .coreDb => Sys2Proof.Machine.execCoreDb s
  | .pcieLinkDown => Sys2Proof.Machine.execPcieLinkDown s
  | .debugUnlock h tok => Sys2Proof.Machine.execDebugUnlock h tok s
  | .debugLock h => Sys2Proof.Machine.execDebugLock h s
  | .nonceRead => Sys2Proof.Machine.execNonceRead s
  | .cellarNote h text => Sys2Proof.Machine.execCellarNote h text s
  | .fusesRead => Sys2Proof.Machine.execFusesRead s
  | .flashOperationDone read ok => Sys2Proof.Machine.execFlashOperationDone read ok s
  | .ppeSignalsCut p => Sys2Proof.Machine.execPpeSignalsCut p s
  | .aiSample c code cm => Sys2Proof.Machine.execAiSample c code cm s
  | .fastChannelSample c k => Sys2Proof.Machine.execFastChannelSample c k s
  | .poOutputStep o t => Sys2Proof.Machine.execPoOutputStep o t s
  | .soReadbackFault n high => Sys2Proof.Machine.execSoReadbackFault n high s
  | .vfieldRestored => Sys2Proof.Machine.execVfieldRestored s
  | .vkeepLoss => Sys2Proof.Machine.execVkeepLoss s
  | .symbolLock n q => Sys2Proof.Machine.execSymbolLock n q s
  | .openRelisten n => Sys2Proof.Machine.execOpenRelisten n s
  | .trgLineIdle l => Sys2Proof.Machine.execTrgLineIdle l s
  | .trgOutputPulse l => Sys2Proof.Machine.execTrgOutputPulse l s
  | .illegal p c => Sys2Proof.Machine.execIllegal p c s
  | .pcieLinkUp w gen => Sys2Proof.Machine.execPcieLinkUp w gen s
  | .ethFrameRx mac len => Sys2Proof.Machine.execEthFrameRx mac len s
  | .debugPortAccess op => Sys2Proof.Machine.execDebugPortAccess op s
  | .jtagInstruction k => Sys2Proof.Machine.execJtagInstruction k s

end Sys2Proof.Machine
end

