-- ==== Sys2Proof/Machine/Step.lean ====
section
/-! DEFINITION. One step: the command at the front of the queue, or one REFCLK period on an empty queue. -/

namespace Sys2Proof.Machine

/-- Takes the command at the front of the queue and executes it with the rest waiting. On an empty queue the block idles for one
REFCLK period (log entry 31). -/
def step (s : State) : Host.Outcome State Fault Refusal :=
  match s.pending with
  | [] => .next { s with part := s.part.onDev idleTick }
  | c :: rest => exec c { s with pending := rest }

/-- The opcode table gives no bits, so no word spells a command: the state stays as it is. -/
def State.withFetchWord (s : State) (_nbits _w : Nat) : State := s

end Sys2Proof.Machine
end

