-- ==== Sys2Proof/Machine/Fd32Code.lean ====
section
/-! DEFINITION. The FD32 instruction words (15_cores_datapath.md R427, R429): which command of a core a word spells, and
the word of a command. A word that R427 calls illegal spells ILLEGAL. -/

namespace Sys2Proof.Machine

open Sys2Proof

/-- `n` bits of a word from bit `lo`. -/
def bits (w : Word) (lo n : Nat) : Nat := w.toNat / 2 ^ lo % 2 ^ n

/-- A register number of five bits, and one of three. -/
def reg5 (w : Word) (lo : Nat) : Fin 32 := Fin.ofNat 32 (bits w lo 5)
def reg3 (w : Word) (lo : Nat) : Fin 8 := Fin.ofNat 8 (bits w lo 3)

/-- Fields of the R format: gd, ga, gb, S, FUNC. -/
def fGd (w : Word) : Fin 32 := reg5 w 21
def fGa (w : Word) : Fin 32 := reg5 w 16
def fGb (w : Word) : Fin 32 := reg5 w 11
def fS (w : Word) : Bool := bits w 10 1 == 1
def fFunc (w : Word) : Nat := bits w 0 10

/-- The immediate of the I, B and P formats. -/
def fImm (w : Word) : BitVec 16 := BitVec.ofNat 16 (bits w 0 16)

/-- An instruction whose reserved fields are 0, else ILLEGAL (R427). -/
def legalIf (ok : Bool) (i no : Instr) : Instr := if ok then i else no

/-- OP 0x00: integer and divide instructions; S may be 1 only for ADD, SUB, SHL, MUL and DIV. -/
def decInteger (p : Plane) (c : Fin 10) (w : Word) : Instr :=
  let no := Instr.illegal p c
  let d := fGd w
  let a := fGa w
  let b := fGb w
  let s := fS w
  match fFunc w with
  | 0x000 => .add p c s d a b
  | 0x001 => .sub p c s d a b
  | 0x002 => legalIf (!s) (.and p c d a b) no
  | 0x003 => legalIf (!s) (.or p c d a b) no
  | 0x004 => legalIf (!s) (.xor p c d a b) no
  | 0x005 => .shl p c s d a b
  | 0x006 => legalIf (!s) (.shr p c d a b) no
  | 0x007 => legalIf (!s) (.sar p c d a b) no
  | 0x008 => legalIf (!s) (.slt p c d a b) no
  | 0x009 => legalIf (!s) (.sltu p c d a b) no
  | 0x00A => legalIf (!s) (.min p c d a b) no
  | 0x00B => legalIf (!s) (.max p c d a b) no
  | 0x010 => .mul p c s d a b
  | 0x011 => legalIf (!s) (.mulh p c d a b) no
  | 0x012 => legalIf (!s) (.mulhu p c d a b) no
  | 0x018 => .div p c s d a b
  | 0x019 => legalIf (!s) (.divu p c d a b) no
  | 0x01A => legalIf (!s) (.rem p c d a b) no
  | 0x01B => legalIf (!s) (.remu p c d a b) no
  | _ => no

/-- OP 0x01: EXP, NORM, EXPA, MFS and MTS. -/
def decSpecial (p : Plane) (c : Fin 10) (w : Word) : Instr :=
  let no := Instr.illegal p c
  let d := bits w 21 5
  let a := bits w 16 5
  let b := bits w 11 5
  let s := bits w 10 1
  match fFunc w with
  | 0x010 => legalIf (b == 0 && s == 0) (.exp p c (fGd w) (fGa w)) no
  | 0x011 => legalIf (s == 0 && d != b) (.norm p c (fGd w) (fGb w) (fGa w)) no
  | 0x012 => legalIf (decide (a < 4) && b == 0 && s == 0) (.expa p c (fGd w) (Fin.ofNat 4 a)) no
  | 0x020 => legalIf (decide (a < 8) && b == 0 && s == 0) (.mfs p c (fGd w) (Fin.ofNat 8 a)) no
  | 0x021 => legalIf (decide (d < 8) && a == 0 && s == 0) (.mts p c (Fin.ofNat 8 d) (fGb w)) no
  | _ => no

/-- OP 0x08, 0x09 and 0x20, the M format: LD, ST, AMOADD and SWAP, with what ECC finds and which halves of a store are lost. A store has
no SX, and an atomic access, whose PM is 0, has no m: these fields are reserved there (R429; DEDUCED, log entry 86). -/
def decMemory (p : Plane) (c : Fin 10) (e : Ecc) (lo hi : Bool) (op : Nat) (w : Word) : Instr :=
  let g := fGd w
  let pi := reg3 w 18
  let pm := bits w 14 1 == 1
  let size : Fin 4 := Fin.ofNat 4 (bits w 12 2)
  let sx := bits w 11 1 == 1
  let disp : BitVec 11 := BitVec.ofNat 11 (bits w 0 11)
  match op with
  | 0x08 => .ld p c g pi (reg3 w 15) pm size sx disp e
  | 0x09 => legalIf (!sx) (.st p c g pi (reg3 w 15) pm size disp lo hi) (.illegal p c)
  | _ => if bits w 15 3 ≠ 0 then .illegal p c else if sx then .swap p c g pi pm size disp e lo else .amoadd p c g pi pm size disp e lo

/-- OP 0x0C, the A format. -/
def decAccum (p : Plane) (c : Fin 10) (w : Word) : Instr :=
  let no := Instr.illegal p c
  let n : Fin 4 := Fin.ofNat 4 (bits w 24 2)
  let ga := reg5 w 19
  let gb := reg5 w 14
  let s := bits w 13 1 == 1
  let rnd := bits w 12 1 == 1
  let sh : Fin 64 := Fin.ofNat 64 (bits w 6 6)
  let noA := bits w 19 5 == 0
  let noB := bits w 14 5 == 0
  let noSh := bits w 6 6 == 0
  match bits w 0 6 with
  | 0x00 => legalIf (noSh && !rnd) (.mac p c n ga gb s) no
  | 0x01 => legalIf (noSh && !rnd) (.msu p c n ga gb s) no
  | 0x02 => legalIf (noSh && !rnd) (.amul p c n ga gb s) no
  | 0x03 => legalIf (noA && noB && noSh && !rnd && !s) (.aclr p c n) no
  | 0x04 => legalIf (noB && !rnd) (.aadd p c n ga s sh) no
  | 0x05 => legalIf (noA && noB && !rnd) (.ashl p c n s sh) no
  | 0x06 => legalIf (noA && noB && !rnd && !s) (.ashr p c n sh) no
  | 0x08 => legalIf (noB && !s) (.aext p c n ga sh rnd) no
  | 0x09 => legalIf (noB && !s) (.aextd p c n ga sh rnd) no
  | 0x0A => legalIf (noB && !s && !rnd) (.ains p c n ga sh) no
  | _ => no

/-- OP 0x1C, the P format. -/
def decPointer (p : Plane) (c : Fin 10) (w : Word) : Instr :=
  let no := Instr.illegal p c
  let i := reg3 w 23
  let noImm := bits w 0 16 == 0
  match bits w 21 2 with
  | 0 => legalIf noImm (.movp p c i (fGa w)) no
  | 1 => legalIf noImm (.movm p c i (fGa w)) no
  | 2 => legalIf noImm (.mfp p c (fGa w) i) no
  | _ => legalIf (bits w 16 5 == 0) (.paddi p c i (fImm w)) no

/-- OP 0x3C, the F format. -/
def decTap (p : Plane) (c : Fin 10) (e : Ecc) (w : Word) : Instr :=
  let n : Fin 4 := Fin.ofNat 4 (bits w 24 2)
  let s := bits w 11 1 == 1
  let neg := bits w 9 1 == 1
  let i := if bits w 10 1 = 1 then Instr.ftap2 p c n (reg3 w 21) (reg3 w 18) (reg3 w 15) (reg3 w 12) s neg e
    else .ftap p c n (reg3 w 21) (reg3 w 18) (reg3 w 15) (reg3 w 12) s neg e
  legalIf (bits w 0 9 == 0) i (.illegal p c)

/-- OP 0x3E, the S format. -/
def decSystem (p : Plane) (c : Fin 10) (w : Word) : Instr :=
  let no := Instr.illegal p c
  let noN := bits w 18 8 == 0
  let i := match fFunc w with
    | 0x001 => legalIf noN (.sleep p c) no
    | 0x002 => legalIf noN (.eret p c) no
    | 0x003 => legalIf noN (.reti p c) no
    | 0x004 => legalIf noN (.fence p c) no
    | 0x010 => .trap p c (Fin.ofNat 256 (bits w 18 8))
    | _ => no
  legalIf (bits w 10 8 == 0) i no

/-- The command that an FD32 word spells on core `c` of plane `p`. -/
def fd32Decode (p : Plane) (c : Fin 10) (e : Ecc) (lo hi : Bool) (w : Word) : Instr :=
  let no := Instr.illegal p c
  match bits w 26 6 with
  | 0x00 => decInteger p c w
  | 0x01 => decSpecial p c w
  | 0x03 => .addiS p c (fGd w) (fGa w) (fImm w)
  | 0x04 => .addi p c (fGd w) (fGa w) (fImm w)
  | 0x05 => .andi p c (fGd w) (fGa w) (fImm w)
  | 0x06 => .ori p c (fGd w) (fGa w) (fImm w)
  | 0x07 => legalIf (bits w 16 5 == 0) (.lui p c (fGd w) (fImm w)) no
  | 0x08 => decMemory p c e lo hi 0x08 w
  | 0x09 => decMemory p c e lo hi 0x09 w
  | 0x0C => decAccum p c w
  | 0x10 => .beq p c (fGd w) (fGa w) (fImm w)
  | 0x11 => .bne p c (fGd w) (fGa w) (fImm w)
  | 0x12 => .blt p c (fGd w) (fGa w) (fImm w)
  | 0x13 => .bge p c (fGd w) (fGa w) (fImm w)
  | 0x14 => .bltu p c (fGd w) (fGa w) (fImm w)
  | 0x15 => .bgeu p c (fGd w) (fGa w) (fImm w)
  | 0x18 => .jal p c (fGd w) (BitVec.ofNat 21 (bits w 0 21))
  | 0x19 => legalIf (bits w 0 16 == 0) (.jalr p c (fGd w) (fGa w)) no
  | 0x1C => decPointer p c w
  | 0x20 => decMemory p c e lo hi 0x20 w
  | 0x3C => decTap p c e w
  | 0x3E => decSystem p c w
  | _ => no

/-! ### Words -/

/-- Words of the formats. -/
def wordR (op gd ga gb : Nat) (s : Bool) (func : Nat) : Word :=
  BitVec.ofNat 32 (op * 2 ^ 26 + gd * 2 ^ 21 + ga * 2 ^ 16 + gb * 2 ^ 11 + s.toNat * 2 ^ 10 + func)
def wordI (op gd ga : Nat) (imm : BitVec 16) : Word := BitVec.ofNat 32 (op * 2 ^ 26 + gd * 2 ^ 21 + ga * 2 ^ 16 + imm.toNat)
def wordM (op g pi mi : Nat) (pm : Bool) (size : Nat) (sx : Bool) (disp : BitVec 11) : Word :=
  BitVec.ofNat 32
    (op * 2 ^ 26 + g * 2 ^ 21 + pi * 2 ^ 18 + mi * 2 ^ 15 + pm.toNat * 2 ^ 14 + size * 2 ^ 12 + sx.toNat * 2 ^ 11 + disp.toNat)
def wordA (n ga gb : Nat) (s rnd : Bool) (sh func : Nat) : Word :=
  BitVec.ofNat 32
    (0x0C * 2 ^ 26 + n * 2 ^ 24 + ga * 2 ^ 19 + gb * 2 ^ 14 + s.toNat * 2 ^ 13 + rnd.toNat * 2 ^ 12 + sh * 2 ^ 6 + func)
def wordP (i sub g imm : Nat) : Word := BitVec.ofNat 32 (0x1C * 2 ^ 26 + i * 2 ^ 23 + sub * 2 ^ 21 + g * 2 ^ 16 + imm)
def wordF (n px mx pc mc : Nat) (s two neg : Bool) : Word :=
  BitVec.ofNat 32 (0x3C * 2 ^ 26 + n * 2 ^ 24 + px * 2 ^ 21 + mx * 2 ^ 18 + pc * 2 ^ 15 + mc * 2 ^ 12 + s.toNat * 2 ^ 11 +
    two.toNat * 2 ^ 10 + neg.toNat * 2 ^ 9)
def wordS (n func : Nat) : Word := BitVec.ofNat 32 (0x3E * 2 ^ 26 + n * 2 ^ 18 + func)

/-- The word of a command of a core; other commands have none. -/
def fd32Encode : Instr → Option Word
  | .add _ _ s d a b => some (wordR 0x00 d a b s 0x000)
  | .sub _ _ s d a b => some (wordR 0x00 d a b s 0x001)
  | .and _ _ d a b => some (wordR 0x00 d a b false 0x002)
  | .or _ _ d a b => some (wordR 0x00 d a b false 0x003)
  | .xor _ _ d a b => some (wordR 0x00 d a b false 0x004)
  | .shl _ _ s d a b => some (wordR 0x00 d a b s 0x005)
  | .shr _ _ d a b => some (wordR 0x00 d a b false 0x006)
  | .sar _ _ d a b => some (wordR 0x00 d a b false 0x007)
  | .slt _ _ d a b => some (wordR 0x00 d a b false 0x008)
  | .sltu _ _ d a b => some (wordR 0x00 d a b false 0x009)
  | .min _ _ d a b => some (wordR 0x00 d a b false 0x00A)
  | .max _ _ d a b => some (wordR 0x00 d a b false 0x00B)
  | .mul _ _ s d a b => some (wordR 0x00 d a b s 0x010)
  | .mulh _ _ d a b => some (wordR 0x00 d a b false 0x011)
  | .mulhu _ _ d a b => some (wordR 0x00 d a b false 0x012)
  | .div _ _ s d a b => some (wordR 0x00 d a b s 0x018)
  | .divu _ _ d a b => some (wordR 0x00 d a b false 0x019)
  | .rem _ _ d a b => some (wordR 0x00 d a b false 0x01A)
  | .remu _ _ d a b => some (wordR 0x00 d a b false 0x01B)
  | .exp _ _ d a => some (wordR 0x01 d a 0 false 0x010)
  | .norm _ _ d b a => some (wordR 0x01 d a b false 0x011)
  | .expa _ _ d n => some (wordR 0x01 d n 0 false 0x012)
  | .mfs _ _ d n => some (wordR 0x01 d n 0 false 0x020)
  | .mts _ _ n b => some (wordR 0x01 n 0 b false 0x021)
  | .addiS _ _ d a i => some (wordI 0x03 d a i)
  | .addi _ _ d a i => some (wordI 0x04 d a i)
  | .andi _ _ d a i => some (wordI 0x05 d a i)
  | .ori _ _ d a i => some (wordI 0x06 d a i)
  | .lui _ _ d i => some (wordI 0x07 d 0 i)
  | .ld _ _ g pi mi pm size sx disp _ => some (wordM 0x08 g pi mi pm size sx disp)
  | .st _ _ g pi mi pm size disp _ _ => some (wordM 0x09 g pi mi pm size false disp)
  | .mac _ _ n a b s => some (wordA n a b s false 0 0x00)
  | .msu _ _ n a b s => some (wordA n a b s false 0 0x01)
  | .amul _ _ n a b s => some (wordA n a b s false 0 0x02)
  | .aclr _ _ n => some (wordA n 0 0 false false 0 0x03)
  | .aadd _ _ n a s sh => some (wordA n a 0 s false sh 0x04)
  | .ashl _ _ n s sh => some (wordA n 0 0 s false sh 0x05)
  | .ashr _ _ n sh => some (wordA n 0 0 false false sh 0x06)
  | .aext _ _ n d sh rnd => some (wordA n d 0 false rnd sh 0x08)
  | .aextd _ _ n d sh rnd => some (wordA n d 0 false rnd sh 0x09)
  | .ains _ _ n a sh => some (wordA n a 0 false false sh 0x0A)
  | .beq _ _ a b off => some (wordI 0x10 a b off)
  | .bne _ _ a b off => some (wordI 0x11 a b off)
  | .blt _ _ a b off => some (wordI 0x12 a b off)
  | .bge _ _ a b off => some (wordI 0x13 a b off)
  | .bltu _ _ a b off => some (wordI 0x14 a b off)
  | .bgeu _ _ a b off => some (wordI 0x15 a b off)
  | .jal _ _ d off => some (BitVec.ofNat 32 (0x18 * 2 ^ 26 + d * 2 ^ 21 + off.toNat))
  | .jalr _ _ d a => some (wordR 0x19 d a 0 false 0)
  | .movp _ _ i g => some (wordP i 0 g 0)
  | .movm _ _ i g => some (wordP i 1 g 0)
  | .mfp _ _ g i => some (wordP i 2 g 0)
  | .paddi _ _ i imm => some (wordP i 3 0 imm.toNat)
  | .amoadd _ _ g pi pm size disp _ _ => some (wordM 0x20 g pi 0 pm size false disp)
  | .swap _ _ g pi pm size disp _ _ => some (wordM 0x20 g pi 0 pm size true disp)
  | .ftap _ _ n px mx pc mc s neg _ => some (wordF n px mx pc mc s false neg)
  | .ftap2 _ _ n px mx pc mc s neg _ => some (wordF n px mx pc mc s true neg)
  | .sleep _ _ => some (wordS 0 0x001)
  | .eret _ _ => some (wordS 0 0x002)
  | .reti _ _ => some (wordS 0 0x003)
  | .fence _ _ => some (wordS 0 0x004)
  | .trap _ _ n => some (wordS n 0x010)
  | _ => none

end Sys2Proof.Machine
end

