-- ==== Sys2Proof/Safety.lean ====
section
/-! DEFINITION. What statements about the block are phrased in: that a command completes, the canonical form of the memories, and the
order of the fuses. -/

namespace Sys2Proof.Machine

/-! ### Completion -/

/-- Command `i` completes in state `s`: the answer is a next state with the queue and the fuses of `s`, whose part meets `post`. -/
def Runs (i : Instr) (s : State) (post : Part → Prop) : Prop := ∃ q, exec i s = .next { s with part := q } ∧ post q

/-- Command `i` completes in state `s` and changes the device alone, into one that meets `post`. -/
def RunsDev (i : Instr) (s : State) (post : Dev → Prop) : Prop := Runs i s (fun q => q.mems = s.part.mems ∧ post q.dev)

/-! ### The FD32 instructions (15_cores_datapath.md) -/

/-- An instruction of core `c` of plane `p` completes: no memory and nothing of the device changes but that core, whose registers before
and after are related by `post`. -/
def RunsCore (i : Instr) (p : Plane) (c : Nat) (s : State) (post : Core → Core → Prop) : Prop :=
  RunsDev i s (fun d => ∃ k, d = s.part.dev.setCore p c k ∧ post (s.part.dev.core p c) k)

/-- The core `k'` is `k` gone on to `pc`, with value `v` in general register `gd` (none for g0) and the CSW bits `fl` set; every other
register of it is unchanged. -/
def Core.writesGTo (k k' : Core) (gd : Nat) (v fl pc : Word) : Prop :=
  k' = { k with g := k'.g, csw := k.csw ||| fl, pc := pc, entryWin := none, step := false } ∧
    ∀ i, k'.rg i = if i = gd ∧ i ≠ 0 then v else k.rg i

/-- The same at the next instruction. -/
def Core.writesG (k k' : Core) (gd : Nat) (v fl : Word) : Prop := k.writesGTo k' gd v fl (k.pc + 4)

/-- The same for accumulator `n`. -/
def Core.writesA (k k' : Core) (n : Nat) (v : Acc) (fl : Word) : Prop :=
  k' = { k with a := k'.a, csw := k.csw ||| fl, pc := k.pc + 4, entryWin := none, step := false } ∧
    ∀ i, k'.ra i = if i = n then v else k.ra i

/-- An exact result `x` in a g register under R424: the value, and the bit of CSW that sets. `sat` is SATMODE 1 with S = 1. -/
def resultG (sat : Bool) (x : Int) : Word × Word :=
  if -2147483648 ≤ x ∧ x ≤ 2147483647 then (BitVec.ofInt 32 x, 0)
  else if sat then (if x < 0 then 0x80000000 else 0x7FFFFFFF, 0x20)
  else (BitVec.ofInt 32 x, 0x10)

/-- An exact result `x` in an accumulator under R424. -/
def resultA (sat : Bool) (x : Int) : Acc × Word :=
  if sat then
    if x < -(2 ^ 63) then (BitVec.ofInt 72 (-(2 ^ 63)), 0x20)
    else if 2 ^ 63 ≤ x then (BitVec.ofInt 72 (2 ^ 63 - 1), 0x20)
    else (BitVec.ofInt 72 x, 0)
  else if -(2 ^ 71) ≤ x ∧ x < 2 ^ 71 then (BitVec.ofInt 72 x, 0)
  else (BitVec.ofInt 72 x, 0x40)

/-- `n` is the number of bits below the sign bit of `v` that repeat it without a break (R430). -/
def Redundant {w : Nat} (v : BitVec w) (n : Nat) : Prop :=
  n ≤ w - 1 ∧ (∀ i, i < n → v.getLsbD (w - 2 - i) = v.msb) ∧ (n < w - 1 → v.getLsbD (w - 2 - n) ≠ v.msb)

/-- A shift right by `sh` under R425: toward minus infinity, or to nearest with ties away from zero. -/
def accShifted (v : Int) (sh : Nat) (rnd : Bool) : Int :=
  if !rnd then v / 2 ^ sh
  else if 0 ≤ v then (2 * v + 2 ^ sh) / 2 ^ (sh + 1)
  else -((2 * -v + 2 ^ sh) / 2 ^ (sh + 1))

/-- A value held within a signed format of `w` bits, and the SAT bit of CSW when that changes it. -/
def accStored (w : Nat) (x : Int) : Int × Word :=
  if x < -(2 ^ (w - 1)) then (-(2 ^ (w - 1)), 0x20) else if 2 ^ (w - 1) ≤ x then (2 ^ (w - 1) - 1, 0x20) else (x, 0)

/-- The core `k'` is `k` gone on to `pc`, no other register changed. -/
def Core.goesTo (k k' : Core) (pc : Word) : Prop := k' = { k with pc := pc, entryWin := none, step := false }

/-- The value of `n` bytes at a target, as core `c` of plane `p` sees it: its own posted stores are in DRAM (log entry 27). -/
def Part.loadValue (s : Part) (p : Plane) (c n : Nat) : Target → Nat
  | .loc a => (s.mems.loc p c).read a n
  | .state a => (s.mems.pl p).state.read a n
  | .dram a => (((s.dev.core p c).posted.foldl (fun m x => m.writeBytes x.addr x.bytes)) s.mems.dram).read a n
  | .solver a => solverRead s.dev p a n
  | .view a => (viewLoad p c a n s.dev).2

/-- A loaded value of SIZE in a register or register pair, and the pointer after it (R420); the core goes on. -/
def Core.loads (k k' : Core) (g size : Nat) (sx : Bool) (pi mi : Nat) (pm : Bool) (v : Nat) : Prop :=
  k' = { k with g := k'.g, p := k'.p, pc := k.pc + 4, entryWin := none, step := false } ∧
    (∀ i, k'.rp i = if pm ∧ i = pi then k.rp pi + k.rm mi else k.rp i) ∧
    ∀ i, k'.rg i =
      if i = 0 then 0
      else if size = 3 ∧ i = g + 1 then BitVec.ofNat 32 (v / 2 ^ 32)
      else if i = g then
        (if size = 0 then (if sx then (BitVec.ofNat 8 v).signExtend 32 else (BitVec.ofNat 8 v).setWidth 32)
        else if size = 1 then (if sx then (BitVec.ofNat 16 v).signExtend 32 else (BitVec.ofNat 16 v).setWidth 32)
        else BitVec.ofNat 32 v)
      else k.rg i

/-- The register fields of a load or store keep R420: no DISP with PM = 1, an even register with SIZE 64. -/
abbrev formOk (g : Nat) (pm : Bool) (size : Nat) (disp : BitVec 11) : Prop := (pm = true → disp = 0) ∧ (size = 3 → g % 2 = 0)

/-- SATMODE of a core with the S bit of the instruction. -/
def Core.sats (k : Core) (s : Bool) : Bool := k.csw.getLsbD 0 && s

/-- The bytes `[o, o + n)` of `m'` hold the `n` bytes of `v`, lowest first, and every other byte reads as in `m`. -/
def Mem.stores (m m' : Mem) (o n v : Nat) : Prop :=
  ∀ a, m'.byte a = if o ≤ a ∧ a < o + n then BitVec.ofNat 8 (v / 256 ^ (a - o)) else m.byte a

/-- Memories that differ in no byte but of the local memory of core `c` of plane `p`, which `x` relates. -/
def Mems.onlyLoc (m m' : Mems) (p : Plane) (c : Nat) (x : Mem → Mem → Prop) : Prop :=
  m' = m.setLoc p c (m'.loc p c) ∧ x (m.loc p c) (m'.loc p c)

/-- Memories that differ in no byte but of the state memory of plane `p`, which `x` relates. -/
def Mems.onlyState (m m' : Mems) (p : Plane) (x : Mem → Mem → Prop) : Prop :=
  m' = m.setState p (m'.pl p).state ∧ x (m.pl p).state (m'.pl p).state

/-- The core `k'` is `k` after a store (R420): it goes on, and the pointer is post-modified with PM = 1. -/
def Core.afterStore (k k' : Core) (pi mi : Nat) (pm : Bool) : Prop :=
  k' = { k with p := k'.p, pc := k.pc + 4, entryWin := none, step := false } ∧
    ∀ i, k'.rp i = if pm ∧ i = pi then k.rp pi + k.rm mi else k.rp i

/-- The core `k'` is `k` with exception `cause` taken (R433): the return address `epc`, ECSW, ECAUSE and EADDR saved, EXC set and IE
cleared, and the pc at EVB + cause × 16; every other register is unchanged. -/
def Core.entered (k k' : Core) (cause code trapno : Nat) (epc eaddr : Word) : Prop :=
  k' = { k with
    epc := epc, ecsw := k.csw, ecause := BitVec.ofNat 32 (cause + 256 * trapno + 65536 * code), eaddr := eaddr,
    csw := (k.csw ||| 0x8) &&& 0xFFFFFFFD, pc := k.evb + BitVec.ofNat 32 (16 * cause), entryWin := none, step := false }

/-- The device `d` is `d0` with the exception taken by its core `c` of plane `p`, which was `k`; while EXC is 1 the core halts instead
(R434). No other core changes. -/
def Core.takes (k : Core) (p : Plane) (c : Nat) (d0 : Dev) (cause code trapno : Nat) (epc eaddr : Word) (d : Dev) : Prop :=
  (if k.csw.getLsbD 3 then d.core p c = { k with halted := true, step := false }
    else k.entered (d.core p c) cause code trapno epc eaddr) ∧
  (∀ e, e ≠ c → d.core p e = d0.core p e) ∧ ∀ e, d.core p.other e = d0.core p.other e

/-! ### Writers and mailbox commands -/

/-- A register write by `who` acts now, in plane `q`: a core's in its own plane while the core can execute, the host's in both planes
unless it is held in φ5 (R21, R280). -/
def Actor.actsIn (who : Actor) (d : Dev) (q : Plane) : Bool :=
  match who with
  | .core p c => decide (q = p) && d.coreActive p c
  | .host => !(decide (d.rd .SYS_PHASE = 5) && d.cyc.running)

/-- The header of a command that comes through the mailbox (R508). -/
def headerOf : Instr → Option MbxHdr
  | .patWrite h _ _ _ _ _ _ | .patActivate h | .patSwitch h | .flashRead h _ _ _ | .keyProgram h _ _ | .keyRevoke h _ _ _ _
  | .segAppend h _ _ | .auxMove h _ _ | .msTableLoad h _ _ | .axisSetpos h _ _ | .msPark h _ | .couple h _ | .decouple h _
  | .loopClear h _ | .slvDelta h _ | .timeInit h _ _ | .timeStep h _ _ | .taskPost h _ _ | .ladderSet h _ | .debugUnlock h _
  | .debugLock h | .cellarNote h _ | .stop (.mbx h) _ | .qstop (.mbx h) _ | .resume (.mbx h) _ | .abort (.mbx h) _ => some h
  | _ => none

/-- A shared mailbox command is delivered: there is room for its reply, it is its turn, and it passes the checks of R510. -/
abbrev MbxHdr.deliveredTo (h : MbxHdr) (d : Dev) : Prop := d.reads h = true ∧ mbxCheck h d = none

/-- A plane command is delivered at this φ4 start: besides, the limits of R512 are not reached. -/
abbrev MbxHdr.deliveredToPlanes (h : MbxHdr) (d : Dev) : Prop :=
  h.deliveredTo d ∧ d.host.deliverCnt < 64 ∧ d.host.deliverBytes + h.len ≤ 32768

/-- The reply of a command, complete or as it waits for the comparator, in a list of replies after `l`. -/
def MbxHdr.answers (h : MbxHdr) (status index : Nat) (l l' : List Reply) : Prop :=
  ∃ r, l' = l ++ [r] ∧ r.code = h.code ∧ r.tag = h.tag ∧ r.seq = h.seq ∧ r.status = status ∧ r.index = index

/-! ### The memories -/

/-- The memories of a plane are in canonical form: each memory is, and its local memories are listed once each in rising order. -/
def PlaneMems.wf (x : PlaneMems) : Bool :=
  x.state.wf && x.loc.dflt.wf && Sparse.rising x.loc.cells && x.loc.cells.all (fun e => e.2.wf)

/-- Every byte memory of the part is in canonical form. -/
def Mems.wf (m : Mems) : Bool := m.a.wf && m.b.wf && m.dram.wf && m.flash.wf

/-- Every byte memory of the state is in canonical form. -/
def State.memWf (s : State) : Bool := s.part.mems.wf

/-! ### The fuses (R53) -/

/-- No fuse of `v` is undone in `w`: a programmed key stays as it is, and a revoked slot stays revoked. -/
def Vault.keeps (v w : Vault) : Prop :=
  ∀ i, (∀ h, (v.slots.get i).hash = some h → (w.slots.get i).hash = some h) ∧
    ((v.slots.get i).revoked = true → (w.slots.get i).revoked = true)

end Sys2Proof.Machine
end

