-- ==== Sys2Proof/WellFormed.lean ====
section
/-! DEFINITION. Well-formed commands: what the senders of a command keep to beside the types of its operands. A mailbox
header names the row's code (19_host_link.md); counts and addresses stay in the ranges of their rules. -/

namespace Sys2Proof

open Sys2Proof.Machine

/-- A record of 32 words. -/
def wordsOk (r : List Nat) : Bool := r.length == 32 && r.all (fun w => decide (w < 2 ^ 32))

/-- A writer is the host or one of the ten cores. -/
def Actor.ok : Actor → Bool
  | .host => true
  | .core _ c => decide (c < 10)

/-- A motion command comes by its mailbox code, or by the register of one of the eight arms. -/
def viaOk (code : Nat) (via : Via) (t : Fin 24) : Bool :=
  match via with
  | .mbx h => h.code == code
  | .reg who => Actor.ok who && decide ((t : Nat) < 8)

/-- What the debug port names lies on a core. -/
def DebugOp.ok : DebugOp → Bool
  | .halt _ c => decide (c < 10)
  | .step _ c => decide (c < 10)
  | .read _ c _ _ => decide (c < 10)
  | .write _ c _ _ => decide (c < 10)

/-- A list of bytes. -/
def bytesOk (b : List Nat) : Bool := b.all (fun x => decide (x < 256))

/-- The fields of a received header lie in their widths (R338). -/
def headOk (h : RxHead) : Bool :=
  decide (h.type < 16) && decide (h.ver < 16) && decide (h.flags < 256) && decide (h.srcHigh < 128) && decide (h.win < 65536) &&
  decide (h.len < 65536) && decide (h.cyc < 65536) && decide (h.hcrc < 65536) && decide (h.fcs < 2 ^ 32)

/-- A value fits a signed field. -/
def fits (w : Nat) (x : Int) : Bool := decide (-(2 ^ (w - 1)) ≤ x) && decide (x < 2 ^ (w - 1))

/-- The parts of a slot payload lie in their widths (R348, R371). -/
def slotPayOk : SlotPayload → Bool
  | .ident r => decide (r.type < 2 ^ 32) && decide (r.cls < 65536) && decide (r.addr < 65536) && decide (r.lsVer < 256) &&
      decide (r.sfVer < 256) && decide (r.res < 65536) && decide (r.serial < 2 ^ 64) && decide (r.fwRev < 2 ^ 32)
  | .process subs recs msgs => subs.all bytesOk && msgs.all (fun m => bytesOk m.bytes && decide (m.ch < 8)) &&
      recs.all (fun r => fits 64 r.pos && fits 32 r.vel && fits 32 r.trq && decide (r.stat < 2 ^ 32) && fits 32 r.force)

/-- The command is well formed. -/
def Instr.wf : Instr → Bool
  | .boundary => true
  | .phaseStart n left _ _ => (n : Nat) != 0 && left.all (fun e => decide (e.2 < 128))
  | .rackComplete _ _ _ _ _ => true
  | .solverMatrixComplete _ _ => true
  | .batchComplete _ _ => true
  | .cutMaxExpiry _ _ => true
  | .syncInEdge _ _ _ => true
  | .edgeMiss => true
  | .syncCtlWrite _ => true
  | .apply who b w => Actor.ok who && stagedBlks.contains b && w.getLsbD 0
  | .registerWrite a _ => decide (a < 0x200000) && a % 4 == 0
  | .powerUp => true
  | .reset _ _ _ => true
  | .resetRelease => true
  | .dramTrained _ => true
  | .patternLoaded => true
  | .tasteDone _ _ _ _ _ _ _ => true
  | .patWrite h _ _ _ _ _ _ => h.code == 0x110
  | .patActivate h => h.code == 0x111
  | .patSwitch h => h.code == 0x112
  | .flashRead h _ _ _ => h.code == 0x113
  | .keyProgram h _ _ => h.code == 0x122
  | .keyRevoke h _ _ _ sig => h.code == 0x123 && sig.length == 64
  | .presChange _ _ => true
  | .presenceAssert => true
  | .presDisagree => true
  | .toileWrite _ => true
  | .segAppend h _ recs => h.code == 0x10 && decide (1 ≤ recs.length) && decide (recs.length ≤ 16) && recs.all wordsOk
  | .auxMove h _ mv => h.code == 0x11 && decide (mv.mode < 3) && decide (mv.tbase < 8)
  | .msTableLoad h _ vals => h.code == 0x12 && vals.length == 256 && vals.all (fun v => decide (v < 65536))
  | .axisSetpos h _ _ => h.code == 0x15
  | .msPark h _ => h.code == 0x16
  | .stop via t => viaOk 0x101 via t
  | .qstop via t => viaOk 0x102 via t
  | .resume via t => viaOk 0x103 via t
  | .abort via t => viaOk 0x104 via t
  | .ppeOvr who _ _ => Actor.ok who
  | .couple h _ => h.code == 0x17
  | .decouple h _ => h.code == 0x18
  | .loopClear h _ => h.code == 0x105
  | .slvDelta h l => h.code == 0x13 && decide (1 ≤ l.length) && decide (l.length ≤ 64)
  | .slvDeltaHi who _ _ => Actor.ok who
  | .deltaStallEnd _ => true
  | .slvCut _ _ _ _ => true
  | .fbCount _ _ _ _ _ => true
  | .ssiTransfer _ _ _ _ _ _ => true
  | .wireFault _ _ _ => true
  | .wireFaultClear _ _ => true
  | .idxArm _ => true
  | .clrRef _ => true
  | .fbClrCnt _ => true
  | .safetyCycleStart edA edB _ _ => decide (edA < 256) && decide (edB < 256)
  | .selftestDone _ _ => true
  | .handoverTimeout => true
  | .siEdge _ _ _ => true
  | .siFilterExpiry _ => true
  | .pairDiscrep _ => true
  | .testPulse _ seen _ => decide (seen < 65536)
  | .soTestPulse _ _ cross => cross.all (fun k => decide (k < 8))
  | .edmWindow _ _ => true
  | .vfieldLow => true
  | .vfieldRev => true
  | .vfieldHigh => true
  | .restartRequest _ _ => true
  | .degrExpired => true
  | .degrLeave _ => true
  | .ssmClear _ => true
  | .tasteSignature _ _ _ => true
  | .arbLink => true
  | .reloadDone _ _ => true
  | .bulkPassDone _ _ => true
  | .rejoinRetry _ => true
  | .revert => true
  | .riddleStart => true
  | .riddleEnd => true
  | .riddleDefer => true
  | .riddleNow => true
  | .redClrCnt => true
  | .timeInit h _ _ => h.code == 0x120
  | .timeStep h _ _ => h.code == 0x121
  | .tbNowRead _ => true
  | .ptpStamp _ _ _ _ => true
  | .ptpInfoRead _ => true
  | .ptpTsRead _ => true
  | .ptpSyncTimeout _ => true
  | .tevEvent _ => true
  | .timerExpiry _ _ => true
  | .timerArm who _ _ => Actor.ok who
  | .timerDisarm who _ _ => Actor.ok who
  | .syncSend _ => true
  | .syncFrame _ _ _ r => headOk r.head && decide (r.src < 512) && bytesOk r.pay
  | .syncFrameMissed _ _ _ => true
  | .cycleFrameAccept _ _ _ c => headOk c.head && bytesOk c.pay
  | .permissionSubframe _ _ _ seq map h => decide (seq < 2 ^ 32) && bytesOk map && bytesOk h.stamp && h.stamp.length == 12 &&
      decide (h.sfType < 256) && decide (h.ver < 256) && decide (h.num < 256) && decide (h.status < 256) && decide (h.crc < 2 ^ 32)
  | .slotFrame _ slot _ h _ _ _ pay => decide (slot < 1024) && headOk h && slotPayOk pay
  | .slotEmpty _ slot => decide (slot < 1024)
  | .guardCutoff _ => true
  | .tackFrame _ _ sched _ r _ => decide (sched < 2 ^ 32) && headOk r.head && decide (r.src < 512) && decide (r.lsVer < 256) &&
      decide (r.res < 65536) && decide (r.ident < 2 ^ 64)
  | .claimFrame _ _ tr hearers r => decide (1 ≤ tr) && decide (tr ≤ 15) && hearers.all (fun x => decide (x < 512)) && headOk r.head &&
      decide (r.slot < 65536) && decide (r.lsVer < 256) && decide (r.sched < 2 ^ 32) && decide (r.ident < 2 ^ 64)
  | .tListenExpiry _ => true
  | .tTackExpiry _ => true
  | .laneLockLoss _ _ _ => true
  | .laneRelock _ _ _ => true
  | .lsRestart _ => true
  | .clrHeal _ => true
  | .lsClrCnt _ => true
  | .capArm => true
  | .capStop => true
  | .postTExpiry => true
  | .capRd _ => true
  | .celRd _ => true
  | .cellarLoss => true
  | .trgPulse _ _ _ => true
  | .trgLineFault _ => true
  | .trgCalibration => true
  | .cal => true
  | .interruptClaim _ _ => true
  | .interruptDelivery _ _ => true
  | .coreWake _ _ => true
  | .preemptSwitch _ _ => true
  | .tskPost _ _ _ => true
  | .postStallEnd _ _ => true
  | .postTimeout _ _ => true
  | .msgRelease _ _ => true
  | .tskTake _ _ => true
  | .tskDone _ _ => true
  | .icuRaise who _ => Actor.ok who
  | .icuSrcWrite who _ _ => Actor.ok who
  | .taskPost h _ _ => h.code == 0x14
  | .add _ _ _ _ _ _ => true
  | .sub _ _ _ _ _ _ => true
  | .and _ _ _ _ _ => true
  | .or _ _ _ _ _ => true
  | .xor _ _ _ _ _ => true
  | .shl _ _ _ _ _ _ => true
  | .shr _ _ _ _ _ => true
  | .sar _ _ _ _ _ => true
  | .slt _ _ _ _ _ => true
  | .sltu _ _ _ _ _ => true
  | .min _ _ _ _ _ => true
  | .max _ _ _ _ _ => true
  | .mul _ _ _ _ _ _ => true
  | .mulh _ _ _ _ _ => true
  | .mulhu _ _ _ _ _ => true
  | .div _ _ _ _ _ _ => true
  | .divu _ _ _ _ _ => true
  | .rem _ _ _ _ _ => true
  | .remu _ _ _ _ _ => true
  | .exp _ _ _ _ => true
  | .norm _ _ gd gb _ => gd != gb
  | .expa _ _ _ _ => true
  | .mfs _ _ _ _ => true
  | .mts _ _ _ _ => true
  | .addiS _ _ _ _ _ => true
  | .addi _ _ _ _ _ => true
  | .andi _ _ _ _ _ => true
  | .ori _ _ _ _ _ => true
  | .lui _ _ _ _ => true
  | .ld _ _ _ _ _ _ _ _ _ _ => true
  | .st _ _ _ _ _ _ _ _ _ _ => true
  | .postedStoreWritten _ _ => true
  | .mac _ _ _ _ _ _ => true
  | .msu _ _ _ _ _ _ => true
  | .amul _ _ _ _ _ _ => true
  | .aclr _ _ _ => true
  | .aadd _ _ _ _ _ _ => true
  | .ashl _ _ _ _ _ => true
  | .ashr _ _ _ _ => true
  | .aext _ _ _ _ _ _ => true
  | .aextd _ _ _ _ _ _ => true
  | .ains _ _ _ _ _ => true
  | .beq _ _ _ _ _ => true
  | .bne _ _ _ _ _ => true
  | .blt _ _ _ _ _ => true
  | .bge _ _ _ _ _ => true
  | .bltu _ _ _ _ _ => true
  | .bgeu _ _ _ _ _ => true
  | .jal _ _ _ _ => true
  | .jalr _ _ _ _ => true
  | .movp _ _ _ _ => true
  | .movm _ _ _ _ => true
  | .mfp _ _ _ _ => true
  | .paddi _ _ _ _ => true
  | .amoadd _ _ _ _ _ _ _ _ _ => true
  | .swap _ _ _ _ _ _ _ _ _ => true
  | .ftap _ _ _ _ _ _ _ _ _ _ => true
  | .ftap2 _ _ _ _ _ _ _ _ _ _ => true
  | .sleep _ _ => true
  | .eret _ _ => true
  | .reti _ _ => true
  | .trap _ _ _ => true
  | .fence _ _ => true
  | .memBankpwr who _ _ => Actor.ok who
  | .bankFillDone _ _ => true
  | .dramScrub _ _ => true
  | .paceWindow laps => laps.length == 16
  | .tempReading _ => true
  | .avsTransaction _ _ => true
  | .avsRetry _ => true
  | .pwrAvsWrite _ => true
  | .pwrClr => true
  | .ladderTarget who _ => Actor.ok who
  | .ladderSet h _ => h.code == 0x106
  | .ladderDescentTimer => true
  | .wake _ => true
  | .ascentStepDone _ _ => true
  | .doorbell u wp cmds => wp % 16 == 0 && decide (wp < ringBytes u) && cmds.all (fun h => h.u == u && decide (h.seq < 2 ^ 32))
  | .rplRp rp => rp % 32 == 0 && decide (rp < 2 ^ 19)
  | .hstProto _ => true
  | .bar4Write o bs => !bs.isEmpty && decide (o + bs.length ≤ 2 ^ 28)
  | .kick _ => true
  | .hostTimeout => true
  | .coreDb => true
  | .pcieLinkDown => true
  | .debugUnlock h _ => h.code == 0x124
  | .debugLock h => h.code == 0x125
  | .nonceRead => true
  | .cellarNote h text => h.code == 0x130 && decide (12 ≤ text.length) && decide (text.length ≤ 4092)
  | .fusesRead => true
  | .flashOperationDone _ _ => true
  | .ppeSignalsCut _ => true
  | .aiSample _ code _ => decide (-32768 ≤ code) && decide (code ≤ 32767)
  | .fastChannelSample _ _ => true
  | .poOutputStep _ _ => true
  | .soReadbackFault _ _ => true
  | .vfieldRestored => true
  | .vkeepLoss => true
  | .symbolLock _ _ => true
  | .openRelisten _ => true
  | .trgLineIdle _ => true
  | .trgOutputPulse _ => true
  | .illegal _ _ => true
  | .pcieLinkUp _ _ => true
  | .ethFrameRx _ _ => true
  | .debugPortAccess op => DebugOp.ok op
  | .jtagInstruction _ => true

end Sys2Proof
end

