-- ==== Sys2Proof/Certificates/Slice0/Obligations.lean ====
section
/-! DEFINITION. The statements for the provers. Each names the rules of spec/ that it formalises or rests on; where a clause rests on
a choice of the model, it names the log entry. -/

open Sys2Proof Sys2Proof.Machine

/-! ### The queue -/

/-- A step takes the command at the front of the queue and executes it on the state with the rest waiting. -/
def Obligations.StepRunsFront : Prop :=
  ∀ (c : Instr) (rest : List Instr) (s : State), step { s with pending := c :: rest } = exec c { s with pending := rest }

/-! ### FD32: integer instructions -/

/-- R429, R423: the instructions that form a result without flags write it to gd, and nothing else changes but the pc. -/
def Obligations.LogicResults : Prop :=
  ∀ (p : Plane) (c : Fin 10) (gd ga gb : Fin 32) (s : State), s.part.dev.coreActive p c = true →
    let r (i : Instr) (f : Word → Word → Word) : Prop :=
      RunsCore i p c s (fun k k' => k.writesG k' gd (f (k.rg ga) (k.rg gb)) 0)
    r (.and p c gd ga gb) (· &&& ·) ∧ r (.or p c gd ga gb) (· ||| ·) ∧ r (.xor p c gd ga gb) (· ^^^ ·) ∧
    r (.shr p c gd ga gb) (fun a b => a >>> (b.toNat % 64)) ∧
    r (.sar p c gd ga gb) (fun a b => a.sshiftRight (b.toNat % 64)) ∧
    r (.slt p c gd ga gb) (fun a b => if a.slt b then 1 else 0) ∧
    r (.sltu p c gd ga gb) (fun a b => if a.ult b then 1 else 0) ∧
    r (.min p c gd ga gb) (fun a b => if a.slt b then a else b) ∧
    r (.max p c gd ga gb) (fun a b => if a.slt b then b else a) ∧
    r (.mulh p c gd ga gb) (fun a b => ((a.signExtend 64 * b.signExtend 64) >>> 32).setWidth 32) ∧
    r (.mulhu p c gd ga gb) (fun a b => ((a.setWidth 64 * b.setWidth 64) >>> 32).setWidth 32)

/-- R424, R429: overflow of a g result by SATMODE and the S bit, for ADD, SUB, MUL, ADDI, ADDI.S, and for SHL by the exact shifted value
(DESIGN CHOICE, log entry 32); ANDI, ORI and LUI. -/
def Obligations.OverflowResults : Prop :=
  ∀ (p : Plane) (c : Fin 10) (sat : Bool) (gd ga gb : Fin 32) (imm : BitVec 16) (s : State), s.part.dev.coreActive p c = true →
    let r (i : Instr) (sat : Bool) (x : Core → Int) : Prop :=
      RunsCore i p c s (fun k k' => k.writesG k' gd (resultG (k.sats sat) (x k)).1 (resultG (k.sats sat) (x k)).2)
    r (.add p c sat gd ga gb) sat (fun k => (k.rg ga).toInt + (k.rg gb).toInt) ∧
    r (.sub p c sat gd ga gb) sat (fun k => (k.rg ga).toInt - (k.rg gb).toInt) ∧
    r (.mul p c sat gd ga gb) sat (fun k => (k.rg ga).toInt * (k.rg gb).toInt) ∧
    r (.shl p c sat gd ga gb) sat (fun k => (k.rg ga).toInt * 2 ^ ((k.rg gb).toNat % 64)) ∧
    r (.addi p c gd ga imm) false (fun k => (k.rg ga).toInt + imm.toInt) ∧
    r (.addiS p c gd ga imm) true (fun k => (k.rg ga).toInt + imm.toInt) ∧
    RunsCore (.andi p c gd ga imm) p c s (fun k k' => k.writesG k' gd (k.rg ga &&& imm.setWidth 32) 0) ∧
    RunsCore (.ori p c gd ga imm) p c s (fun k k' => k.writesG k' gd (k.rg ga ||| imm.setWidth 32) 0) ∧
    RunsCore (.lui p c gd imm) p c s (fun k k' => k.writesG k' gd (imm ++ (0 : BitVec 16)) 0)

/-- R423: quotients and remainders, by zero too; DIV of −2^31 by −1 under R424. The quotient of DIVU by zero is DEDUCED (log entry 20). -/
def Obligations.DivideResults : Prop :=
  ∀ (p : Plane) (c : Fin 10) (sat : Bool) (gd ga gb : Fin 32) (s : State), s.part.dev.coreActive p c = true →
    let r (i : Instr) (f : Core → Word → Word → Word × Word) : Prop :=
      RunsCore i p c s (fun k k' => k.writesG k' gd (f k (k.rg ga) (k.rg gb)).1 (f k (k.rg ga) (k.rg gb)).2)
    r (.div p c sat gd ga gb) (fun k a b =>
      if b = 0 then (if 0 ≤ a.toInt then 0x7FFFFFFF else 0x80000000, 0x80) else resultG (k.sats sat) (a.toInt.tdiv b.toInt)) ∧
    r (.divu p c gd ga gb) (fun _ a b => if b = 0 then (0x7FFFFFFF, 0x80) else (a / b, 0)) ∧
    r (.rem p c gd ga gb) (fun _ a b => if b = 0 then (a, 0x80) else (a.srem b, 0)) ∧
    r (.remu p c gd ga gb) (fun _ a b => if b = 0 then (a, 0x80) else (a % b, 0))

/-- R430: EXP counts the bits from bit 30 downward that equal bit 31, NORM shifts left by that count, exactly, and gives the count,
EXPA counts from bit 70 downward and gives the count less 8. -/
def Obligations.ExponentResults : Prop :=
  ∀ (p : Plane) (c : Fin 10) (gd ga gb : Fin 32) (a : Fin 4) (s : State), s.part.dev.coreActive p c = true →
    RunsCore (.exp p c gd ga) p c s (fun k k' => ∃ n, Redundant (k.rg ga) n ∧ k.writesG k' gd (BitVec.ofNat 32 n) 0) ∧
    RunsCore (.expa p c gd a) p c s (fun k k' => ∃ n, Redundant (k.ra a) n ∧ k.writesG k' gd (BitVec.ofInt 32 ((n : Int) - 8)) 0) ∧
    (gd ≠ gb → RunsCore (.norm p c gd gb ga) p c s (fun k k' => ∃ n, Redundant (k.rg ga) n ∧
      k' = { k with g := k'.g, pc := k.pc + 4, entryWin := none, step := false } ∧
      (k.rg ga <<< n).toInt = (k.rg ga).toInt * 2 ^ n ∧
      ∀ i, k'.rg i = if i = gb ∧ i ≠ 0 then BitVec.ofNat 32 n else if i = gd ∧ i ≠ 0 then k.rg ga <<< n else k.rg i))

/-- R429, R419: MFS reads the system registers in their order, HSCNT being a free value that stays in the register; MTS writes CSW by
its access codes, EPC, ECSW, and EVB with bits [7:0] kept 0, and nothing for the others. -/
def Obligations.SystemRegisters : Prop :=
  ∀ (p : Plane) (c : Fin 10) (gd gb : Fin 32) (n : Fin 8) (s : State), s.part.dev.coreActive p c = true →
    (n.val ≠ 7 → RunsCore (.mfs p c gd n) p c s (fun k k' => k.writesG k' gd
      ([k.csw, k.epc, k.ecsw, k.ecause, k.eaddr, k.evb, BitVec.ofNat 32 (c + 16 * p.num)].getD n 0) 0)) ∧
    (n.val = 7 → RunsDev (.mfs p c gd n) s (fun d => ∃ k,
      d = ({ s.part.dev with free := s.part.dev.free + 1 }).setCore p c k ∧
      ({ s.part.dev.core p c with hscnt := k.hscnt }).writesG k gd k.hscnt 0)) ∧
    RunsCore (.mts p c n gb) p c s (fun k k' =>
      k' = { k with csw := k'.csw, epc := k'.epc, ecsw := k'.ecsw, evb := k'.evb, pc := k.pc + 4, entryWin := none, step := false } ∧
      (∀ i, i < 32 → k'.csw.getLsbD i =
        if n.val ≠ 0 then k.csw.getLsbD i
        else if i < 3 then (k.rg gb).getLsbD i
        else if 4 ≤ i ∧ i < 8 then k.csw.getLsbD i && !(k.rg gb).getLsbD i
        else if i < 12 then k.csw.getLsbD i
        else false) ∧
      k'.epc = (if n.val = 1 then k.rg gb else k.epc) ∧ k'.ecsw = (if n.val = 2 then k.rg gb else k.ecsw) ∧
      k'.evb = (if n.val = 5 then k.rg gb &&& 0xFFFFFF00 else k.evb))

/-! ### FD32: accumulators -/

/-- R424, R429: the accumulator instructions: exact in 72 bits and beyond them a wrap with AOV, or clipped to 64 bits in SATMODE 1
with S = 1. -/
def Obligations.AccumulatorResults : Prop :=
  ∀ (p : Plane) (c : Fin 10) (a : Fin 4) (ga gb : Fin 32) (sat : Bool) (sh : Fin 64) (s : State), s.part.dev.coreActive p c = true →
    let r (i : Instr) (x : Core → Int) : Prop :=
      RunsCore i p c s (fun k k' => k.writesA k' a (resultA (k.sats sat) (x k)).1 (resultA (k.sats sat) (x k)).2)
    r (.mac p c a ga gb sat) (fun k => (k.ra a).toInt + (k.rg ga).toInt * (k.rg gb).toInt) ∧
    r (.msu p c a ga gb sat) (fun k => (k.ra a).toInt - (k.rg ga).toInt * (k.rg gb).toInt) ∧
    r (.amul p c a ga gb sat) (fun k => (k.rg ga).toInt * (k.rg gb).toInt) ∧
    r (.aadd p c a ga sat sh) (fun k => (k.ra a).toInt + (k.rg ga).toInt * 2 ^ sh.val) ∧
    r (.ashl p c a sat sh) (fun k => (k.ra a).toInt * 2 ^ sh.val) ∧
    RunsCore (.aclr p c a) p c s (fun k k' => k.writesA k' a 0 0) ∧
    RunsCore (.ashr p c a sh) p c s (fun k k' => k.writesA k' a ((k.ra a).sshiftRight sh) 0)

/-- R425: AEXT and AEXTD shift right with their rounding and saturate to 32 or 64 bits, AINS loads the sign-extended pair shifted left
and saturates it to 72 bits. A pair needs a register above gd, so gd is not 31 (log entry 21). -/
def Obligations.AccumulatorTransfers : Prop :=
  ∀ (p : Plane) (c : Fin 10) (a : Fin 4) (gd : Fin 32) (sh : Fin 64) (rnd : Bool) (s : State), s.part.dev.coreActive p c = true →
    RunsCore (.aext p c a gd sh rnd) p c s (fun k k' =>
      let r := accStored 32 (accShifted (k.ra a).toInt sh rnd)
      k.writesG k' gd (BitVec.ofInt 32 r.1) r.2) ∧
    (gd.val < 31 →
      RunsCore (.aextd p c a gd sh rnd) p c s (fun k k' =>
        let r := accStored 64 (accShifted (k.ra a).toInt sh rnd)
        k' = { k with g := k'.g, csw := k.csw ||| r.2, pc := k.pc + 4, entryWin := none, step := false } ∧
        ∀ i, k'.rg i = if i = gd.val + 1 then (BitVec.ofInt 64 r.1 >>> 32).setWidth 32
          else if i = gd ∧ i ≠ 0 then (BitVec.ofInt 64 r.1).setWidth 32 else k.rg i) ∧
      RunsCore (.ains p c a gd sh) p c s (fun k k' =>
        let r := accStored 72 ((k.rg (gd.val + 1) ++ k.rg gd).toInt * 2 ^ sh.val)
        k.writesA k' a (BitVec.ofInt 72 r.1) r.2))

/-! ### FD32: branches, jumps, pointers -/

/-- R429: a branch goes to pc + 4 × offset when ga compares with gb as its name says, else to the next instruction, and changes no
register; JAL and JALR link to the next instruction and jump; MOVP, MOVM, MFP and PADDI move between pointers, offset registers and
general registers. -/
def Obligations.FlowAndPointerResults : Prop :=
  ∀ (p : Plane) (c : Fin 10) (gd ga gb : Fin 32) (i : Fin 8) (bo imm : BitVec 16) (off : BitVec 21) (s : State),
    s.part.dev.coreActive p c = true →
    let r (i : Instr) (t : Word → Word → Bool) : Prop :=
      RunsCore i p c s (fun k k' => k.goesTo k' (if t (k.rg ga) (k.rg gb) then k.pc + (bo.signExtend 32 <<< 2) else k.pc + 4))
    r (.beq p c ga gb bo) (fun a b => a == b) ∧ r (.bne p c ga gb bo) (fun a b => a != b) ∧
    r (.blt p c ga gb bo) (fun a b => a.slt b) ∧ r (.bge p c ga gb bo) (fun a b => !a.slt b) ∧
    r (.bltu p c ga gb bo) (fun a b => a.ult b) ∧ r (.bgeu p c ga gb bo) (fun a b => !a.ult b) ∧
    RunsCore (.jal p c gd off) p c s (fun k k' => k.writesGTo k' gd (k.pc + 4) 0 (k.pc + (off.signExtend 32 <<< 2))) ∧
    ((s.part.dev.core p c).rg ga &&& 3 = 0 →
      RunsCore (.jalr p c gd ga) p c s (fun k k' => k.writesGTo k' gd (k.pc + 4) 0 (k.rg ga))) ∧
    RunsCore (.mfp p c gd i) p c s (fun k k' => k.writesG k' gd (k.rp i) 0) ∧
    RunsCore (.movp p c i ga) p c s (fun k k' => ({ k with p := k'.p }).goesTo k' (k.pc + 4) ∧
      ∀ j, k'.rp j = if j = i then k.rg ga else k.rp j) ∧
    RunsCore (.movm p c i ga) p c s (fun k k' => ({ k with m := k'.m }).goesTo k' (k.pc + 4) ∧
      ∀ j, k'.rm j = if j = i then k.rg ga else k.rm j) ∧
    RunsCore (.paddi p c i imm) p c s (fun k k' => ({ k with p := k'.p }).goesTo k' (k.pc + 4) ∧
      ∀ j, k'.rp j = if j = i then k.rp i + imm.signExtend 32 else k.rp j)

/-! ### FD32: memory -/

/-- R420, R475, R476: a load that the checks pass writes the value at its address to the register or register pair and
post-modifies the pointer; no memory changes. The device changes by what the read itself does (a register view, a bank in RET) and by
the count of a corrected error. -/
def Obligations.LoadResults : Prop :=
  ∀ (p : Plane) (c : Fin 10) (g : Fin 32) (pi mi : Fin 8) (pm : Bool) (size : Fin 4) (sx : Bool) (disp : BitVec 11) (ecc : Ecc)
    (t : Target) (s : State), s.part.dev.coreActive p c = true → formOk g pm size disp →
    let k := s.part.dev.core p c
    let n := 2 ^ size.val
    let a := if pm then k.rp pi else k.rp pi + disp.signExtend 32
    accessCheck s.part.dev p c a.toNat n false false = .ok t → (ecc = .double → hasEcc t = false) →
    let s1 := s.part.onDev (fun d => if ecc = .single ∧ hasEcc t = true then (if isDram t then dramCe d else sramCe p d) else d)
    Runs (.ld p c g pi mi pm size sx disp ecc) s (fun q => q.mems = s.part.mems ∧ ∃ k',
      q.dev = (readTarget p c n t s1).1.dev.setCore p c k' ∧
      ((readTarget p c n t s1).1.dev.core p c).loads k' g size sx pi mi pm (s1.loadValue p c n t))

/-- R420, R421, R285: a store to local memory writes the bytes of its SIZE at its address and no other byte of any memory, and of the
device only the pc and, with PM = 1, the pointer change; the device notes it while the result of racking waits (`noteStore`). A store to a
RACKED line stalls while racking runs. -/
def Obligations.StoreLocal : Prop :=
  ∀ (p : Plane) (c : Fin 10) (g : Fin 32) (pi mi : Fin 8) (pm : Bool) (size : Fin 4) (disp : BitVec 11) (lo hi : Bool) (o : Nat)
    (s : State), s.part.dev.coreActive p c = true → formOk g pm size disp → s.memWf = true →
    let k := s.part.dev.core p c
    let a := if pm then k.rp pi else k.rp pi + disp.signExtend 32
    accessCheck s.part.dev p c a.toNat (2 ^ size.val) true false = .ok (.loc o) →
    (rackHolds s.part.dev c o (2 ^ size.val) = false → Runs (.st p c g pi mi pm size disp lo hi) s (fun q => o = a.toNat ∧
      s.part.mems.onlyLoc q.mems p c (fun m m' => m.stores m' o (2 ^ size.val)
        (if size.val = 3 then (k.rg (g.val + 1) ++ k.rg g).toNat else (k.rg g).toNat)) ∧
      ∃ k', q.dev = (noteStore p c o (2 ^ size.val) s.part.dev).setCore p c k' ∧ k.afterStore k' pi mi pm)) ∧
    (rackHolds s.part.dev c o (2 ^ size.val) = true → RunsDev (.st p c g pi mi pm size disp lo hi) s (fun d => d = s.part.dev))

/-- R420, R422, R468, R470, R285: a store to state memory of which no half is lost writes the bytes of its SIZE there, and no other byte of
any memory, and stalls on a RACKED line while racking runs; a store to the DRAM window is posted while the plane's write buffer has room, and no byte of memory changes yet; a store to
the register view changes no memory before the register's own effect. -/
def Obligations.StoreElsewhere : Prop :=
  ∀ (p : Plane) (c : Fin 10) (g : Fin 32) (pi mi : Fin 8) (pm : Bool) (size : Fin 4) (disp : BitVec 11) (lo hi : Bool) (o : Nat)
    (s : State), s.part.dev.coreActive p c = true → formOk g pm size disp → s.memWf = true →
    let k := s.part.dev.core p c
    let n := 2 ^ size.val
    let v := if size.val = 3 then (k.rg (g.val + 1) ++ k.rg g).toNat else (k.rg g).toNat
    let a := if pm then k.rp pi else k.rp pi + disp.signExtend 32
    let check := accessCheck s.part.dev p c a.toNat n true false
    (check = .ok (.state o) → rackHolds s.part.dev 10 o n = false →
      Runs (.st p c g pi mi pm size disp false false) s (fun q => o + 0x10000000 = a.toNat ∧
        s.part.mems.onlyState q.mems p (fun m m' => m.stores m' o n v) ∧
        ∃ k', q.dev = (noteStore p 10 o n (wakeBanks p o n s.part.dev)).setCore p c k' ∧ k.afterStore k' pi mi pm)) ∧
    (check = .ok (.state o) → rackHolds s.part.dev 10 o n = true →
      RunsDev (.st p c g pi mi pm size disp lo hi) s (fun d => d = s.part.dev)) ∧
    (check = .ok (.dram o) → s.part.dev.postedCount p < 32 →
      RunsDev (.st p c g pi mi pm size disp lo hi) s (fun d => ∃ k', k.afterStore k' pi mi pm ∧
        d = s.part.dev.setCore p c { k' with posted := k.posted ++ [⟨o, bytesOf n v⟩] })) ∧
    (check = .ok (.view o) → Runs (.st p c g pi mi pm size disp lo hi) s (fun q => ∃ k', k.afterStore k' pi mi pm ∧
      q = viewStore p c o n v { s.part with dev := s.part.dev.setCore p c k' }))

/-- R422: DRAM takes the oldest posted store of a core, byte for byte, and no other byte of any memory changes; FENCE lets the core wait
until its last posted store is written. -/
def Obligations.PostedStores : Prop :=
  ∀ (p : Plane) (c : Fin 10) (x : Posted) (rest : List Posted) (s : State), s.memWf = true →
    let k := s.part.dev.core p c
    (k.posted = x :: rest → Runs (.postedStoreWritten p c) s (fun q =>
      q.mems = { s.part.mems with dram := q.mems.dram } ∧
      (∀ a, q.mems.dram.byte a = if x.addr ≤ a ∧ a < x.addr + x.bytes.length then x.bytes.getD (a - x.addr) 0
        else s.part.mems.dram.byte a) ∧
      q.dev = s.part.dev.setCore p c { k with posted := rest, fence := k.fence && !rest.isEmpty })) ∧
    (s.part.dev.coreActive p c = true → RunsCore (.fence p c) p c s (fun k k' =>
      k' = { k with pc := k.pc + 4, fence := !k.posted.isEmpty, entryWin := none, step := false }))

/-- R429, R468, R285: AMOADD and SWAP give the old word of state memory to g and put the sum, or g, in its place, and no other byte of any
memory changes; nothing is lost to port E and ECC finds nothing. On a RACKED line they stall while racking runs. -/
def Obligations.AtomicResults : Prop :=
  ∀ (p : Plane) (c : Fin 10) (g : Fin 32) (pi : Fin 8) (disp : BitVec 11) (o : Nat) (s : State),
    s.part.dev.coreActive p c = true → s.memWf = true →
    let k := s.part.dev.core p c
    let a := k.rp pi + disp.signExtend 32
    let old := (s.part.mems.pl p).state.read o 4
    accessCheck s.part.dev p c a.toNat 4 true true = .ok (.state o) →
    let r (i : Instr) (new : Nat) : Prop := Runs i s (fun q =>
      s.part.mems.onlyState q.mems p (fun m m' => m.stores m' o 4 new) ∧
      ∃ k', q.dev = (noteStore p 10 o 4 (wakeBanks p o 4 s.part.dev)).setCore p c k' ∧ k.writesG k' g (BitVec.ofNat 32 old) 0)
    (rackHolds s.part.dev 10 o 4 = false →
      r (.amoadd p c g pi false 2 disp .clean false) (BitVec.ofNat 32 old + k.rg g).toNat ∧
      r (.swap p c g pi false 2 disp .clean false) (k.rg g).toNat) ∧
    (rackHolds s.part.dev 10 o 4 = true →
      RunsDev (.amoadd p c g pi false 2 disp .clean false) s (fun d => d = s.part.dev) ∧
      RunsDev (.swap p c g pi false 2 disp .clean false) s (fun d => d = s.part.dev))

/-- R431, R424: FTAP adds one product to the accumulator and moves one word of the delay line, FTAP2 adds two and moves two; with NEG
the sum is subtracted, and both pointers are post-modified. A tap that would write a RACKED line stalls while racking runs (R285). -/
def Obligations.FilterTaps : Prop :=
  ∀ (p : Plane) (c : Fin 10) (a : Fin 4) (px mx pc mc : Fin 8) (sat neg two : Bool) (s : State),
    s.part.dev.coreActive p c = true → s.memWf = true →
    let k := s.part.dev.core p c
    let m := s.part.mems.loc p c
    let x := (k.rp px).toNat
    let y := (k.rp pc).toNat
    let w (at_ : Nat) : Int := (BitVec.ofNat 32 (m.read at_ 4)).toInt
    let i : Instr := if two then .ftap2 p c a px mx pc mc sat neg .clean else .ftap p c a px mx pc mc sat neg .clean
    let held := (tapWrites two x).any (fun v => rackHolds s.part.dev c v.toNat 4)
    let sum := if two then w x * w y + w (x - 4) * w (y - 4) else w x * w y
    let r := resultA (k.sats sat) ((k.ra a).toInt + (if neg then -sum else sum))
    tapCheck s.part.dev c two x y = none →
    (held = true → RunsDev i s (fun d => d = s.part.dev)) ∧
    (held = false → Runs i s (fun q =>
      s.part.mems.onlyLoc q.mems p c (fun m m' =>
        if two then m.stores m' x 8 (m.read (x - 4) 8) else m.stores m' (x + 4) 4 (m.read x 4)) ∧
      ∃ k', q.dev = (forL (tapWrites two x) (fun v d => noteStore p c v.toNat 4 d) s.part.dev).setCore p c k' ∧
        k' = { k with a := k'.a, p := k'.p, csw := k.csw ||| r.2, pc := k.pc + 4, entryWin := none, step := false } ∧
        (∀ i, k'.ra i = if i = a then r.1 else k.ra i) ∧
        (∀ i, k'.rp i = if px = pc then (if i = px then k.rp px + k.rm mx + k.rm mc else k.rp i)
          else if i = px then k.rp px + k.rm mx else if i = pc then k.rp pc + k.rm mc else k.rp i)))

/-! ### FD32: system instructions and exceptions -/

/-- R461, R433: SLEEP suspends the core at the next instruction; ERET restores CSW from ECSW and continues at EPC, which is a multiple
of 4; a core asleep that something wakes runs on. -/
def Obligations.SleepAndReturn : Prop :=
  ∀ (p : Plane) (c : Fin 10) (s : State),
    (s.part.dev.coreActive p c = true → RunsCore (.sleep p c) p c s (fun k k' => ({ k with asleep := true }).goesTo k' (k.pc + 4))) ∧
    (s.part.dev.coreActive p c = true → (s.part.dev.core p c).epc &&& 3 = 0 →
      RunsCore (.eret p c) p c s (fun k k' => ({ k with csw := k.ecsw &&& 0xFFF }).goesTo k' k.epc)) ∧
    ((s.part.dev.core p c).asleep = true → s.part.dev.coreOff p c = false → s.part.dev.wakes p c = true →
      RunsCore (.coreWake p c) p c s (fun k k' => k' = { k with asleep := false }))

/-- R427, R432, R433: what an exception saves and where it goes: TRAP after its instruction, an illegal word, NORM with gd = gb, a pair at
g31 (log entry 21), JALR and ERET to a target that is not a multiple of 4 (ERET: log entry 22). While EXC is 1 the core halts instead
(R434). No other core and no memory changes. -/
def Obligations.ExceptionEntry : Prop :=
  ∀ (p : Plane) (c : Fin 10) (n : Fin 256) (gd ga : Fin 32) (a : Fin 4) (sh : Fin 64) (rnd : Bool) (s : State),
    s.part.dev.coreActive p c = true →
    let k := s.part.dev.core p c
    let r (i : Instr) (cause code no : Nat) (epc : Word) : Prop := RunsDev i s (k.takes p c s.part.dev cause code no epc 0)
    r (.trap p c n) 6 0xA006 n (k.pc + 4) ∧ r (.illegal p c) 1 0xA001 0 k.pc ∧ r (.norm p c gd gd ga) 1 0xA001 0 k.pc ∧
    r (.aextd p c a 31 sh rnd) 1 0xA001 0 k.pc ∧ r (.ains p c a 31 sh) 1 0xA001 0 k.pc ∧
    (k.rg ga &&& 3 ≠ 0 → r (.jalr p c gd ga) 3 0xA003 0 k.pc) ∧ (k.epc &&& 3 ≠ 0 → r (.eret p c) 3 0xA003 0 k.pc)

/-- R420, R429, R431, R432, R470, R475: accesses that a check stops raise their exception before any effect: a form outside R420, or an atomic that is
not of 32 bits with an offset, is ILLEGAL; an address that the memory refuses, or an uncorrectable error, is BUS_ERR with its code and address; filter taps raise
ALIGN, FTAP_REGION or BUS_ERR. A store both halves of which are lost to port E stores nothing, and with WLX at 1 raises WRITE_LOST after
its instruction (R470). -/
def Obligations.AccessExceptions : Prop :=
  ∀ (p : Plane) (c : Fin 10) (g : Fin 32) (pi mi pc mc : Fin 8) (pm sx lo hi sat neg two : Bool) (size : Fin 4) (disp : BitVec 11)
    (ecc : Ecc) (a : Fin 4) (e : Code) (t : Target) (o : Nat) (y : Exc) (s : State),
    s.part.dev.coreActive p c = true →
    let k := s.part.dev.core p c
    let x := if pm then k.rp pi else k.rp pi + disp.signExtend 32
    let n := 2 ^ size.val
    let r (i : Instr) (cause code : Nat) (eaddr : Word) : Prop := RunsDev i s (k.takes p c s.part.dev cause code 0 k.pc eaddr)
    (¬ formOk g pm size disp → r (.ld p c g pi mi pm size sx disp ecc) 1 0xA001 0 ∧ r (.st p c g pi mi pm size disp lo hi) 1 0xA001 0) ∧
    (pm = true ∨ size.val ≠ 2 → r (.amoadd p c g pi pm size disp ecc lo) 1 0xA001 0 ∧ r (.swap p c g pi pm size disp ecc lo) 1 0xA001 0) ∧
    (formOk g pm size disp → accessCheck s.part.dev p c x.toNat n false false = .error e →
      r (.ld p c g pi mi pm size sx disp ecc) 2 e.num x) ∧
    (formOk g pm size disp → accessCheck s.part.dev p c x.toNat n true false = .error e →
      r (.st p c g pi mi pm size disp lo hi) 2 e.num x) ∧
    (pm = false → size.val = 2 → accessCheck s.part.dev p c x.toNat 4 true true = .error e →
      r (.amoadd p c g pi pm size disp ecc lo) 2 e.num x ∧ r (.swap p c g pi pm size disp ecc lo) 2 e.num x) ∧
    (formOk g pm size disp → accessCheck s.part.dev p c x.toNat n false false = .ok t → hasEcc t = true →
      r (.ld p c g pi mi pm size sx disp .double) 2 (if isDram t then Code.DRAM_UE else Code.SRAM_UE).num x) ∧
    (formOk g pm size disp → accessCheck s.part.dev p c x.toNat n true false = .ok (.state o) → k.csw.getLsbD 2 = true →
      rackHolds s.part.dev 10 o n = false →
      RunsDev (.st p c g pi mi pm size disp true true) s (fun d => ∃ k1, k.afterStore k1 pi mi pm ∧
        k1.takes p c s.part.dev 5 0xA005 0 (k.pc + 4) x d)) ∧
    (tapCheck s.part.dev c two (k.rp pi).toNat (k.rp pc).toNat = some y →
      r (if two then .ftap2 p c a pi mi pc mc sat neg ecc else .ftap p c a pi mi pc mc sat neg ecc) y.cause y.code.num
        (BitVec.ofNat 32 y.eaddr))

/-- R457: outside an interrupt chain, RETI restores the pc and the CSW from the frame of its depth, and the depth falls by one, when no
source may be taken in its place and no task switch is due after it. At depth 0 it is illegal. -/
def Obligations.RetiRestores : Prop :=
  ∀ (p : Plane) (c : Fin 10) (s : State), s.part.dev.coreActive p c = true →
    let d := s.part.dev
    let k := d.core p c
    let m := s.part.mems.loc p c
    let f := d.rdP p .ICU_CORE_FBASE c + 8 * k.depth
    let k' : Core := { k with pc := alignPc (m.read f 4), csw := BitVec.ofNat 32 (m.read (f + 4) 4) &&& 0xFFF, depth := k.depth - 1,
                              entryWin := none, step := false }
    (k.depth ≠ 0 → k.claims = [] → (∀ x, d.rdP p .ICU_SRC_PEND x = 0) → (d.setCore p c k').switchDue p c = none →
      RunsCore (.reti p c) p c s (fun _ x => x = k')) ∧
    (k.depth = 0 → k.csw.getLsbD 3 = false → RunsDev (.reti p c) s (fun d => k.entered (d.core p c) 1 0xA001 0 k.pc 0))

/-! ### Mailbox and host writes -/

/-- R510, R511: a command whose turn it is in its ring and that fails a check of R510 is answered with the code of the check as STATUS and has no effect: besides the
registers, the cellar book and the mailbox nothing changes, no memory and no fuse. -/
def Obligations.MailboxRefusals : Prop :=
  ∀ (i : Instr) (h : MbxHdr) (c : Code) (s : State), headerOf i = some h → s.part.dev.reads h = true →
    mbxCheck h s.part.dev = some c →
    RunsDev i s (fun d => d = { s.part.dev with regs := d.regs, cellar := d.cellar, host := d.host } ∧
      h.answers c.num 0 s.part.dev.host.replies d.host.replies)

/-- R280: during φ5 of a running cycle a host write to a register of a per-plane block is held for the closing boundary, in order, and
nothing else changes. -/
def Obligations.HostWritesHeld : Prop :=
  ∀ (src : Fin 512) (k : Fin 10) (x : Fin 512) (t : Fin 64) (cfg : Fin 16) (i : Fin 24) (v : BitVec 16) (m : Fin 2) (w : Word)
    (win : Fin 12) (arm : Fin 24) (s : State), s.part.dev.rd .SYS_PHASE = 5 → s.part.dev.cyc.running = true → arm.val < 8 →
    let r (i : Instr) (a w : Nat) : Prop := RunsDev i s (fun d =>
      d = { s.part.dev with host := { s.part.dev.host with held := s.part.dev.host.held ++ [(a, w)] } })
    r (.icuRaise .host src) 0x40010 src ∧
    r (.icuSrcWrite .host (.src x) w) (0x41000 + 4 * x) w.toNat ∧ r (.icuSrcWrite .host (.thresh k) w) (0x40100 + 16 * k) w.toNat ∧
    r (.timerArm .host t cfg) (0x50400 + 32 * t) (cfg + 16) ∧ r (.timerDisarm .host t cfg) (0x50400 + 32 * t) (cfg + 32) ∧
    r (.ppeOvr .host i v) (0x70040 + 4 * i) v.toNat ∧ r (.memBankpwr .host m w) (0xD0020 + 4 * m) w.toNat ∧
    r (.apply .host .lpe w) 0x60004 w.toNat ∧ r (.apply .host .ppe w) 0x70004 w.toNat ∧ r (.apply .host .slv w) 0x80004 w.toNat ∧
    r (.slvDeltaHi .host win w) (0x80104 + 8 * win) w.toNat ∧
    (∀ a, a < 0x200000 → a % 4 = 0 → (Blk.ofNum (a / 65536 % 16)).starred = true → r (.registerWrite a w) (a % 0x100000) w.toNat) ∧
    r (.stop (.reg .host) arm) (0x70100 + 32 * arm) 1 ∧ r (.qstop (.reg .host) arm) (0x70100 + 32 * arm) 2 ∧
    r (.resume (.reg .host) arm) (0x70100 + 32 * arm) 4 ∧ r (.abort (.reg .host) arm) (0x70100 + 32 * arm) 8

/-! ### Interrupts and tasks -/

/-- R454, R462: a write of ICU_RAISE sets PEND of a doorbell or software source, or MERGED when PEND is 1; a write of ICU_SRCs sets
LEVEL and TARGET and clears the flags written as 1 (source 14, which NO_TARGET itself raises, apart); THRESH takes the value. -/
def Obligations.InterruptSources : Prop :=
  ∀ (who : Actor) (src : Fin 512) (x : Fin 512) (k : Fin 10) (w : Word) (q : Plane) (s : State), who.actsIn s.part.dev q →
    let d0 := s.part.dev
    ((10 ≤ src.val ∧ src.val ≤ 13) ∨ 448 ≤ src.val → RunsDev (.icuRaise who src) s (fun d =>
      d.rdP q .ICU_SRC_PEND src = 1 ∧
      d.rdP q .ICU_SRC_MERGED src = (if d0.rdP q .ICU_SRC_PEND src = 1 then 1 else d0.rdP q .ICU_SRC_MERGED src))) ∧
    (x.val ≠ 14 → RunsDev (.icuSrcWrite who (.src x) w) s (fun d =>
      d.rdP q .ICU_SRC_LEVEL x = w.toNat % 16 ∧ d.rdP q .ICU_SRC_TARGET x = w.toNat / 16 % 1024 ∧
      d.rdP q .ICU_SRC_PEND x = (if w.getLsbD 14 then 0 else d0.rdP q .ICU_SRC_PEND x) ∧
      d.rdP q .ICU_SRC_MERGED x = (if w.getLsbD 20 then 0 else d0.rdP q .ICU_SRC_MERGED x))) ∧
    RunsDev (.icuSrcWrite who (.thresh k) w) s (fun d => d.rdP q .ICU_CORE_CTL_THRESH k = w.toNat % 16)

/-- R455: the lowest-numbered core that can take a source claims it: PEND clears, CLAIMED and CORE show the claim, and the core holds
it at the source's level; no other core of either plane changes. -/
def Obligations.InterruptClaims : Prop :=
  ∀ (p : Plane) (src : Fin 512) (c : Nat) (s : State), s.part.dev.claimer p src = some c →
    RunsDev (.interruptClaim p src) s (fun d =>
      d.rdP p .ICU_SRC_PEND src = 0 ∧ d.rdP p .ICU_SRC_CLAIMED src = 1 ∧ d.rdP p .ICU_SRC_CORE src = c ∧
      d.core p c = { s.part.dev.core p c with
        claims := (s.part.dev.core p c).claims ++ [(src.val, s.part.dev.rdP p .ICU_SRC_LEVEL src)] } ∧
      (∀ e, e ≠ c → d.core p e = s.part.dev.core p e) ∧ ∀ e, d.core p.other e = s.part.dev.core p.other e)

/-- R456: delivery outside an entry window writes pc and CSW into the frame of the next depth and nothing else in memory, sets LEVEL and
goes to the source's vector, VBASE + 16 × source. While racking runs, a frame in a RACKED line waits (R285). -/
def Obligations.InterruptEntry : Prop :=
  ∀ (p : Plane) (c : Fin 10) (x : Nat × Nat) (s : State), s.part.dev.coreActive p c = true → s.memWf = true →
    let d0 := s.part.dev
    let k := d0.core p c
    k.csw.getLsbD 1 = true → k.csw.getLsbD 3 = false → bestClaim (k.csw.toNat / 256 % 16) k.claims = some x → k.entryWin = none →
    k.depth < 15 → x.2 < 16 →
    (rackHolds d0 c (d0.rdP p .ICU_CORE_FBASE c + 8 * (k.depth + 1)) 8 = true → RunsDev (.interruptDelivery p c) s (fun d => d = d0)) ∧
    (rackHolds d0 c (d0.rdP p .ICU_CORE_FBASE c + 8 * (k.depth + 1)) 8 = false → Runs (.interruptDelivery p c) s (fun q =>
      s.part.mems.onlyLoc q.mems p c (fun m m' => m.stores m' (d0.rdP p .ICU_CORE_FBASE c + 8 * (k.depth + 1)) 8
        (k.csw ++ k.pc).toNat) ∧
      q.dev.core p c = { k with
        depth := k.depth + 1, step := false, claims := k.claims.filter (fun y => y != x), entryWin := some x,
        csw := (k.csw &&& 0xFFFFF0FF) ||| (BitVec.ofNat 32 x.2 <<< 8),
        pc := BitVec.ofNat 32 (d0.rdP p .ICU_VBASE * 8192 + 16 * x.1) }))

/-- R450, R452: a permitted post to an enabled task with room enters its queue as the newest activation; without room a post to another
core's task stalls the core; one that is not permitted counts in OVF. A stalled post enters when room appears or is discarded after
64 µs; a held message enters when room appears. -/
def Obligations.TaskPosts : Prop :=
  ∀ (p : Plane) (c : Fin 10) (t : Fin 1024) (x : StalledPost) (a : Act) (r : List Act) (s : State),
    let d0 := s.part.dev
    let k := d0.core p c
    let td := d0.taskDesc t
    let open_ := bit td.posters c = true ∧ td.qdepth ≠ 0
    (d0.coreActive p c = true → open_ → d0.taskParked p t = false → d0.rdP p .TSK_TASK_EN t ≠ 0 → d0.taskRoom p t = true →
      RunsDev (.tskPost p c t) s (fun d => (d.tsk p).q.get t = (d0.tsk p).q.get t ++ [postAct k])) ∧
    (d0.coreActive p c = true → open_ → d0.taskParked p t = false → d0.rdP p .TSK_TASK_EN t ≠ 0 → d0.taskRoom p t = false →
      td.core ≠ c → RunsCore (.tskPost p c t) p c s (fun k k' =>
        k' = { k with stall := some { task := t, act := postAct k, since := d0.time.tr } })) ∧
    (d0.coreActive p c = true → ¬open_ → RunsDev (.tskPost p c t) s (fun d =>
      (d.tsk p).q = (d0.tsk p).q ∧ d.rdP p .TSK_TASK_OVF t = min (d0.rdP p .TSK_TASK_OVF t + 1) 65535)) ∧
    (k.stall = some x → d0.taskParked p x.task = false → d0.taskRoom p x.task = true → RunsDev (.postStallEnd p c) s (fun d =>
      (d.core p c).stall = none ∧ (d.tsk p).q.get x.task = (d0.tsk p).q.get x.task ++ [x.act])) ∧
    (k.stall = some x → RunsDev (.postTimeout p c) s (fun d => (d.core p c).stall = none ∧ (d.tsk p).q = (d0.tsk p).q)) ∧
    ((d0.tsk p).held.get t = a :: r → d0.taskRoom p t = true → RunsDev (.msgRelease p t) s (fun d =>
      (d.tsk p).held.get t = r ∧ (d.tsk p).q.get t = (d0.tsk p).q.get t ++ [a]))

/-- R451: a delivered TASK_POST that the task's POSTERS let in enters the task's queue in both planes, with the host mark, the argument
and TB0 as its stamp, and its reply waits with STATUS 0. -/
def Obligations.HostTaskPost : Prop :=
  ∀ (h : MbxHdr) (t : Fin 1024) (arg : Word) (s : State), h.deliveredToPlanes s.part.dev →
    let d0 := s.part.dev
    let td := d0.taskDesc t
    bit td.posters 10 = true → td.qdepth ≠ 0 →
    (∀ p, d0.taskParked p t = false ∧ d0.rdP p .TSK_TASK_EN t ≠ 0 ∧ d0.taskRoom p t = true) →
    RunsDev (.taskPost h t arg) s (fun d => h.answers 0 0 d0.host.waiting d.host.waiting ∧
      ∀ p, (d.tsk p).q.get t = (d0.tsk p).q.get t ++ [{ t := d0.base 0, base := 0, src := 7, arg := arg.toNat, host := true }])

/-- R445 to R447: a read of TSK_TAKE makes the oldest activation of the chosen INTERRUPT-mode task current; DONE ends the current one;
a due switch saves the running context in its save area and starts the oldest activation of the chosen PREEMPT-mode task, or waits while
racking runs over that area (R285). -/
def Obligations.TaskFlow : Prop :=
  ∀ (p : Plane) (c : Fin 10) (t : Nat) (a : Act) (r : List Act) (s : State), s.part.dev.coreActive p c = true →
    let d0 := s.part.dev
    let k := d0.core p c
    (k.intTask = none → d0.chosen p c false = some t → (d0.tsk p).q.get t = a :: r → RunsDev (.tskTake p c) s (fun d =>
      d.core p c = { k with intTask := some t, intAct := a } ∧ (d.tsk p).q.get t = r)) ∧
    (k.intTask ≠ none → RunsDev (.tskDone p c) s (fun d => d.core p c = { k with intTask := none, intAct := {} })) ∧
    (d0.switchDue p c = some t → rackHolds d0 c (d0.saveArea p c) 0x110 = true → RunsDev (.preemptSwitch p c) s (fun d => d = d0)) ∧
    (d0.switchDue p c = some t → rackHolds d0 c (d0.saveArea p c) 0x110 = false → (d0.tsk p).saved.get t = none →
      (d0.tsk p).q.get t = a :: r → Runs (.preemptSwitch p c) s (fun q =>
        q.mems = s.part.mems.setLoc p c (saveCtx k (d0.saveArea p c) (s.part.mems.loc p c)) ∧
        (q.dev.core p c).curTask = some t ∧ (q.dev.core p c).curAct = a ∧
        (q.dev.core p c).pc = BitVec.ofNat 32 ((d0.taskDesc t).entry / 4 * 4) ∧ (q.dev.tsk p).q.get t = r))

/-- R453: ARM takes the timer's configuration and arms it, DISARM disarms it, and an armed timer that expires counts, ONCE disarming and
PERIODIC moving on by its period. -/
def Obligations.Timers : Prop :=
  ∀ (who : Actor) (t : Fin 64) (cfg : Fin 16) (q : Plane) (s : State),
    let d0 := s.part.dev
    let b := cfg.val % 8
    let at_ (q : Plane) := t96 (d0.rdP q .TSK_TMR_T_NS t) (d0.rdP q .TSK_TMR_T_SL t) (d0.rdP q .TSK_TMR_T_SEC_HI t)
      (d0.rdP q .TSK_TMR_T_FRAC t)
    let per (q : Plane) := d0.rdP q .TSK_TMR_PER t * nsUnit + d0.rdP q .TSK_TMR_PERF_PER_FRAC t
    (d0.baseState b ≠ 0 →
      (∀ q, who.actsIn d0 q → d0.rdP q .TSK_TMR_CTL_ARMED t = 0 ∧ (cfg.val < 8 → d0.base b + 1000 * nsUnit ≤ at_ q) ∧
        (8 ≤ cfg.val → d0.rdP q .TSK_TMR_PER t ≠ 0)) →
      RunsDev (.timerArm who t cfg) s (fun d => ∀ q, who.actsIn d0 q → d.rdP q .TSK_TMR_CTL_ARMED t = 1 ∧
        d.tmr q t = { base := b, periodic := decide (8 ≤ cfg.val), t0 := at_ q, per := per q,
                      next := if cfg.val < 8 then at_ q else gridFrom (at_ q) (per q) (d0.base b) })) ∧
    (who.actsIn d0 q → RunsDev (.timerDisarm who t cfg) s (fun d => d.rdP q .TSK_TMR_CTL_ARMED t = 0)) ∧
    (d0.rdP q .TSK_TMR_CTL_ARMED t ≠ 0 → reachInstant (d0.tmr q t).base (d0.tmr q t).next d0 = none →
      RunsDev (.timerExpiry q t) s (fun d => d = d0)) ∧
    (d0.rdP q .TSK_TMR_CTL_ARMED t ≠ 0 → (reachInstant (d0.tmr q t).base (d0.tmr q t).next d0).isSome = true → RunsDev (.timerExpiry q t) s (fun d =>
      d.rdP q .TSK_TMR_STAT_COUNT t = (d0.rdP q .TSK_TMR_STAT_COUNT t + 1) % 65536 ∧
      d.rdP q .TSK_TMR_CTL_ARMED t = (if (d0.tmr q t).periodic then d0.rdP q .TSK_TMR_CTL_ARMED t else 0) ∧
      d.tmr q t = (if (d0.tmr q t).periodic then { d0.tmr q t with next := (d0.tmr q t).next + (d0.tmr q t).per } else d0.tmr q t)))

/-! ### Memory and power -/

/-- R474, R476: a request for a bank that is not locked stands until the boundary, and no bank changes yet; a bank whose zero fill ends is
no longer filling; the scrub counts a corrected error, or an uncorrectable one with the address of its line, in both views. -/
def Obligations.BanksAndScrub : Prop :=
  ∀ (who : Actor) (i : Fin 2) (w : Word) (j : Fin 16) (st : BankPwr) (p : Plane) (b : Fin 32) (a : Nat) (q : Plane) (s : State),
    let d0 := s.part.dev
    (who.actsIn d0 q → BankPwr.ofNum (w.toNat / 4 ^ j.val % 4) = some st → bankLocked d0 (16 * i + j) = false →
      RunsDev (.memBankpwr who i w) s (fun d =>
        (d.pl q).mem.bankReq.get (16 * i + j) = some st ∧ (d.pl q).mem.bank = (d0.pl q).mem.bank)) ∧
    RunsDev (.bankFillDone p b) s (fun d => b.val ∉ (d.pl p).mem.filling ∧ (d.pl p).mem.bank = (d0.pl p).mem.bank) ∧
    RunsDev (.dramScrub a .clean) s (fun d => d = d0) ∧
    (a < d0.dramUsable →
      RunsDev (.dramScrub a .single) s (fun d => d.rdP q .MEM_DRAM_ECC_CE = min (d0.rd .MEM_DRAM_ECC_CE + 1) 65535) ∧
      RunsDev (.dramScrub a .double) s (fun d => d.rdP q .MEM_DRAM_ECC_UE = min (d0.rd .MEM_DRAM_ECC_UE + 1) 65535 ∧
        d.rdP q .MEM_DRAM_UEADDR_ADDR = a / 64 * 64 % 2 ^ 32))

/-- R482, R485, R486: while no pace fault is due, a window in RUN, HOLD or IDLE shows the pace of the slowest ring, 1024 × laps / 1000 where the
field holds it, its lowest value and whether it is at least 1.00; below a margin of 5 % the governor goes to VMAX at once, and between 15 % and 35 % it
holds VCMD. -/
def Obligations.PaceWindows : Prop :=
  ∀ (laps : List Nat) (m : Nat) (s : State), laps.length = 16 → m ∈ laps → (∀ x ∈ laps, m ≤ x) →
    let d0 := s.part.dev
    let pace := m * 1024 / 1000
    let v := d0.rd .PWR_AVS_VCMD
    d0.ladder ≤ 2 → d0.rd .SYS_STATE_STAGE ≠ 0 → d0.pwr.paceFault = false → d0.rd .PWR_AVS_AVS_ERR = 0 →
    d0.rd .PWR_AVS_VMIN ≤ v → v ≤ d0.rd .PWR_AVS_VMAX → d0.rd .PWR_AVS_VMAX < 256 → (m < 1000 → v ≠ d0.rd .PWR_AVS_VMAX) →
    RunsDev (.paceWindow laps) s (fun d =>
      (m < 4000 → d.rd .PWR_PACE = pace ∧ d.rd .PWR_PACE_LOWEST = min (d0.rd .PWR_PACE_LOWEST) pace % 4096) ∧
      d.rd .SYS_STATE_PACE_OK = (if 1000 ≤ m then 1 else 0) ∧
      (95 * m < 100000 → d.rd .PWR_AVS_VCMD = d0.rd .PWR_AVS_VMAX) ∧
      (100000 ≤ 85 * m → 65 * m ≤ 100000 → d.rd .PWR_AVS_VCMD = v))

/-- R489: a write of VMIN stands at any time, one of VMAX while every axis is in STO; a write that would put VMIN above VMAX, or either value
outside 120 to 180, changes nothing. Beside it of R482, R488, R491: a temperature reading and its greatest value; a transaction that
succeeds ends the run of failures, the third failure in a row is AVS_FAULT and stays pending until a retry succeeds; CLR resets LOWEST and
TJ_MAX. -/
def Obligations.VoltageAndTemperature : Prop :=
  ∀ (tj : Int) (write ok : Bool) (w : Word) (s : State),
    let d0 := s.part.dev
    let lo := w.toNat / 256 % 256
    let hi := w.toNat / 65536 % 256
    let top := if allSto d0 then hi else d0.rd .PWR_AVS_VMAX
    (d0.rd .SYS_STATE_STAGE ≠ 0 → d0.rd .SYS_LADDER_STATE ≤ 3 → -2048 ≤ tj → tj ≤ 2047 → RunsDev (.tempReading tj) s (fun d => d.rd .PWR_TEMP_TJ = (tj % 4096).toNat ∧
      (tj ≤ signed 12 (d0.rd .PWR_TEMP_TJ_MAX) → d.rd .PWR_TEMP_TJ_MAX = d0.rd .PWR_TEMP_TJ_MAX % 4096) ∧
      (signed 12 (d0.rd .PWR_TEMP_TJ_MAX) ≤ tj → d.rd .PWR_TEMP_TJ_MAX = (tj % 4096).toNat))) ∧
    RunsDev (.avsTransaction write true) s (fun d => d.pwr.avsFails = 0 ∧ d.pwr.avsPending = false) ∧
    (d0.pwr.avsFails = 2 → d0.pwr.avsPending = false → RunsDev (.avsTransaction write false) s (fun d =>
      d.rd .PWR_AVS_AVS_ERR = 1 ∧ d.pwr.avsPending = true ∧ d.rd .SYS_STATE_LAST_FAULT = 0xC003)) ∧
    (d0.rd .PWR_AVS_AVS_ERR = 1 → d0.pwr.avsPending = true → RunsDev (.avsRetry ok) s (fun d => d.pwr.avsPending = !ok)) ∧
    (120 ≤ lo → lo ≤ 180 → 120 ≤ hi → hi ≤ 180 → lo ≤ top → RunsDev (.pwrAvsWrite w) s (fun d =>
      d.rd .PWR_AVS_VMIN = lo ∧ d.rd .PWR_AVS_VMAX = top % 256)) ∧
    (lo < 120 ∨ 180 < lo ∨ hi < 120 ∨ 180 < hi ∨ top < lo → RunsDev (.pwrAvsWrite w) s (fun d => d = d0)) ∧
    RunsDev .pwrClr s (fun d => d.rd .PWR_PACE_LOWEST = 0xFFF ∧ d.rd .PWR_TEMP_TJ_MAX = 0x800)

/-- R494: a request for SLEEP from IDLE, by a write of TARGET or by LADDER_SET, is accepted while no safety output is on and no shared ring is
led, and refused with reason 4 while one is on; no state changes at once. Of the cores only CC0 requests. -/
def Obligations.LadderRequests : Prop :=
  ∀ (who : Actor) (w : Word) (h : MbxHdr) (s : State),
    let d0 := s.part.dev
    let entitled := who = .host ∨ [Plane.A, Plane.B].any (fun p => who == .core p 8 && d0.coreActive p 8) = true
    let accepted (d : Dev) : Prop := d.rd .SYS_LADDER_TARGET = 3 ∧ d.pwr.target = some 3 ∧ d.rd .SYS_LADDER_STATE = 2
    let refused (d : Dev) : Prop := d.rd .SYS_LADDER_REFUSED = 1 ∧ d.rd .SYS_LADDER_REASON = 4 ∧ d.pwr.target = none ∧
      d.rd .SYS_LADDER_STATE = 2
    d0.rd .SYS_LADDER_STATE = 2 → d0.pwr.busyTo = none → d0.pwr.target = none →
    (d0.rd .SAF_SO_ON = 0 → leadsShared d0 = false →
      (entitled → w.toNat / 8 % 8 = 3 → RunsDev (.ladderTarget who w) s accepted) ∧
      (h.deliveredTo d0 → RunsDev (.ladderSet h 3) s (fun d => accepted d ∧ h.answers 0 0 d0.host.replies d.host.replies))) ∧
    (d0.rd .SAF_SO_ON ≠ 0 →
      (entitled → w.toNat / 8 % 8 = 3 → RunsDev (.ladderTarget who w) s refused) ∧
      (h.deliveredTo d0 → RunsDev (.ladderSet h 3) s (fun d => refused d ∧ h.answers 0xC021 0 d0.host.replies d.host.replies))) ∧
    (∀ p c, c ≠ 8 → RunsDev (.ladderTarget (.core p c) w) s (fun d => d = d0))

/-- R495, R499 to R502: 1 ms after arrival the descent goes on, from SLEEP to DORMANT, where the C die loses its memories and the DRAM
keeps its own, and from DORMANT to KEEP with PWR_EN_MAIN low; a wake in SLEEP is shown and starts an ascent to WAKE_TO; when the work of
an upward step completes the state is the one above. -/
def Obligations.LadderSteps : Prop :=
  ∀ (src : Fin 20) (pa pb : Bool) (s : State),
    let d0 := s.part.dev
    let st := d0.rd .SYS_LADDER_STATE
    (d0.descends = true → d0.pwr.later = none →
      (st = 3 → Runs .ladderDescentTimer s (fun q => q.dev.rd .SYS_LADDER_STATE = 4 ∧
        q.mems = { dram := s.part.mems.dram, flash := s.part.mems.flash })) ∧
      (st = 4 → RunsDev .ladderDescentTimer s (fun d => d.rd .SYS_LADDER_STATE = 5 ∧ d.rd .SYS_STATE_LADDER = 5 ∧
        d.boot.pwrEn = false))) ∧
    (st = 3 → wakeEnabled src d0 = true → d0.pwr.busyTo = none → d0.pwr.target = none → d0.rd .SYS_LADDER_WAKE_TO < 3 →
      RunsDev (.wake src) s (fun d => bit (d.rd .PWR_WAKE_STAT_CAUSE) src = true ∧ d.rd .PWR_WAKE_STAT_FROM = 3 ∧
        d.rd .SYS_LADDER_BUSY = 1 ∧ d.pwr.busyTo = some 2 ∧ d.pwr.target = some (d0.rd .SYS_LADDER_WAKE_TO))) ∧
    (d0.pwr.later = none →
      (st = 3 → d0.pwr.busyTo = some 2 → RunsDev (.ascentStepDone pa pb) s (fun d =>
        d.rd .SYS_LADDER_STATE = 2 ∧ d.rd .SYS_STATE_LADDER = 2)) ∧
      (st = 4 → d0.pwr.busyTo = some 3 → Runs (.ascentStepDone pa pb) s (fun q =>
        q.dev.rd .SYS_LADDER_STATE = 3 ∧ q.dev.rd .SYS_STATE_LADDER = 3)))

/-! ### Host link -/

/-- R509, R511, R515, R519: a doorbell shows the write pointer and, once DRAM is trained, makes commands readable behind those of its ring
(R506); a write of HST_RPL_RP takes the replies read off the ring, and replies that waited follow in their order; a negotiation sets ACT to
min(REQ, MAX) while no command waits in either ring, and is ignored otherwise; KICK ends a time-out; a time-out sets EXPIRED and files a STOP
for every arm, with the block it moves in, and every auxiliary axis of a group in both planes. -/
def Obligations.HostLinkRegisters : Prop :=
  ∀ (u : Bool) (n : Nat) (cmds : List MbxHdr) (w : Word) (t : BitVec 16) (s : State),
    let d0 := s.part.dev
    let own := cmds.map (fun h => { h with u := u })
    let wp (d : Dev) : Nat := if u then d.rd .HST_CMDU_WP else d.rd .HST_CMDB_WP
    (d0.rd .HST_STATUS_MBX_READY ≠ 0 → (∀ x ∈ d0.host.ringB ++ d0.host.ringU ++ cmds, x.code ≠ 0) → n < 2 ^ 20 →
      RunsDev (.doorbell u n cmds) s (fun d =>
        d.host.ringU = d0.host.ringU ++ (if u then own else []) ∧ d.host.ringB = d0.host.ringB ++ (if u then [] else own) ∧
        wp d = n / 8 * 8)) ∧
    (d0.rd .HST_STATUS_MBX_READY = 0 → n < 2 ^ 20 → RunsDev (.doorbell u n cmds) s (fun d => d.host = d0.host ∧ wp d = n / 8 * 8)) ∧
    (n < 2 ^ 19 → RunsDev (.rplRp n) s (fun d => d.rd .HST_RPL_RP = n / 8 * 8 ∧
      d.host.replies ++ d.host.late =
        d0.host.replies.drop (((n / 8 * 8 + 2 ^ 19 - d0.rd .HST_RPL_RP) % 2 ^ 19) / 32) ++ d0.host.late ∧
      (d0.host.late = [] → d.host.late = []))) ∧
    (d0.host.ringB = [] → d0.host.ringU = [] → d0.rd .HST_PROTO_MAX < 256 → RunsDev (.hstProto w) s (fun d =>
      d.rd .HST_PROTO_REQ = w.toNat % 256 ∧ d.rd .HST_PROTO_ACT = min (w.toNat % 256) (d0.rd .HST_PROTO_MAX))) ∧
    (d0.host.ringB ≠ [] ∨ d0.host.ringU ≠ [] → RunsDev (.hstProto w) s (fun d => d = d0)) ∧
    RunsDev (.kick t) s (fun d => d.host.timedOut = false ∧ (t.toNat = 0 ∨ 10 ≤ t.toNat → d.rd .HST_WDOG_WDOG_T = t.toNat)) ∧
    (d0.rd .HST_WDOG_WDOG_T ≠ 0 → d0.host.timedOut = false → RunsDev .hostTimeout s (fun d =>
      d.rd .HST_WDOG_EXPIRED = 1 ∧ d.host.timedOut = true ∧
      ∀ p, (∀ e ∈ d0.pat.arms, e.1 < 128 → ∀ m ∈ d0.armGroup p e.1, (d.arm p m).request.isSome = true) ∧
        (∀ e ∈ d0.pat.groups, ∀ m ∈ d0.groupAxes e.1, (d.aux p m).request.isSome = true))) ∧
    (d0.rd .HST_WDOG_WDOG_T = 0 ∨ d0.host.timedOut = true → RunsDev .hostTimeout s (fun d => d = d0))

/-- R506, R507, R509, R511, R515, R519, R520, R524: CORE_DB raises source 416 in both planes; link down shows width and generation 0, link up
shows them and raises source 417; a frame of 64 to 1,522 bytes reaches its MAC's owner. The writes of the host's pointers, of REQ with empty
rings and of KICK, and the host's time-out, complete: each shows what was written, or EXPIRED, and leaves the fields of the other four. -/
def Obligations.HostLinkEvents : Prop :=
  ∀ (w g : Fin 4) (mac : Fin 2) (len n : Nat) (u : Bool) (cmds : List MbxHdr) (q : Word) (t : BitVec 16) (s : State),
    let d0 := s.part.dev
    let keeps (d : Dev) (l : List Fld) : Prop := ∀ f ∈ [Fld.HST_CMDB_WP, .HST_CMDU_WP, .HST_RPL_RP, .HST_PROTO_REQ, .HST_PROTO_ACT,
      .HST_WDOG_WDOG_T, .HST_WDOG_EXPIRED], f ∉ l → d.rd f = d0.rd f
    RunsDev .coreDb s (fun d => ∀ q, d.rdP q .ICU_SRC_PEND 416 = 1) ∧
    (d0.host.linkUp = true → RunsDev .pcieLinkDown s (fun d =>
      d.host.linkUp = false ∧ d.rd .HST_STATUS_LINK_W = 0 ∧ d.rd .HST_STATUS_LINK_GEN = 0)) ∧
    (d0.host.linkUp = false → d0.rd .SYS_STATE_STAGE ≠ 0 → d0.rd .SYS_LADDER_STATE ≤ 3 → RunsDev (.pcieLinkUp w g) s (fun d =>
      d.host.linkUp = true ∧ d.rd .HST_STATUS_LINK_W = w ∧ d.rd .HST_STATUS_LINK_GEN = g ∧ ∀ q, d.rdP q .ICU_SRC_PEND 417 = 1)) ∧
    (64 ≤ len → len ≤ 1522 → RunsDev (.ethFrameRx mac len) s (fun d =>
      d.host.frames = d0.host.frames ++ [⟨mac, len, d0.pat.ethCell.contains mac.val⟩])) ∧
    (n < 2 ^ 20 → RunsDev (.doorbell u n cmds) s (fun d => d.rd (if u then .HST_CMDU_WP else .HST_CMDB_WP) = n / 8 * 8 ∧
      keeps d [if u then .HST_CMDU_WP else .HST_CMDB_WP])) ∧
    (n < 2 ^ 19 → RunsDev (.rplRp n) s (fun d => d.rd .HST_RPL_RP = n / 8 * 8 ∧ keeps d [.HST_RPL_RP])) ∧
    (d0.host.ringB = [] → d0.host.ringU = [] → RunsDev (.hstProto q) s (fun d => d.rd .HST_PROTO_REQ = q.toNat % 256 ∧
      keeps d [.HST_PROTO_REQ, .HST_PROTO_ACT])) ∧
    (10 ≤ t.toNat → RunsDev (.kick t) s (fun d => d.rd .HST_WDOG_WDOG_T = t.toNat ∧ d.host = { d0.host with timedOut := false } ∧
      keeps d [.HST_WDOG_WDOG_T])) ∧
    (d0.rd .HST_WDOG_WDOG_T ≠ 0 → d0.host.timedOut = false → RunsDev .hostTimeout s (fun d => d.rd .HST_WDOG_EXPIRED = 1 ∧
      keeps d [.HST_WDOG_EXPIRED]))

/-- R517: a host write through BAR4 that lies in the host window and in usable DRAM writes its bytes and nothing else; one that does not
is dropped. -/
def Obligations.HostWindow : Prop :=
  ∀ (o : Nat) (bs : List Byte) (s : State), s.memWf = true → s.part.dev.rd .HST_STATUS_MBX_READY ≠ 0 →
    let d0 := s.part.dev
    let a := d0.rd .HST_WIN_BASE * 4096 + o
    let w := d0.pat.mem.hostWin
    (w.base ≤ a → a + bs.length ≤ w.base + w.size → a + bs.length ≤ d0.dramUsable → Runs (.bar4Write o bs) s (fun q =>
      q.dev = d0 ∧ q.mems = { s.part.mems with dram := q.mems.dram } ∧
      ∀ x, q.mems.dram.byte x = if a ≤ x ∧ x < a + bs.length then bs.getD (x - a) 0 else s.part.mems.dram.byte x)) ∧
    (a < w.base ∨ w.base + w.size < a + bs.length → d0.host.winRefusedAt = none → RunsDev (.bar4Write o bs) s (fun d =>
      d.host.winRefusedAt = some d0.time.tr))

/-- R53, R56, R413, R521 to R523: a nonce read shows a new nonce, a free value; DEBUG_UNLOCK unlocks with a valid token under presence, and
not with a token that is not valid; DEBUG_LOCK locks; the debug port halts and steps a core while unlocked, with every axis in STO, and
does nothing while locked; EXTEST is loaded under those conditions with every output off, and refused while locked; a note of up to
12 characters is one record of writer 8. -/
def Obligations.DebugAndNotes : Prop :=
  ∀ (h : MbxHdr) (tok : DbgToken) (text : List Nat) (op : DebugOp) (j : JtagInstr) (p : Plane) (c : Fin 10) (s : State),
    let d0 := s.part.dev
    let locked := d0.rd .HST_DBG_UNLOCKED = 0
    RunsDev .nonceRead s (fun d =>
      d.host.nonce = (Config.nonce d0.free).toNat ∧ d.free = d0.free + 1 ∧ d.host.nonceGiven = true ∧
      d.rd .HST_DBG_NONCE_LO = d.host.nonce % 2 ^ 32 ∧ d.rd .HST_DBG_NONCE_HI = d.host.nonce / 2 ^ 32 % 2 ^ 32) ∧
    (h.deliveredTo d0 → tokenOk s.vault tok d0 = true → d0.present = true → RunsDev (.debugUnlock h tok) s (fun d =>
      d.rd .HST_DBG_UNLOCKED = 1 ∧ d.host.nonceGiven = false ∧ h.answers 0 0 d0.host.replies d.host.replies)) ∧
    (h.deliveredTo d0 → tokenOk s.vault tok d0 = false → RunsDev (.debugUnlock h tok) s (fun d =>
      d.rd .HST_DBG_UNLOCKED = d0.rd .HST_DBG_UNLOCKED ∧ h.answers Code.DBG_REFUSED.num 0 d0.host.replies d.host.replies)) ∧
    (h.deliveredTo d0 → RunsDev (.debugLock h) s (fun d =>
      d.rd .HST_DBG_UNLOCKED = 0 ∧ h.answers 0 0 d0.host.replies d.host.replies)) ∧
    (locked → RunsDev (.debugPortAccess op) s (fun d => d = d0)) ∧
    (¬locked → (d0.core p c).halted = true → RunsDev (.debugPortAccess (.step p c)) s (fun d =>
      d.core p c = { d0.core p c with step := true })) ∧
    (¬locked → allSto d0 = true → (d0.core p c).halted = false → RunsDev (.debugPortAccess (.halt p c)) s (fun d =>
      d.core p c = { d0.core p c with halted := true })) ∧
    RunsDev (.jtagInstruction .idcode) s (fun d => d = { d0 with boot := { d0.boot with jtag := .idcode } } ∧ d.jtagData = some 0x08064C3B) ∧
    (d0.rd .HST_DBG_UNLOCKED = 1 → allSto d0 = true → d0.rd .SAF_SO_ON = 0 → RunsDev (.jtagInstruction j) s (fun d =>
      d.boot.jtag = j)) ∧
    (locked → RunsDev (.jtagInstruction .extest) s (fun d => d = d0)) ∧
    (h.deliveredTo d0 → text ≠ [] → text.length ≤ 12 → (∀ x ∈ text, x < 256) → d0.cellar.staging.length < 8192 →
      RunsDev (.cellarNote h text) s (fun d => h.answers 0 0 d0.host.replies d.host.replies ∧
        ∃ r, d.cellar.staging = d0.cellar.staging ++ [r] ∧ r.writer = 8 ∧ r.code = Code.HOST_NOTE.num ∧
          r.payload = text.map (fun (n : Nat) => (n : Int)) ∧ (r.t, r.base) = d0.stamp))

/-! ### Start-up, the Pattern and the keys -/

/-- R70, R311, R532, R534: power-up and reset leave no memory but the flash and stage 0 with reset held, TB3 kept only by a reset; the
release starts TR and stage FUSES; the fuses are shown and stage DRAM follows, then the trained DRAM with its size, the mailbox and stage
SELECT; without a candidate the stage is NOPAT, with a first candidate that passes its Pattern and local memories are distributed and
TASTE follows; when all pass, RING. -/
def Obligations.StartUp : Prop :=
  ∀ (pin rail : Bool) (id size : Fin 16) (i ed : Nat) (m : Image) (l : List (Nat × Image)) (s : State),
    let d0 := s.part.dev
    let blank : Mems := { flash := s.part.mems.flash }
    let stage := d0.rd .SYS_STATE_STAGE
    Runs .powerUp s (fun q => q.mems = blank ∧ q.dev.boot.inReset = true ∧ q.dev.boot.pwrEn = true ∧ q.dev.boot.vcoreEn = true ∧
      q.dev.boot.pgood = true ∧ (q.dev.time.bases.get 3).acc = 0 ∧ q.dev.rd .SYS_RSTCAUSE_POR = 1 ∧ q.dev.rd .SYS_STATE_STAGE = 0) ∧
    ((pin || rail) = true → Runs (.reset pin rail id) s (fun q => q.mems = blank ∧ q.dev.boot.inReset = true ∧
      (q.dev.time.bases.get 3).acc = (d0.time.bases.get 3).acc ∧ q.dev.rd .SYS_RSTCAUSE_PIN = b2n pin ∧
      q.dev.rd .SYS_RSTCAUSE_RAIL = b2n rail ∧ q.dev.rd .SYS_STATE_STAGE = 0)) ∧
    RunsDev .vkeepLoss s (fun d => (d.time.bases.get 3).acc = 0 ∧ d.rd .SAF_ED_LOCK = d0.rd .SAF_ED_LOCK ∧ d.boot.porPend = true) ∧
    (d0.boot.inReset = true → RunsDev .resetRelease s (fun d =>
      d.boot.inReset = false ∧ d.time.tr = 0 ∧ d.time.trRun = true ∧ d.rd .SYS_STATE_STAGE = 1)) ∧
    (stage = 1 → RunsDev .fusesRead s (fun d => d.rd .SYS_STATE_STAGE = 2 ∧
      ∀ j, j < 4 → bit (d.rd .SEC_KEYS_PROG) j = (s.vault.slots.get j).hash.isSome ∧
        bit (d.rd .SEC_KEYS_REVOKED) j = (s.vault.slots.get j).revoked)) ∧
    (stage = 2 → RunsDev (.dramTrained size) s (fun d => d.rd .SYS_STATE_STAGE = 3 ∧ d.rd .HST_STATUS_MBX_READY = 1 ∧
      ∀ p, d.rdP p .MEM_DRAM_STAT_SIZE = size ∧ d.rdP p .MEM_DRAM_STAT_TRAINED = 1)) ∧
    (stage = 3 ∨ stage = 4 → d0.boot.keepExit = false →
      (loadCandidates s.part.mems d0 = [] → RunsDev .patternLoaded s (fun d => d.rd .SYS_STATE_STAGE = 15 ∧ d.boot.active = none)) ∧
      (loadCandidates s.part.mems d0 = (i, m) :: l → slotCheck s.vault s.part.mems d0 (i, m) = none → Runs .patternLoaded s (fun q =>
        q.dev.rd .SYS_STATE_STAGE = 5 ∧ q.dev.pat = m.pattern ∧ q.dev.boot.active = some i ∧
        q.mems = { s.part.mems with a := loadLocals m.pattern s.part.mems.a, b := loadLocals m.pattern s.part.mems.b }))) ∧
    (stage = 5 → d0.boot.stopped = false → d0.boot.keepExit = false → d0.boot.keepRing = false →
      d0.runs .A = true → d0.runs .B = true →
      RunsDev (.tasteDone true true true true true ed 0) s (fun d => d.rd .SYS_STATE_STAGE = 6 ∧ d.boot.fromReset = false) ∧
      RunsDev (.tasteDone true true true true false ed 0) s (fun d => d.rd .SYS_STATE_STAGE = 5 ∧ d.boot.stopped = true ∧
        d.rd .SAF_STATE_LAST_FAULT = Code.SAF_LOAD_MISMATCH.num))

/-- R59 to R62, R66, R514, R516: the first chunk of a write takes the inactive slot and begins its erase, and each flash operation that
ends leads to the next step: erased bytes, programmed bytes (a program only clears bits), the commit, or a fault that ends the write; a
flash read fills the shared window; PAT_ACTIVATE is accepted or refused by its status, PAT_SWITCH withdraws the active slot. -/
def Obligations.PatternWrites : Prop :=
  ∀ (h : MbxHdr) (ofs win len i a : Nat) (first last : Bool) (m : Image) (w : PatWrite) (x : FlashRead) (l : List FlashRead)
    (e : Nat × Image) (s : State),
    let d0 := s.part.dev
    let slot := match d0.boot.active with
      | some i => 1 - i
      | none => 0
    let busy := d0.boot.write = some w
    let here := slotBase w.slot
    (h.deliveredTo d0 → d0.boot.write = none → len % 16 = 0 → len ≤ 0x800000 → win + len ≤ 0xE00000 → len ≤ m.length →
      (last = true → len = m.length) → headerCheck s.vault d0 m = none → genBad d0 m = false →
      s.memWf = true → Runs (.patWrite h 0 win len true last m) s (fun q =>
        q.dev.boot.write = some ⟨slot, m, .erase, len, win, len, last, some (mkReply h 0 0 d0)⟩ ∧ q.dev.rd .PAT_STATUS_WRITING = 1 ∧
        (q.dev.flashSlot slot).state = .erased ∧ q.dev.host.replies = d0.host.replies ∧
        flashByte q.mems a = if slotBase slot ≤ a ∧ a < slotBase slot + 0x2000000 then 0xFF else flashByte s.part.mems a)) ∧
    (h.deliveredTo d0 → busy → (first = true ∨ w.step ≠ .wait) → RunsDev (.patWrite h ofs win len first last m) s (fun d =>
      d.boot.write = some w ∧ h.answers Code.PAT_BUSY.num 0 d0.host.replies d.host.replies)) ∧
    (busy → w.step = .erase → RunsDev (.flashOperationDone false true) s (fun d => d.boot.write = some { w with step := .program })) ∧
    (s.memWf = true → busy → w.step = .program → w.last = true → Runs (.flashOperationDone false true) s (fun q =>
      let b := here + 0x100 + (w.next - w.len)
      q.dev.boot.write = some { w with step := .record } ∧
      flashByte q.mems a = if b ≤ a ∧ a < b + w.len then
        flashByte s.part.mems a &&& s.part.mems.dram.byte (windowAt d0 w.winOfs + (a - b)) else flashByte s.part.mems a)) ∧
    (busy → w.step = .readBack → recordReads s.part.mems w = true → loadCheck s.vault d0 (readImage s.part.mems w) = none →
      genBad d0 (readImage s.part.mems w) = false → d0.present = true → RunsDev (.flashOperationDone false true) s (fun d =>
        d.boot.write = some { w with img := readImage s.part.mems w, step := .commit } ∧ d.flashSlot w.slot = d0.flashSlot w.slot)) ∧
    (busy → w.step = .readBack → recordReads s.part.mems w = false → RunsDev (.flashOperationDone false true) s (fun d =>
      d.boot.write = none ∧ d.flashSlot w.slot = d0.flashSlot w.slot ∧ d.rd .PAT_STATUS_LAST_ERR = (recordCode s.part.mems w).num)) ∧
    (s.memWf = true → busy → w.step = .commit → Runs (.flashOperationDone false true) s (fun q =>
      q.dev.boot.write = none ∧ q.dev.rd .PAT_STATUS_WRITING = 0 ∧
      q.dev.flashSlot w.slot = ⟨.committed, w.img.gen, some w.img⟩ ∧
      (a < here + 0xFC ∨ here + 0x100 ≤ a → flashByte q.mems a = flashByte s.part.mems a))) ∧
    (busy → RunsDev (.flashOperationDone false false) s (fun d => d.boot.write = none ∧ d.rd .PAT_STATUS_WRITING = 0 ∧
      d.rd .PAT_STATUS_LAST_ERR = Code.PAT_FLASH.num)) ∧
    (h.deliveredTo d0 → len ≤ 0x100000 → win + len ≤ 0xE00000 → RunsDev (.flashRead h ofs len win) s (fun d =>
      d.boot.reads = d0.boot.reads ++ [⟨ofs, len, win, mkReply h 0 0 d0⟩] ∧ d.host.replies = d0.host.replies)) ∧
    (s.memWf = true → d0.boot.reads = x :: l → Runs (.flashOperationDone true true) s (fun q =>
      let b := windowAt d0 x.winOfs
      q.dev.boot.reads = l ∧ q.mems.dram.byte a =
        if b ≤ a ∧ a < b + x.len then flashByte s.part.mems (x.ofs + (a - b)) else s.part.mems.dram.byte a)) ∧
    (h.deliveredTo d0 → activateStatus d0 = 0 → slotCandidates s.part.mems d0 = [] → Runs (.patActivate h) s (fun q =>
      q.dev.rd .SYS_STATE_STAGE = 3 ∧ h.answers 0 0 d0.host.replies q.dev.host.replies)) ∧
    (h.deliveredTo d0 → activateStatus d0 ≠ 0 → RunsDev (.patActivate h) s (fun d =>
      d.rd .SYS_STATE_STAGE = d0.rd .SYS_STATE_STAGE ∧ h.answers (activateStatus d0) 0 d0.host.replies d.host.replies)) ∧
    (h.deliveredTo d0 → d0.boot.active = some i → (slotCandidates s.part.mems d0).find? (fun y => y.1 != i) = some e →
      slotCheck s.vault s.part.mems d0 e = none → d0.present = true → Runs (.patSwitch h) s (fun q =>
        (q.dev.flashSlot i).state = .withdrawn ∧ h.answers 0 0 d0.host.replies q.dev.host.replies ∧
        (slotBase i + 0xFC ≤ a → a < slotBase i + 0x100 → flashByte q.mems a = 0))) ∧
    (h.deliveredTo d0 → d0.boot.active = none → RunsDev (.patSwitch h) s (fun d =>
      h.answers Code.PAT_NONE.num 0 d0.host.replies d.host.replies))

/-- R54 to R57, R69: a key command that nothing refuses changes its one fuse and SEC_KEYS, a refused one answers its code and changes no
fuse; presence ends at once when a pin leaves its asserted level and needs both pins; a disagreement ends it; TOILE is requested only
while every axis is in STO. -/
def Obligations.KeysAndPresence : Prop :=
  ∀ (h : MbxHdr) (slot signer : Fin 4) (hash key : Nat) (sig : List Byte) (a bn : Bool) (c : Code) (w : Word) (s : State),
    let d0 := s.part.dev
    let fuse (i : Instr) (v : Vault) (status : Nat) : Prop := ∃ q, exec i s = .next { s with vault := v, part := q } ∧
      q.mems = s.part.mems ∧ h.answers status 0 d0.host.replies q.dev.host.replies ∧
      (status = 0 → ∀ j, j < 4 → bit (q.dev.rd .SEC_KEYS_PROG) j = (v.slots.get j).hash.isSome ∧
        bit (q.dev.rd .SEC_KEYS_REVOKED) j = (v.slots.get j).revoked)
    (h.deliveredTo d0 →
      (keyProgramFault s.vault d0 slot = none →
        fuse (.keyProgram h slot hash) { slots := s.vault.slots.set slot { s.vault.slots.get slot with hash := some hash } } 0) ∧
      (keyProgramFault s.vault d0 slot = some c → fuse (.keyProgram h slot hash) s.vault c.num) ∧
      (keyRevokeFault s.vault d0 slot signer key sig = none →
        fuse (.keyRevoke h slot signer key sig) { slots := s.vault.slots.set slot { s.vault.slots.get slot with revoked := true } } 0) ∧
      (keyRevokeFault s.vault d0 slot signer key sig = some c → fuse (.keyRevoke h slot signer key sig) s.vault c.num)) ∧
    RunsDev (.presChange a bn) s (fun d => d.rd .SEC_PRESENCE_PRES_A = b2n a ∧ d.rd .SEC_PRESENCE_PRES_B_N = b2n bn ∧
      (a = true → bn = false → d.boot.presAt = some (d0.boot.presAt.getD d0.time.tr)) ∧
      (a = false ∨ bn = true → d.rd .SEC_PRESENCE_PRESENT = 0 ∧ d.boot.presAt = none)) ∧
    (d0.boot.presAt ≠ none → RunsDev .presenceAssert s (fun d => d.rd .SEC_PRESENCE_PRESENT = 1)) ∧
    (d0.rd .SEC_PRESENCE_PRES_A = d0.rd .SEC_PRESENCE_PRES_B_N → RunsDev .presDisagree s (fun d =>
      d.rd .SEC_PRESENCE_DISAGREE = 1 ∧ d.rd .SEC_PRESENCE_PRESENT = 0)) ∧
    (allSto d0 = true → RunsDev (.toileWrite w) s (fun d => d.rd .PAT_CTL_TOILE = w.toNat % 2 ∧
      d.boot.toileReq = some (w.toNat % 2 == 1))) ∧
    (allSto d0 = false → RunsDev (.toileWrite w) s (fun d => d.rd .PAT_CTL_TOILE = d0.rd .PAT_CTL_TOILE ∧
      d.boot.toileReq = d0.boot.toileReq))

/-- R53: every command completes in every state and leaves the queue as it is, and the fuses only go one way: no command undoes a programmed key or a revocation, and only the two key commands change them. -/
def Obligations.FusesKept : Prop :=
  ∀ (i : Instr) (s : State), ∃ t, exec i s = .next t ∧ t.pending = s.pending ∧ s.vault.keeps t.vault ∧
    (t.vault = s.vault ∨ ∃ h slot, (∃ hash, i = .keyProgram h slot hash) ∨ ∃ signer key sig, i = .keyRevoke h slot signer key sig)

/-! ### The cell cycle and registers -/

/-- R27, R30, R34, R40, R41, R284, R285: the boundary opens a cycle in phase 0 with its racking, unfinished axes and announcement
cleared, and nothing happens before it is due; a phase start follows the phase before it, phases 1 to 4 change no memory, and φ3 and φ5
leave no axis unfinished; racking that ends with a good check value advances the generation of both planes and changes no memory, and at
the closing boundary a shadow in step, which wrote no racked line itself, holds in its state memory what the token holder's racked
regions held when φ5 started, and its own bytes elsewhere. -/
def Obligations.CellCycle : Prop :=
  ∀ (n : Fin 6) (left : List (Plane × Nat)) (late markA markB : Bool) (words : List CoreWord) (ca cb : Option Plane) (a : Nat)
    (r : RackRun) (s : State),
    let d0 := s.part.dev
    let src := d0.active
    let dst := r.src.other
    let racked := d0.pat.mem.regions.any (fun x => x.cls == .racked && x.space == 10 && decide (x.lo ≤ a) && decide (a < x.hi))
    (d0.boundaryDue = true → Runs .boundary s (fun q => q.dev.rd .SYS_PHASE = 0 ∧ q.dev.cyc.started = true ∧
      q.dev.cyc.rackDone = false ∧ q.dev.cyc.left = [] ∧ q.dev.cyc.announced = none ∧ q.dev.cyc.openAt = d0.cyc.closeAt)) ∧
    (s.memWf = true → d0.boundaryDue = true → d0.rack = some r → r.ok = true → r.join = false → r.written = [] →
      (∀ b, b < 32 → (d0.pl dst).mem.bankReq.get b = none) → Runs .boundary s (fun q =>
        q.dev.rack = none ∧ (q.mems.pl dst).state.byte a =
          if racked then r.here.mem.state.byte a else (s.part.mems.pl dst).state.byte a)) ∧
    (d0.boundaryDue = false → RunsDev .boundary s (fun d => d = d0)) ∧
    (d0.phaseDue n = true →
      (n.val = 1 → RunsDev (.phaseStart n left late words) s (fun d => d.rd .SYS_PHASE = 1)) ∧
      (n.val ≤ 4 → RunsDev (.phaseStart n left late words) s (fun d => n.val = 3 → d.cyc.left = [])) ∧
      (n.val = 5 → Runs (.phaseStart n left late words) s (fun q => q.dev.cyc.left = []))) ∧
    (d0.phaseDue n = false → RunsDev (.phaseStart n left late words) s (fun d => d = d0)) ∧
    (d0.cyc.running = true → d0.rd .SYS_PHASE = 5 → d0.cyc.rackDone = false → d0.red.taste.on = false → d0.rack = some r →
      RunsDev (.rackComplete true markA markB ca cb) s (fun d =>
        d.cyc.rackDone = true ∧ (d.role src).gen = ((d0.role src).gen + 1) % 65536 ∧
        (d.role src.other).gen = (d.role src).gen ∧ d.rack = some { r with ok := true } ∧ d.regs = d0.regs ∧
        (d.role .A).mark = markA ∧ (d.role .B).mark = markB)) ∧
    (d0.cyc.running = true → d0.rd .SYS_PHASE = 5 → d0.cyc.rackDone = false → d0.red.taste.on = false →
      RunsDev (.rackComplete false markA markB ca cb) s (fun d =>
        d.cyc.rackDone = true ∧ d.cyc.rackOk = false ∧ (d.role src).gen = (d0.role src).gen ∧ d.rack = d0.rack)) ∧
    (d0.cyc.running = false ∨ d0.rd .SYS_PHASE ≠ 5 ∨ d0.cyc.rackDone = true →
      RunsDev (.rackComplete true markA markB ca cb) s (fun d => d = d0))

/-- R42, R43, R45 to R48: an edge is accepted with its polarity and width while no hold runs, shows its phase error, and, on a leader,
moves the terms r and p, r held within T_cell / 50; a missing edge loses the lock; SYS_SYNC_CTL enables, disables, and ignores
changes while SYNC_EN reads 1. -/
def Obligations.SyncTracking : Prop :=
  ∀ (t width : Nat) (falling : Bool) (w : Word) (s : State),
    let d0 := s.part.dev
    let target := t + d0.syncOfs
    let ph : Int := (d0.nearestSync target : Int) - target
    let lim : Int := d0.tCell * 65536 / 50
    let shown : Nat := unsigned 24 (clampI (-(2 ^ 23 - 1)) (2 ^ 23 - 1) (rdiv ph nsUnit))
    (d0.syncOn = true → 100 ≤ width → falling = (d0.rd .SYS_SYNC_CTL_EDGE == 1) → d0.sync.hold = 0 → d0.sync.acq = false →
      d0.sync.tracking = true →
      (d0.leads = false → RunsDev (.syncInEdge t width falling) s (fun d =>
        d.rd .SYS_SYNC_STAT_PH_ERR = shown ∧ d.sync.r = d0.sync.r ∧ d.sync.p = d0.sync.p ∧ d.sync.missCnt = 0)) ∧
      (d0.leads = true → absI ph * 2 ≤ d0.tCell → RunsDev (.syncInEdge t width falling) s (fun d =>
        d.rd .SYS_SYNC_STAT_PH_ERR = shown ∧ d.sync.missCnt = 0 ∧
        d.sync.r = clampI (-lim) lim (d0.sync.r - rdiv (ph * 65536) (16 * d0.syncM)) ∧
        d.sync.p = -(rdiv (ph * 65536) (4 * d0.syncM))))) ∧
    (width < 100 ∨ d0.sync.hold ≠ 0 → RunsDev (.syncInEdge t width falling) s (fun d => d = d0)) ∧
    (d0.syncOn = true → d0.leads = true → d0.sync.missArmed = true → d0.syncM + 16 ≤ d0.sync.missCnt → RunsDev .edgeMiss s (fun d =>
      d.rd .SYS_SYNC_STAT_EDGE_MISS = 1 ∧ d.rd .SYS_SYNC_STAT_SYNC_LOST = 1 ∧ d.rd .SYS_SYNC_STAT_LOCKED = 0 ∧
      d.sync.r = 0 ∧ d.sync.p = 0 ∧ d.sync.tracking = false)) ∧
    (d0.rd .SYS_SYNC_CTL_SYNC_EN = 0 → d0.rd .SYS_CYCLE_SYNC_PAT ≠ 0 → w.getLsbD 0 = true → RunsDev (.syncCtlWrite w) s (fun d =>
      d.rd .SYS_SYNC_CTL_SYNC_EN = 1 ∧ d.rd .SYS_SYNC_CTL_DIV = w.toNat / 65536 % 4096 ∧ d.sync.acq = true ∧ d.sync.r = 0)) ∧
    (d0.rd .SYS_SYNC_CTL_SYNC_EN = 1 → w.toNat / 65536 % 4096 ≠ d0.syncM ∨ w.toNat % 2 = 1 → RunsDev (.syncCtlWrite w) s (fun d =>
      d = d0)) ∧
    (d0.rd .SYS_SYNC_CTL_SYNC_EN = 1 → d0.rd .SYS_SYNC_CTL_EDGE ≤ 1 → d0.rd .SYS_SYNC_CTL_AUTO_RELOCK ≤ 1 → w.toNat % 2 = 0 →
      w.toNat / 2 % 2 = d0.rd .SYS_SYNC_CTL_EDGE → w.toNat / 4 % 2 = d0.rd .SYS_SYNC_CTL_AUTO_RELOCK →
      w.toNat / 65536 % 4096 = d0.syncM → RunsDev (.syncCtlWrite w) s (fun d =>
        d.rd .SYS_SYNC_CTL_SYNC_EN = 0 ∧ d.rd .SYS_SYNC_STAT_LOCKED = 0 ∧ d.sync.r = 0 ∧ d.sync.p = 0))

/-- R8, R9, R11, R15, R21: a write of APPLY makes the staged set pending or sets APPLY_ERR, in blocks that stage; a register write by
address sets an RW field, clears the written bits of a W1C field, changes nothing of an RO one, and stages an RWS field in both planes
while its live value stays. -/
def Obligations.RegisterWrites : Prop :=
  ∀ (who : Actor) (b : Blk) (w : Word) (a : Nat) (q : Plane) (s : State),
    let d0 := s.part.dev
    let p := b.home q
    (who.actsIn d0 q → stagedBlks.contains b = true → w.getLsbD 0 = true → RunsDev (.apply who b w) s (fun d =>
      (d.rdP p (.APPLY_PEND b) = 1 ∧ (⟨b, p, stagedOf b p d0⟩ : ApplySet) ∈ d.applySets) ∨ d.rdP p (.APPLY_ERR b) = 1)) ∧
    (stagedBlks.contains b = false → RunsDev (.apply who b w) s (fun d => d = d0)) ∧
    RunsDev (.registerWrite 0xF0038 w) s (fun d => d.rd .HST_IRQ_MASK = w.toNat % 256 ∧
      ∀ j, j < 8 → bit (d.rd .HST_IRQ_PEND) j = (bit (d0.rd .HST_IRQ_PEND) j && !(w.getLsbD (8 + j)))) ∧
    RunsDev (.registerWrite 0x104 w) s (fun d => d = d0) ∧
    (d0.rd .SYS_PHASE ≠ 5 → RunsDev (.registerWrite 0x71200 w) s (fun d =>
      d.staged .PPE_PROX_DIST_D_HOLD q 0 0 = w.toNat % 65536 ∧ d.staged .PPE_PROX_DIST_D_SLOW q 0 0 = w.toNat / 65536 ∧
      d.regs = d0.regs)) ∧
    (0x200000 ≤ a ∨ a % 4 ≠ 0 → RunsDev (.registerWrite a w) s (fun d => d = d0))

/-! ### The solver -/

/-- R121 to R124: a record written through a core's window enters the plane's queue when it names an entry of that producer and there is
room, is refused and discarded when it names none, and waits in a full queue; a waiting one enters when there is room; host records, by
window 11 or by mailbox, wait in both planes for the next φ4 start. -/
def Obligations.SolverDeltas : Prop :=
  ∀ (p : Plane) (c : Fin 10) (hi : Word) (h : MbxHdr) (l : List Delta) (y : StalledDelta) (t : List StalledDelta) (s : State),
    let d0 := s.part.dev
    let x := Delta.ofWords ((d0.slv p).lo.get c) hi.toNat
    (d0.coreActive p c = true →
      (d0.deltaRoom p = true → (∀ z ∈ (d0.slv p).stalled, z.core ≠ c.val) → deltaEntry d0 c x ≠ none → RunsDev (.slvDeltaHi (.core p c) (c.castLE (by decide)) hi) s (fun d =>
        (d.slv p).q = (d0.slv p).q ++ [(c.val, x)] ∧ d.pl p.other = d0.pl p.other)) ∧
      (d0.deltaRoom p = true → (∀ z ∈ (d0.slv p).stalled, z.core ≠ c.val) → deltaEntry d0 c x = none → RunsDev (.slvDeltaHi (.core p c) (c.castLE (by decide)) hi) s (fun d =>
        d.slv p = d0.slv p)) ∧
      (d0.deltaRoom p = false → RunsDev (.slvDeltaHi (.core p c) (c.castLE (by decide)) hi) s (fun d =>
        (d.slv p).q = (d0.slv p).q ∧ (d.slv p).stalled = (d0.slv p).stalled ++ [⟨c, c, x⟩]))) ∧
    (¬(d0.rd .SYS_PHASE = 5 ∧ d0.cyc.running = true) → (d0.slv .A).hostCnt < 64 → RunsDev (.slvDeltaHi .host 11 hi) s (fun d =>
      ∀ q, (d.slv q).hostHeld = (d0.slv q).hostHeld ++ [Delta.ofWords ((d0.slv .A).lo.get 11) hi.toNat])) ∧
    (h.deliveredToPlanes d0 → deltasFit l.length d0 = true → RunsDev (.slvDelta h l) s (fun d =>
      h.answers 0 0 d0.host.waiting d.host.waiting ∧ ∀ q, (d.slv q).mailHeld = (d0.slv q).mailHeld ++ l)) ∧
    ((d0.slv p).stalled = y :: t → y.core ≠ 10 → d0.deltaRoom p = true → deltaEntry d0 y.producer y.delta ≠ none →
      RunsDev (.deltaStallEnd p) s (fun d => (d.slv p).stalled = t ∧ (d.slv p).q = (d0.slv p).q ++ [(y.producer, y.delta)])) ∧
    ((d0.slv p).stalled = [] → RunsDev (.deltaStallEnd p) s (fun d => d = d0))

/-- R115, R125 to R127, R135: outside φ4 a done signal is held; in φ4 in state RUN the last signal of the declared producers, of a core or
of the PPE, or CUT_MAX cuts the cycle batch: its deltas leave the queue and its matrices start on a copy of their entries. A MATVEC
matrix completes with the product, a factorisation first shows its small pivot, and a batch whose matrices are complete is. -/
def Obligations.SolverBatches : Prop :=
  ∀ (p : Plane) (c : Fin 10) (id : Fin 256) (m : MatDesc) (s : State),
    let d0 := s.part.dev
    let cutNow (d : Dev) : Prop := d.rdP p .SLV_STATUS_CYC = 1 ∧ (d.slv p).cut.get 0 = true ∧
      (∀ e ∈ (d.slv p).q, ofClass d0 0 e = false) ∧
      ∀ j ∈ d0.classMats 0, (d.matSt p j).work = (d.matSt p j).ent ∧ (d.matSt p j).active = true ∧ (d.matSt p j).final = false
    let ready := d0.rd .SYS_PHASE = 4 ∧ d0.rd .SYS_LADDER_STATE = 0 ∧ (d0.slv p).cut.get 0 = false ∧ d0.classMats 0 ≠ []
    let others (n : Nat) : Prop := ∀ e ∈ d0.producers 0, e ≠ n → (d0.slv p).sig.contains (0, e) = true
    (d0.coreActive p c = true → d0.rd .SYS_PHASE ≠ 4 → RunsDev (.slvCut p c true false) s (fun d =>
      (d.slv p).sig.contains (0, c.val) = true ∧ d.slv p = { d0.slv p with sig := (d.slv p).sig })) ∧
    (d0.coreActive p c = true → ready → others c → RunsDev (.slvCut p c true false) s cutNow) ∧
    (ready → others 10 → RunsDev (.ppeSignalsCut p) s cutNow) ∧
    (ready → RunsDev (.cutMaxExpiry p 0) s (fun d => cutNow d ∧ (missing d0 p 0 ≠ [] → d.rdP p .SLV_STATUS_PROD_LATE = 1))) ∧
    (d0.rd .SYS_PHASE ≠ 4 → RunsDev (.cutMaxExpiry p 0) s (fun d => d = d0)) ∧
    (d0.matDesc id = some m → (d0.matSt p id).active = true → (d0.matSt p id).final = false → d0.inFlight p m id = true →
      d0.rd .SYS_PHASE = 4 → m.cls = 0 →
      (m.op = 6 → RunsDev (.solverMatrixComplete p id) s (fun d =>
        (d.matSt p id).final = true ∧ (d.matSt p id).iters.map (·.x) = [(matvec m (d0.matSt p id).work).1])) ∧
      (m.op ≠ 6 → (d0.matSt p id).stage = 0 → RunsDev (.solverMatrixComplete p id) s (fun d =>
        (d.matSt p id).stage = 1 ∧ (d.matSt p id).pivIdx =
          (factorise m.op m.n m.qf (d0.rdP p .SLV_MAT_TUNE_TAU_EXP id) (d0.rdP p .SLV_MAT_TUNE_REG_EXP id)
            (assemble m (d0.matSt p id).work).1).piv))) ∧
    (d0.rdP p .SLV_STATUS_TICK = 1 → batchDone d0 p 1 = true → RunsDev (.batchComplete p 1) s (fun d =>
      d.rdP p .SLV_STATUS_TICK = 2)) ∧
    (d0.rdP p .SLV_STATUS_CYC = 1 → batchDone d0 p 0 = true → RunsDev (.batchComplete p 0) s (fun d =>
      d.rdP p .SLV_STATUS_CYC = 2))

/-! ### Motion -/

/-- R73, R75, R86, R97, R106, R109 to R111, R155, R161, R190: SEG_APPEND takes the records before the first refused one and answers its
index; AUX_MOVE, MS_TABLE_LOAD, AXIS_SETPOS, MS_PARK, COUPLE, DECOUPLE and LOOP_CLEAR are taken in both planes for their boundary, or
answered with the code that refuses them; an override stands in its register. -/
def Obligations.MotionCommands : Prop :=
  ∀ (h : MbxHdr) (n : Fin 8) (m : Fin 64) (b : Fin 4) (a : Fin 128) (recs : List (List Nat)) (mv : Move) (vals : List Nat) (pos : Int)
    (who : Actor) (i : Fin 24) (v : BitVec 16) (q : Plane) (s : State),
    let d0 := s.part.dev
    let x := d0.aux d0.active (64 + m)
    let r := goodPrefix d0 n (recs.map (Seg.ofWords (d0.armSec n).joints)) 0
    let taken (d : Dev) (status index : Nat) : Prop := h.answers status index d0.host.waiting d.host.waiting
    (h.deliveredToPlanes d0 →
      (segRoom n recs.length d0 = true → d0.notCarrier d0.active n = false → RunsDev (.segAppend h n recs) s (fun d =>
        taken d (if r.2.isSome then Code.SEG_REFUSED.num else 0) (r.2.getD 0) ∧ (d.arm q n).q = (d0.arm q n).q ++ r.1)) ∧
      (segRoom n recs.length d0 = true → d0.notCarrier d0.active n = true → RunsDev (.segAppend h n recs) s (fun d =>
        taken d Code.COUPLE_REFUSED.num 0 ∧ d.arm q n = d0.arm q n)) ∧
      (moveOk mv = true → d0.rdP d0.active .PPE_AX_STAT_POS_LOST m ≠ 1 → RunsDev (.auxMove h m mv) s (fun d =>
        taken d 0 0 ∧ (d.aux q (64 + m)).newMove = some (afterPending (d0.aux q (64 + m)).newMove mv))) ∧
      (moveOk mv = false → RunsDev (.auxMove h m mv) s (fun d =>
        taken d Code.SEG_REFUSED.num 0 ∧ d.aux q (64 + m) = d0.aux q (64 + m))) ∧
      RunsDev (.msTableLoad h b vals) s (fun d => taken d 0 0 ∧
        Sparse.find (d.pl q).ppe.tablesNew b = some (vals.map (· % 65536))) ∧
      ((d0.auxSec (64 + m)).stepper = true → x.still = true → RunsDev (.axisSetpos h m pos) s (fun d =>
        taken d 0 0 ∧ (d.aux q (64 + m)).setPos = some pos ∧ d.rdP q .PPE_AX_STAT_POS_LOST m = 0)) ∧
      ((d0.auxSec (64 + m)).stepper = true → x.still = false → RunsDev (.axisSetpos h m pos) s (fun d =>
        taken d Code.SETPOS_MOVING.num 0 ∧ d.aux q (64 + m) = d0.aux q (64 + m))) ∧
      ((d0.auxSec (64 + m)).stepper = true → (d0.auxSec (64 + m)).out = true → RunsDev (.msPark h m) s (fun d =>
        taken d 0 0 ∧ d.rdP q .PPE_AX_STAT_PARKED m = 1)) ∧
      ((d0.auxSec (64 + m)).stepper = false →
        RunsDev (.msPark h m) s (fun d => taken d Code.NOT_STEPPER.num 0) ∧
        RunsDev (.axisSetpos h m pos) s (fun d => taken d Code.NOT_STEPPER.num 0)) ∧
      (coupleOk d0.active b (d0.meas d0.active) d0 = true → RunsDev (.couple h b) s (fun d =>
        taken d 0 0 ∧ ((d.pl q).ppe.blks.get b).want = true)) ∧
      (coupleOk d0.active b (d0.meas d0.active) d0 = false → RunsDev (.couple h b) s (fun d =>
        taken d Code.COUPLE_REFUSED.num 0)) ∧
      (decoupleOk d0.active b d0 = true → RunsDev (.decouple h b) s (fun d =>
        taken d 0 0 ∧ ((d.pl q).ppe.blks.get b).decoup = 1)) ∧
      (decoupleOk d0.active b d0 = false → RunsDev (.decouple h b) s (fun d => taken d Code.COUPLE_REFUSED.num 0)) ∧
      (2 ≤ (d0.lax d0.active a).zeroFor → d0.rdP d0.active .LPE_AX_STAT_STALE_CNT a = 0 → RunsDev (.loopClear h a) s (fun d =>
        taken d 0 0 ∧ (d.lax q a).clearPend = true)) ∧
      ((d0.lax d0.active a).zeroFor < 2 → RunsDev (.loopClear h a) s (fun d =>
        taken d Code.CLEAR_MOVING.num 0 ∧ d.lax q a = d0.lax q a))) ∧
    (who.actsIn d0 q → RunsDev (.ppeOvr who i v) s (fun d => d.rdP q .PPE_OVR i = v.toNat))

/-- R89, R91 to R93, R158: STOP, QSTOP and ABORT file a stop request, merged with one that waits, for every arm that acts with the target
or every axis of the group; ABORT clears GO at once, or is refused; RESUME of arms that all may resume sets GO and withdraws the
request, and answers the code that refuses it otherwise. -/
def Obligations.MotionStops : Prop :=
  ∀ (h : MbxHdr) (who : Actor) (n : Fin 8) (g : Fin 16) (q : Plane) (k : Nat) (s : State),
    let d0 := s.part.dev
    let arm : Fin 24 := n.castLE (by decide)
    let group : Fin 24 := ⟨8 + g, by omega⟩
    let team := d0.armGroup q n
    let filed (c : StopCause) (quick : Bool) (d : Dev) : Prop :=
      k ∈ team → (d.arm q k).request = mergeReq (d0.arm q k).request (some (askStop c quick))
    let filedAux (c : StopCause) (quick : Bool) (d : Dev) : Prop :=
      k ∈ d0.groupAxes g → (d.aux q k).request = mergeReq (d0.aux q k).request (some (askStop c quick))
    let answered (d : Dev) (status index : Nat) : Prop := h.answers status index d0.host.waiting d.host.waiting
    let resumed (d : Dev) : Prop := k ∈ team → (d.arm q k).resume = true ∧
      (d.arm q k).request = (d0.arm q k).request.filter StopReq.stays ∧ d.rdP q .PPE_ARM_STAT_GO k = 1
    let aborted (d : Dev) : Prop := filed .abort false d ∧ (k ∈ team → d.rdP q .PPE_ARM_STAT_GO k = 0)
    (h.deliveredToPlanes d0 →
      RunsDev (.stop (.mbx h) arm) s (fun d => answered d 0 0 ∧ filed .stop false d) ∧
      RunsDev (.qstop (.mbx h) arm) s (fun d => answered d 0 0 ∧ filed .qstop true d) ∧
      RunsDev (.stop (.mbx h) group) s (fun d => answered d 0 0 ∧ filedAux .stop false d) ∧
      RunsDev (.qstop (.mbx h) group) s (fun d => answered d 0 0 ∧ filedAux .qstop true d) ∧
      ((∀ e ∈ team, (resumeStatus q e d0).1 = 0) → RunsDev (.resume (.mbx h) arm) s resumed) ∧
      (team = [n.val] → d0.active = q → (resumeStatus q n d0).1 ≠ 0 → RunsDev (.resume (.mbx h) arm) s (fun d =>
        answered d (resumeStatus q n d0).1 (resumeStatus q n d0).2 ∧ d.arm q n = d0.arm q n)) ∧
      (abortRefused q n d0 = false → RunsDev (.abort (.mbx h) arm) s aborted) ∧
      (abortRefused q n d0 = true → d0.active = q → RunsDev (.abort (.mbx h) arm) s (fun d =>
        answered d Code.ABORT_FAULT.num 0 ∧ d.arm q k = d0.arm q k))) ∧
    (who.actsIn d0 q →
      RunsDev (.stop (.reg who) arm) s (filed .stop false) ∧
      RunsDev (.qstop (.reg who) arm) s (filed .qstop true) ∧
      ((∀ e ∈ team, (resumeStatus q e d0).1 = 0) → RunsDev (.resume (.reg who) arm) s resumed) ∧
      (abortRefused q n d0 = false → RunsDev (.abort (.reg who) arm) s aborted)) ∧
    RunsDev (.stop (.reg who) group) s (fun d => d = d0)

/-! ### Feedback and field outputs -/

/-- R196 to R199: a quadrature step moves the 48-bit counter by one, up where A leads B (log entry 9), a jump of two states is QUAD_ERR,
loses the reference and counts nothing, and an index event armed once sets the counter to IDX_VAL, latches the count and ends the
arming. -/
def Obligations.FeedbackCounts : Prop :=
  ∀ (n : Fin 18) (a b z : Bool) (t : PinLevels) (s : State),
    let d0 := s.part.dev
    let x := d0.fb n
    let move := (quadPos a b + 4 - quadPos x.a x.b) % 4
    let cntAt (i : Int) : Nat := (((x.cnt : Int) + i) % 2 ^ 48).toNat
    let index := d0.rd .FB_CFG_Z_USE n = 1 ∧ a = true ∧ b = true ∧ z = true ∧ x.zUsed = false ∧ d0.wire n 2 = 0
    (t.seen ≤ d0.rd .FB_CFG_FILT n → RunsDev (.fbCount n a b z t) s (fun d => d = d0)) ∧
    (d0.rd .FB_CFG_FILT n < t.seen → d0.rd .FB_CFG_MODE n = 1 →
    (move = 0 → RunsDev (.fbCount n a b z t) s (fun d => (d.fb n).cnt = x.cnt)) ∧
    (move = 1 → d0.rd .FB_CFG_Z_USE n ≠ 1 → RunsDev (.fbCount n a b z t) s (fun d => (d.fb n).cnt = cntAt 1)) ∧
    (move = 3 → d0.rd .FB_CFG_Z_USE n ≠ 1 → RunsDev (.fbCount n a b z t) s (fun d => (d.fb n).cnt = cntAt (-1))) ∧
    (move = 2 → RunsDev (.fbCount n a b z t) s (fun d =>
      (d.fb n).cnt = x.cnt ∧ d.rd .FB_STAT_QUAD_ERR n = 1 ∧ d.rd .FB_STAT_REF_LOST n = 1)) ∧
    (move = 1 → index → d0.rd .FB_CFG_IDX_MODE n = 1 → d0.rd .FB_STAT_ARMED n = 1 → RunsDev (.fbCount n a b z t) s (fun d =>
      (d.fb n).cnt = d0.idxVal n ∧ d.rd .FB_IDXLAT_LO n = cntAt 1 % 2 ^ 32 ∧ d.rd .FB_IDXLAT_HI n = cntAt 1 / 2 ^ 32 ∧
      d.rd .FB_STAT_ARMED n = 0 ∧ d.rd .FB_STAT_IDX_DONE n = 1 ∧ d.rd .FB_STAT_REF_LOST n = 0)))

/-- R207 to R217: a good SSI transfer gives its value, a failed one SSI_ERR and a faulty sample with the counter kept; a wire-fault class
that ranks above the one shown is shown and counted, and clears; IDX_ARM, CLR_REF and CLR_CNT; an analog conversion shows its common
mode; a divider output steps toward zero backlog. -/
def Obligations.FieldSignals : Prop :=
  ∀ (n : Fin 16) (m : Fin 18) (pair : Fin 3) (cls : Fin 8) (raw : Nat) (low first par closing cm : Bool) (c o : Fin 4) (code : Int)
    (t : PoTick) (e : WireEnd) (s : State),
    let d0 := s.part.dev
    let bits := d0.rd .FB_CFG_SSI_BITS n
    let value := (if d0.rd .FB_CFG_SSI_CODE n = 1 then grayToBin (raw % 2 ^ bits) bits else raw) % 2 ^ bits
    let good := low = false ∧ first = true ∧ parityOk (d0.rd .FB_CFG_SSI_PAR n) (raw % 2 ^ bits) bits par = true ∧ closing = false
    let y := d0.field.po.get o
    (d0.rd .FB_CFG_MODE n = 2 → bits ≠ 0 →
      (good → d0.rd .FB_CFG_SSI_EXT n ≠ 1 → RunsDev (.ssiTransfer n low first raw par closing) s (fun d =>
        (d.fb n).cnt = value ∧ (d.fb n).ssiBad = false ∧ d.rd .FB_POS_LO n = value % 2 ^ 32)) ∧
      (¬good → RunsDev (.ssiTransfer n low first raw par closing) s (fun d =>
        (d.fb n).cnt = (d0.fb n).cnt ∧ d.rd .FB_STAT_SSI_ERR n = 1 ∧ d.rd .FB_STAT_FAULTY n = 1))) ∧
    (wireRank (d0.wire m pair) < wireRank cls → RunsDev (.wireFault m pair cls) s (fun d =>
      d.wire m pair = cls ∧ d.rd .FB_WIRE_WIRE_CNT m = min (d0.rd .FB_WIRE_WIRE_CNT m + 1) 65535)) ∧
    (0 < wireRank cls → wireRank cls ≤ wireRank (d0.wire m pair) → RunsDev (.wireFault m pair cls) s (fun d =>
      d.regs = d0.regs ∧ d.hasCond m pair cls = true)) ∧
    (d0.wire m e.pair = e.cls → 0 < wireRank e.cls → RunsDev (.wireFaultClear m e) s (fun d =>
      d.hasCond m e.pair e.cls = false ∧ d.wire m e.pair = topClass (setBit ((d0.fb m).conds.get e.pair) e.cls false))) ∧
    (d0.wire m e.pair ≠ e.cls → RunsDev (.wireFaultClear m e) s (fun d =>
      d.hasCond m e.pair e.cls = false ∧ d.regs = d0.regs)) ∧
    RunsDev (.idxArm m) s (fun d => d.rd .FB_STAT_ARMED m = 1) ∧
    (d0.wireBad m = false → RunsDev (.clrRef m) s (fun d => d.rd .FB_STAT_REF_LOST m = 0)) ∧
    (d0.wireBad m = true → RunsDev (.clrRef m) s (fun d => d = d0)) ∧
    RunsDev (.fbClrCnt m) s (fun d => d.rd .FB_ERRCNT_LINE_CNT m = 0 ∧ d.rd .FB_ERRCNT_QUAD_CNT m = 0 ∧ d.rd .FB_WIRE_WIRE_CNT m = 0) ∧
    (-32768 ≤ code → code ≤ 32767 → RunsDev (.aiSample c code cm) s (fun d =>
      (d.field.ai.get c).last = code ∧ (d.field.ai.get c).num = (d0.field.ai.get c).num + 1 ∧ d.rd .AI_STAT_CM c = b2n cm)) ∧
    (y.backlog = 0 ∨ d0.rd .PO_NUM o = 0 → RunsDev (.poOutputStep o t) s (fun d => d = d0)) ∧
    (d0.rd .PO_CFG_EN o = 1 → d0.rd .PO_NUM o ≠ 0 → y.lastEdge + d0.rd .PO_CFG_MIN_SEP o * 5 * nsUnit ≤ t.time →
      d0.rd .PAT_STATUS_TOILE = 0 → d0.wireBad (d0.rd .PO_CFG_SRC o) = false →
      (0 < y.backlog → RunsDev (.poOutputStep o t) s (fun d =>
        (d.field.po.get o).backlog = y.backlog - 1 ∧ (d.field.po.get o).out = (y.out + 1) % 4 ∧
        d.rd .PO_STAT_LAG o = (if y.backlog = 1 then 0 else 1))) ∧
      (y.backlog < 0 → RunsDev (.poOutputStep o t) s (fun d =>
        (d.field.po.get o).backlog = y.backlog + 1 ∧ (d.field.po.get o).out = (y.out + 3) % 4)))

/-! ### The safety plane -/

/-- R227 to R235, R545: an edge is read by each channel and its level counts after the filter; a pair that does not agree latches and
demands; a test pulse with a wrong read-back marks its output, whose pairs demand, until one agrees, and an input that reads high latches
its pair when it sees the pulse of another test output, or misses its own a second time; an output fault (a test pulse that reads high, the
current limit or a low read-back while on, a high read-back while off) sets FLT, switches the output off and puts its units into STO; a
contactor that did not drop locks them; VFIELD out of its range switches every output off, with STO everywhere and its code, until it is
back. -/
def Obligations.SafetyInputs : Prop :=
  ∀ (n : Fin 16) (hiA hiB rbBad high : Bool) (i : Fin 8) (k : Fin 4) (seen own : Nat) (o e : Fin 8) (cross : List Nat) (out : Nat)
    (s : State),
    let d0 := s.part.dev
    let on (d : Dev) (j : Nat) : Bool := bit (d.rd .SAF_SO_ON) j
    let sto (d : Dev) (us : List Nat) : Prop := ∀ c ∈ d0.chans, ∀ u ∈ us, ((d.ch c).units.get u).sto = true
    let faulted (d : Dev) : Prop := bit (d.rd .SAF_SO_FLT) o = true ∧ on d o = false ∧ sto d (d0.unitsOfOut o)
    let stopped (c : Code) (d : Dev) : Prop := d.saf.vfieldBad = true ∧ (∀ j, j < 8 → on d j = false) ∧ sto d safUnits ∧
      d.rd .SAF_STATE_LAST_FAULT = c.num
    RunsDev (.siEdge n hiA hiB) s (fun d => bit (d.ch .a).raw n = hiA ∧ bit (d.ch .b).raw n = hiB ∧ d.regs = d0.regs ∧
      (d.ch .a).lvl = (d0.ch .a).lvl ∧ (d.ch .b).lvl = (d0.ch .b).lvl) ∧
    RunsDev (.siFilterExpiry n) s (fun d => ∀ c ∈ d0.chans, bit (d.ch c).lvl n = bit (d0.ch c).raw n ∧
      ∀ j, j ≠ n.val → bit (d.ch c).lvl j = bit (d0.ch c).lvl j) ∧
    (d0.chans.any (fun c => d0.inDemand c (2 * i) != d0.inDemand c (2 * i + 1)) = true → RunsDev (.pairDiscrep i) s (fun d =>
      d.rd .SAF_STATE_LAST_FAULT = Code.PAIR_DISCREP.num ∧ ∀ c ∈ d0.chans,
        d0.inDemand c (2 * i) ≠ d0.inDemand c (2 * i + 1) → bit (d.ch c).disc i = true ∧ d.pairDemand c i = true)) ∧
    (d0.chans.any (fun c => d0.inDemand c (2 * i) != d0.inDemand c (2 * i + 1)) = false →
      RunsDev (.pairDiscrep i) s (fun d => d = d0)) ∧
    RunsDev (.testPulse k seen rbBad) s (fun d => d.saf.tpBad.contains k.val = rbBad ∧
      (rbBad = true → Sparse.find d0.pat.safety.tpOf n = some k.val → ∀ c, d.pairDemand c (n / 2) = true)) ∧
    (Sparse.find d0.pat.safety.tpOf n = some own → d0.chans.any (fun c => bit (d0.ch c).lvl n) = true →
      (own ≠ k.val → bit seen n = true → RunsDev (.testPulse k seen rbBad) s (fun d =>
        ∀ c ∈ d0.chans, bit (d.ch c).disc (n / 2) = true)) ∧
      (own = k.val → bit seen n = false → 1 ≤ d0.saf.missTp.get n → RunsDev (.testPulse k seen rbBad) s (fun d =>
        ∀ c ∈ d0.chans, bit (d.ch c).disc (n / 2) = true))) ∧
    (on d0 o = true → RunsDev (.soTestPulse o true cross) s faulted) ∧
    (on d0 o = true → RunsDev (.soTestPulse o false []) s (fun d => d = d0)) ∧
    (on d0 o = false → RunsDev (.soTestPulse o high cross) s (fun d => d = d0)) ∧
    (on d0 o = true → RunsDev (.soReadbackFault o high) s faulted) ∧
    (on d0 o = false → RunsDev (.soReadbackFault o true) s faulted) ∧
    (Sparse.find d0.pat.safety.edOut e = some out →
      (on d0 out = false → bit (d0.rd .SAF_ED_LOCK) e = false → RunsDev (.edmWindow e false) s (fun d =>
        bit (d.rd .SAF_ED_LOCK) e = true ∧ d.rd .SAF_STATE_LOCKOUT = 1 ∧ sto d (d0.unitsOfOut out))) ∧
      (on d0 out = false → RunsDev (.edmWindow e true) s (fun d => d = d0)) ∧
      (on d0 out = true → RunsDev (.edmWindow e false) s (fun d => e.val ∈ d.saf.edJudged ∧ d.regs = d0.regs))) ∧
    RunsDev .vfieldLow s (stopped .VFIELD_LOW) ∧ RunsDev .vfieldRev s (stopped .VFIELD_REV) ∧
    RunsDev .vfieldHigh s (stopped .VFIELD_HIGH) ∧
    RunsDev .vfieldRestored s (fun d => d.saf.vfieldBad = false ∧ d.regs = d0.regs)

/-- R220, R223 to R225, R246 to R250, R277: a safety cycle ends with the results of each channel published; the self-tests after a
discrepancy give degraded cause 1, the loss of the channel that failed, or MODE STOPPED with every output off; the hand-over time-out
switches every output off; a restart request that every live channel sees waits for the units that may restart; the degraded time runs out
into an SS1 demand on every unit; an automatic cause that is gone leaves; an SSM stop request ends when it may. -/
def Obligations.SafetyDecisions : Prop :=
  ∀ (edA edB rb : Nat) (late seenA seenB okA okB : Bool) (b : Fin 9) (arm : Fin 8) (s : State),
    let d0 := s.part.dev
    let off (d : Dev) : Prop := ∀ j, j < 8 → bit (d.rd .SAF_SO_ON) j = false
    let rs := d0.chans.map (fun c => (d0.ch c).ssm.get arm)
    RunsDev (.safetyCycleStart edA edB rb late) s (fun d => d.saf.pubA = published d .a ∧ d.saf.pubB = published d .b) ∧
    (d0.saf.selftest = true →
      RunsDev (.selftestDone true true) s (fun d => d.saf.selftest = false ∧ bit (d.rd .SAF_DEGR_CAUSE) 1 = true ∧
        d.saf.a.ok = d0.saf.a.ok ∧ d.saf.b.ok = d0.saf.b.ok) ∧
      RunsDev (.selftestDone true false) s (fun d => d.saf.b.ok = false ∧ d.rd .SAF_STATE_CHB_OK = 0 ∧ d.rd .SAF_STATE_HANDOVER = 1) ∧
      RunsDev (.selftestDone false true) s (fun d => d.saf.a.ok = false ∧ d.rd .SAF_STATE_CHA_OK = 0 ∧ d.rd .SAF_STATE_HANDOVER = 1) ∧
      RunsDev (.selftestDone false false) s (fun d => d.rd .SAF_STATE_MODE = 2 ∧ off d)) ∧
    (d0.saf.selftest = false → RunsDev (.selftestDone okA okB) s (fun d => d = d0)) ∧
    (d0.rd .SAF_STATE_HANDOVER ≠ 0 → RunsDev .handoverTimeout s (fun d =>
      d.rd .SAF_STATE_HANDOVER = 0 ∧ d.saf.handoverOpen = true ∧ off d)) ∧
    (d0.chans ≠ [] → (d0.saf.a.ok = true → seenA = true) → (d0.saf.b.ok = true → seenB = true) →
      RunsDev (.restartRequest seenA seenB) s (fun d => d = { d0 with saf := { d0.saf with restart := safUnits.filter d0.releasable } })) ∧
    ((d0.saf.a.ok = true ∧ seenA = false) ∨ (d0.saf.b.ok = true ∧ seenB = false) →
      RunsDev (.restartRequest seenA seenB) s (fun d => d = d0)) ∧
    (d0.rd .SAF_STATE_MODE = 1 → d0.rd .SAF_DEGR_CAUSE ≠ 0 → d0.rd .SAF_DEGR_REMAIN = 0 → d0.saf.expired = false →
      RunsDev .degrExpired s (fun d => d.saf.expired = true ∧ ∀ c ∈ d0.chans, ∀ u ∈ safUnits,
        ((d.ch c).units.get u).acts.any (fun x => x.src == .expired && x.func == .ss1 && x.active) = true)) ∧
    (d0.rd .SAF_STATE_MODE = 1 → autoCause b = true → d0.causeHolds b = false → RunsDev (.degrLeave b) s (fun d =>
      bit (d.rd .SAF_DEGR_CAUSE) b = false ∧
      ∀ j, j < 9 → j ≠ b.val → bit (d.rd .SAF_DEGR_CAUSE) j = bit (d0.rd .SAF_DEGR_CAUSE) j)) ∧
    (d0.rd .SAF_STATE_MODE ≠ 1 → RunsDev (.degrLeave b) s (fun d => d = d0)) ∧
    (rs.any (·.stop) = true → rs.all (fun r => !r.stop || r.clearOk) = true → RunsDev (.ssmClear arm) s (fun d =>
      ∀ c ∈ d0.chans, ((d.ch c).ssm.get arm).stop = false)) ∧
    (rs.any (·.stop) = false → RunsDev (.ssmClear arm) s (fun d => d = d0))

/-! ### Planes -/

/-- R288, R290, R295, R298, R299, R301, R302: a rejoining plane reloads, tastes alone, racks in bulk and is ready to join when a pass marks
no line; each failure counts, and the third retires it; signatures of a running tasting are judged once; the token passes at a quiet
boundary for a reversion and for the riddling swap; the commands of RED_CMD. -/
def Obligations.PlaneRoles : Prop :=
  ∀ (p : Plane) (ok : Bool) (n : Nat) (s : State),
    let d0 := s.part.dev
    let st := d0.planeState p
    let tasted (d : Dev) : Nat := d.rd (if p = .A then .RED_TASTE_A else .RED_TASTE_B)
    let verdict (d : Dev) : Option Bool := match p with
      | .A => d.red.taste.a
      | .B => d.red.taste.b
    let failed (d : Dev) : Prop := (d.role p).fails = (d0.role p).fails + 1 ∧ (d.role p).retry = true ∧
      d.planeState p = if (d0.role p).fails < 2 then 2 else 5
    let tokenAt (q : Plane) (d : Dev) : Prop := d.active = q ∧ d.rd .RED_ROLE_ROLE_CHG = min (d0.rd .RED_ROLE_ROLE_CHG + 1) 65535
    (st = 1 → RunsDev (.tasteSignature p true n) s (fun d => d.planeState p = 4 ∧ tasted d = 1 ∧ d.rd .RED_BULK_PASS = 1)) ∧
    (st = 1 → RunsDev (.tasteSignature p false n) s (fun d => failed d ∧ tasted d = 2)) ∧
    (st = 0 → d0.tasteBusy p = true → d0.runs p = true → RunsDev (.tasteSignature p ok n) s (fun d =>
      verdict d = some ok ∧ tasted d = if ok then 1 else 2)) ∧
    (st ≠ 1 → d0.tasteBusy p = false → RunsDev (.tasteSignature p ok n) s (fun d => d = d0)) ∧
    (st = 3 → Runs (.reloadDone p true) s (fun q => q.dev.planeState p = 1 ∧
      q.mems.pl p = loadLocals d0.pat (s.part.mems.pl p) ∧ q.mems.pl p.other = s.part.mems.pl p.other ∧
      q.mems.dram = s.part.mems.dram ∧ q.mems.flash = s.part.mems.flash)) ∧
    (st = 3 → RunsDev (.reloadDone p false) s failed) ∧
    (st = 4 → RunsDev (.bulkPassDone p 0) s (fun d => (d.role p).joinReady = true ∧ d.rd .RED_BULK_LINES = 0)) ∧
    (st = 4 → n ≠ 0 → d0.rd .RED_BULK_PASS < 64 → RunsDev (.bulkPassDone p n) s (fun d =>
      (d.role p).joinReady = false ∧ d.rd .RED_BULK_PASS = d0.rd .RED_BULK_PASS + 1)) ∧
    (st = 4 → n ≠ 0 → 64 ≤ d0.rd .RED_BULK_PASS → RunsDev (.bulkPassDone p n) s failed) ∧
    (st = 2 → RunsDev (.rejoinRetry p) s (fun d => (d.role p).retry = false)) ∧
    RunsDev .arbLink s (fun d => d.red.linkLost = true) ∧
    (d0.quiet = true →
      (d0.active = .B → d0.rd .RED_ROLE_RIDDLE = 0 → d0.rd .RED_TIMER_REVERT_REMAIN = 0 → RunsDev .revert s (tokenAt .A)) ∧
      (d0.active = .A → d0.rd .RED_TIMER_RIDDLE_REMAIN = 0 → RunsDev .riddleStart s (fun d =>
        tokenAt .B d ∧ d.rd .RED_ROLE_RIDDLE = 1)) ∧
      (d0.active = .B → d0.rd .RED_ROLE_RIDDLE = 1 → 1024 ≤ d0.red.swap → RunsDev .riddleEnd s (fun d =>
        tokenAt .A d ∧ d.rd .RED_ROLE_RIDDLE = 0))) ∧
    (d0.quiet = false → RunsDev .revert s (fun d => d = d0) ∧ RunsDev .riddleStart s (fun d => d = d0) ∧
      RunsDev .riddleEnd s (fun d => d = d0)) ∧
    (d0.active = .A → d0.rd .RED_TIMER_RIDDLE_REMAIN = 0 → RunsDev .riddleDefer s (fun d => d.red.deferred = true)) ∧
    RunsDev .riddleNow s (fun d => d.rd .RED_TIMER_RIDDLE_REMAIN = 0) ∧
    RunsDev .redClrCnt s (fun d => d.rd .RED_CMP_MISMATCH = 0 ∧ d.rd .RED_CMP_KIND = 0 ∧ d.rd .RED_CMP_IDX_INDEX = 0 ∧
      d.rd .RED_CMP_CYC_CYCNT = 0)

/-! ### Time -/

/-- R307, R310, R316, R318, R326 to R329: TIME_INIT and TIME_STEP wait for their boundary or are refused; a read of NOW latches the base; an
event message is stamped and queued up to 16, INFO shows the oldest stamp and TS_SH removes it; the time-out of the governing port puts
TB1 into holdover; an event output counts its event, places its pulse DLY before it unless toile holds the pins, and disarms or moves on
by its period. -/
def Obligations.TimeCommands : Prop :=
  ∀ (h : MbxHdr) (b o : Fin 8) (t : Nat) (a : StepArg) (q : Fin 2) (id msg : Nat) (egress : Bool) (x : PtpStamp) (l : List PtpStamp)
    (s : State),
    let d0 := s.part.dev
    let waits := (d0.src b = srcFree ∨ d0.src b = srcPtp) ∧ d0.baseState b = 0
    let answered (d : Dev) (status : Nat) : Prop := h.answers status 0 d0.host.replies d.host.replies
    let queue (d : Dev) : List PtpStamp := d.time.ptpq.get q
    let tb : Nat := if d0.baseState 1 = 0 then 3 else 1
    let dly := (if egress then d0.rd .PTP_LAT_TX_LAT q else d0.rd .PTP_LAT_RX_LAT q) * nsUnit
    let e := t - d0.rd .TEV_CFG_DLY o * nsUnit
    (h.deliveredTo d0 →
      (waits → RunsDev (.timeInit h b t) s (fun d => answered d 0 ∧ (d.bs b).pendInit = some t)) ∧
      (¬waits → RunsDev (.timeInit h b t) s (fun d => answered d Code.INIT_REFUSED.num ∧ d.bs b = d0.bs b)) ∧
      (stepRefused b d0 = false → RunsDev (.timeStep h b a) s (fun d => answered d 0 ∧ (d.bs b).pendStep = some a)) ∧
      (stepRefused b d0 = true → RunsDev (.timeStep h b a) s (fun d => answered d Code.STEP_REFUSED.num ∧ d.bs b = d0.bs b))) ∧
    (d0.base b < 2 ^ 48 * secUnit → RunsDev (.tbNowRead b) s (fun d =>
      t96 (d.rd .TB_NOW_NS b) (d.rd .TB_NOW_SL b) (d.rd .TB_NOW_SEC_HI b) (d.rd .TB_NOW_FRAC b) = d0.base b)) ∧
    (msg ≤ 3 → (queue d0).length < 16 → RunsDev (.ptpStamp q id msg egress) s (fun d =>
      let t := d0.base tb / (8 * nsUnit) * (8 * nsUnit)
      queue d = queue d0 ++ [⟨id % 65536, msg, egress, tb == 3, if egress then t + dly else t - dly⟩])) ∧
    (msg ≤ 3 → 16 ≤ (queue d0).length → RunsDev (.ptpStamp q id msg egress) s (fun d => queue d = queue d0)) ∧
    (queue d0 = x :: l →
      RunsDev (.ptpInfoRead q) s (fun d => d.rd .PTP_INFO_VALID q = 1 ∧ d.rd .PTP_INFO_SEQ_ID q = x.seqId % 65536 ∧ queue d = x :: l) ∧
      (d0.rd .PTP_INFO_VALID q = 1 → RunsDev (.ptpTsRead q) s (fun d => queue d = l ∧ d.rd .PTP_INFO_VALID q = 0))) ∧
    (queue d0 = [] → RunsDev (.ptpInfoRead q) s (fun d => d.rd .PTP_INFO_VALID q = 0)) ∧
    (d0.rd .PTP_CFG_HOLD_SRC q = 1 → d0.src 1 = srcPtp → d0.baseState 1 = 1 → RunsDev (.ptpSyncTimeout q) s (fun d =>
      d.baseState 1 = 2 ∧ (d.bs 1).trigHold = true)) ∧
    ((d0.time.tev.get o).next = some t → d0.rd .TEV_CFG_ARM o ≠ 0 → reachInstant (d0.rd .TEV_CFG_BASE o) e d0 = none →
      RunsDev (.tevEvent o) s (fun d => d = d0)) ∧
    ((d0.time.tev.get o).next = some t → d0.rd .TEV_CFG_ARM o ≠ 0 → (reachInstant (d0.rd .TEV_CFG_BASE o) e d0).isSome = true →
      RunsDev (.tevEvent o) s (fun d =>
        d.rd .TEV_STAT_COUNT o = (d0.rd .TEV_STAT_COUNT o + 1) % 65536 ∧
        (d.time.tev.get o).pulse = (if d0.rd .SYS_STATE_TOILE = 1 then none
          else some ⟨e, e + d0.rd .TEV_CFG_WIDTH o * nsUnit, d0.rd .TEV_CFG_POL o == 1⟩) ∧
        (d0.rd .TEV_CFG_MODE o = 0 → d.rd .TEV_CFG_ARM o = 0 ∧ (d.time.tev.get o).next = none) ∧
        (d0.rd .TEV_CFG_MODE o ≠ 0 → (d.time.tev.get o).next = some (t + d0.tevPer o))))

/-! ### Lockstitch -/

/-- R72, R339, R351, R363, R364, R366 to R368, R383, R388, R389: the states of the cold start: a silent T_LISTEN ends in TACK, a tack of a
lower rank in INTEG, one of the own rank silences and is raised again each time; a tack that fails a check counts and is a collision in TACK;
after T_TACK the port leads the ring when its tack came back on both lanes and the cell cycle starts, else the ring is open until it listens
again; RESTART listens while every axis is in STO; a lane that loses lock is fed until it is back; the commands that clear; the guardian cuts
the frame that leaves. -/
def Obligations.RingColdStart : Prop :=
  ∀ (n : Fin 4) (rank : Fin 16) (sched dly : Nat) (r : TackRx) (lane : Path) (x : Fin 512) (slot : Nat) (s : State),
    let d0 := s.part.dev
    let st := d0.lsState n
    let p0 := d0.port n
    let mine := (d0.portSec n).rank
    let lock (d : Dev) : Bool := onPath lane (d.port n).lockP (d.port n).lockS
    let feed (d : Dev) : Bool := onPath lane (d.port n).feedP (d.port n).feedS
    let nodeFeed (d : Dev) : Bool := onPath lane (d.node n x).feedP (d.node n x).feedS
    let pay := tackBytes rank r.lsVer r.res sched r.ident
    let crc := r.head.crcBad r.src pay
    let good := d0.frameOk n r.head crc (r.head.formBad tyTack 16 16 (r.res != 0) pay)
    let tack (own : Option Path) (post : Dev → Prop) : Prop := RunsDev (.tackFrame n rank sched own r dly) s post
    (st = lsListen → p0.silent = false → RunsDev (.tListenExpiry n) s (fun d => d.lsState n = lsTack ∧ (d.port n).tackP = false ∧
      (d.port n).tackS = false ∧ (d.port n).tackOut = some (d0.tackTx n))) ∧
    (p0.silent = true → RunsDev (.tListenExpiry n) s (fun d => d = d0)) ∧
    (st = lsTack → p0.openWait = false → p0.tackP = true → p0.tackS = true → RunsDev (.tTackExpiry n) s (fun d =>
      d.lsState n = lsBasting ∧ d.rd .LS_STATE_ROLE n = 1 ∧ d.baseState 0 ≠ 0 ∧ d.cyc.running = true ∧ d.cyc.restart = true ∧
      (d.port n).repeating = false)) ∧
    (st = lsTack → p0.openWait = false → p0.tackP = false ∨ p0.tackS = false → RunsDev (.tTackExpiry n) s (fun d =>
      d.lsState n = lsTack ∧ (d.port n).openWait = true ∧ d.rd .LS_STATE_OPEN n = 1)) ∧
    (st = lsTack → p0.openWait = true → RunsDev (.openRelisten n) s (fun d => d.lsState n = lsListen ∧ (d.port n).openWait = false)) ∧
    (p0.openWait = false → RunsDev (.openRelisten n) s (fun d => d = d0)) ∧
    (good = true →
      (st = lsListen → sched = d0.rd .LS_DIGEST_SCHED n →
        (rank.val < mine → tack none (fun d => d.lsState n = lsInteg)) ∧
        (mine < rank.val → p0.silent = false → tack none (fun d => d.lsState n = lsTack)) ∧
        (rank.val = mine → tack none (fun d =>
          d.lsState n = lsListen ∧ (d.port n).silent = true ∧ Code.RANK_CONFLICT.num ∈ (d.port n).codes))) ∧
      (st = lsListen → sched ≠ d0.rd .LS_DIGEST_SCHED n → tack none (fun d => d = relay n r.path .good d0)) ∧
      (st = lsTack → p0.openWait = false →
        (rank.val < mine → tack none (fun d => d.lsState n = lsInteg)) ∧
        (mine ≤ rank.val → tack none (fun d => d = relay n r.path .good d0)) ∧
        tack (some .P) (fun d => (d.port n).tackP = true ∧ (d.port n).tackS = p0.tackS ∧ (d.port n).loopP = dly ∧
          (dly < 65536 → d.rd .LS_DLOOP_P n = dly)) ∧
        tack (some .S) (fun d => (d.port n).tackS = true ∧ (d.port n).tackP = p0.tackP ∧ (d.port n).loopS = dly ∧
          (dly < 65536 → d.rd .LS_DLOOP_S n = dly)))) ∧
    (good = false → r.head.fin = .good → st ≠ lsOff → tack none (fun d =>
      d.rd .LS_ERR_FRAME_ERR n = min (d0.rd .LS_ERR_FRAME_ERR n + 1) 65535 ∧ Code.FRAME_ERR.num ∈ (d.port n).codes ∧
      (crc = true → st = lsTack → p0.openWait = false → d.lsState n = lsListen) ∧ (st ≠ lsTack → d.lsState n = st))) ∧
    RunsDev (.symbolLock n lane) s (fun d => lock d = true ∧ (d.port n).repeating = (d0.rd .LS_STATE_ROLE n != 1)) ∧
    (st ≠ lsOff → portSto n d0 = true → RunsDev (.lsRestart n) s (fun d => d.lsState n = lsListen)) ∧
    (portSto n d0 = false → RunsDev (.lsRestart n) s (fun d => d = d0)) ∧
    (x.val = (d0.portSec n).self →
      RunsDev (.laneLockLoss n x lane) s (fun d => lock d = false ∧ (d.port n).run = 0 ∧
        (d0.rd .LS_STATE_ROLE n ≠ 1 → feed d = true) ∧ (d0.rd .LS_STATE_ROLE n = 2 → d.rd .LS_STATE_WRAPPED n = 1)) ∧
      RunsDev (.laneRelock n x lane) s (fun d => lock d = true ∧ feed d = false)) ∧
    (x.val ≠ (d0.portSec n).self →
      RunsDev (.laneLockLoss n x lane) s (fun d => nodeFeed d = true) ∧ RunsDev (.laneRelock n x lane) s (fun d => nodeFeed d = false)) ∧
    RunsDev (.clrHeal n) s (fun d => d.rd .LS_CLAIM_GRANTED n = 0 ∧ d.rd .LS_CLAIM_COLL n = 0 ∧ d.rd .LS_HEAL_WRAP_CNT n = 0 ∧
      d.rd .LS_HEAL_PART_CNT n = 0 ∧ d.rd .LS_STATE_PART n = 0) ∧
    RunsDev (.lsClrCnt n) s (fun d =>
      (∀ f ∈ [Fld.LS_ERR_FRAME_ERR, .LS_ERR_ABORT, .LS_ERR2_COPY_DIFF, .LS_ERR2_MUTE, .LS_CLAIM_GRANTED, .LS_CLAIM_COLL, .LS_HEAL_WRAP_CNT,
        .LS_HEAL_PART_CNT], d.rd f n = 0) ∧
      (slot ∈ (d0.portSec n).slots.map (·.1) → d.rdAt .LS_SLOT_CNT_EMPTY_CNT .A n slot = 0 ∧
        d.rdAt .LS_SLOT_CNT_BV_CNT .A n slot = 0 ∧ d.rdAt .LS_SLOT_INFO_ERR_CNT .A n slot = 0)) ∧
    RunsDev (.guardCutoff n) s (fun d => (d.port n).cutOff = true ∧
      (d.port n).outP = p0.outP.map (fun f => { f with fin := .aborted }) ∧
      (d.port n).outS = p0.outS.map (fun f => { f with fin := .aborted }))

/-- R339, R341 to R346, R350 to R352, R356, R367, R369, R374, R378, R382, R384, R385: the leader's sync frame announces the next boundary; a
node integrates with the second consistent one, a following controller sets its boundary by it, and both lose their integration with two
missing on both paths; command records and permissions are taken once, by owner and by sequence; a slot frame counts where it is refused and
else is the slot's copy, which reaches no axis of a node that is not admitted; an empty due slot counts, and sixteen make its node ABSENT; a
claim makes another claimant back off, and two in a window collide. A frame that fails a check has no other effect on a node. How a missing P
copy and a frame's own end count follow log entries 61, 64 and 169. -/
def Obligations.RingFrames : Prop :=
  ∀ (n : Fin 4) (x src : Fin 512) (q : Path) (f : SyncRx) (ws : CycleRx) (r : List Int) (map : List Nat) (h : PermHead) (seq slot k : Nat)
    (inTime : Bool) (err : Int) (fh : RxHead) (pay : SlotPayload) (tr : Nat) (c : ClaimRx) (s : State),
    let d0 := s.part.dev
    let self := (d0.portSec n).self
    let y := d0.node n x
    let role := d0.rd .LS_STATE_ROLE n
    let wd := (d0.nodeSec n x).sfWd
    let step := (seq + 2 ^ 32 - k) % 2 ^ 32
    let permit (d : Dev) : Permit := (d.node n x).permA
    let st := d0.lsState n
    let heard := st ≥ lsBasting
    let passes (fr : RxHead) (bad1 bad2 : Bool) : Prop := fr.fin = .good ∧ bad1 = false ∧ bad2 = false
    let g := f.frame
    let goodSync := passes f.head (f.head.crcBad f.src f.pay) (f.head.formBad tySync 44 44 f.res f.pay)
    let missed (d : Dev) : Nat := onPath q (d.node n x).missP (d.node n x).missS
    let second (p s : Option SyncFrame) : Prop := (onPath q p s).any (fun a => consistent a g (d0.guard5 n)) = true
    let goodCycle := passes ws.head (ws.head.crcBad src ws.pay) (ws.head.formBad tyCycle 8 16384 (cycleRes ws.pay) ws.pay) ∧
      ws.head.cyc = d0.rd .SYS_CYCNT % 65536 ∧
      (src.val = self → (onPath ws.path (d0.port n).outP (d0.port n).outS).any (fun t => t.same ws.head ws.pay) = true)
    let goodPerm (b : Bool) := h.sfType = permType b ∧ h.ver = (d0.nodeSec n x).sfVer ∧ map.length = (if h.ver = 2 then 64 else 32) ∧
      h.crcOk (safInit (d0.ownerId n x) b) seq map = true
    let bytes := d0.slotBytes n src pay
    let crc := fh.crcBad src bytes
    let form := fh.formBad tySlot 0 ((Sparse.find (d0.portSec n).slots slot).elim 0 (·.lenMax)) pay.res bytes
    let goodClaim := passes c.head (c.head.crcBad src (claimBytes c.slot c.lsVer tr c.sched c.ident))
      (c.head.formBad tyClaim 16 16 false (claimBytes c.slot c.lsVer tr c.sched c.ident))
    let window (d : Dev) : SlotSt := (d.port n).slots.get (c.slot % 1024)
    (role = 1 → RunsDev (.syncSend n) s (fun d => (d.port n).syncOut = some (d0.syncTx n) ∧
      d.cyc.announced = some (d0.rd .SYS_CYCNT + 1) ∧ ((d0.bs 0).pendStep.isSome = true → (d.bs 0).stepSent = true))) ∧
    (role ≠ 1 → RunsDev (.syncSend n) s (fun d => d = d0)) ∧
    (goodSync → g.sched = d0.rd .LS_DIGEST_SCHED n →
      (x.val ≠ self → RunsDev (.syncFrame n x q f) s (fun d => missed d = 0 ∧ (y.integ = true → (d.node n x).integ = true) ∧
        (y.integ = false → second y.lastP y.lastS → (d.node n x).integ = true) ∧
        (y.integ = false → ¬second y.lastP y.lastS →
          (d.node n x).integ = false ∧ onPath q (d.node n x).lastP (d.node n x).lastS = some g))) ∧
      (x.val = self → heard → role ≠ 1 → RunsDev (.syncFrame n x .P f) s (fun d =>
        let at' := ((d0.cyc.closeAt : Int) + y.lag .P g.err).toNat
        d.cyc.closeAt = at' ∧ d.cyc.nextAt = some (at' + g.len) ∧ d.cyc.announced = some g.cycnt ∧ (d.port n).missP = 0)) ∧
      (x.val = self → st = lsListen ∨ st = lsTack → role ≠ 1 → RunsDev (.syncFrame n x q f) s (fun d => d.lsState n = lsInteg)) ∧
      (x.val = self → st = lsInteg → role ≠ 1 → second (d0.port n).lastP (d0.port n).lastS → RunsDev (.syncFrame n x q f) s (fun d =>
        d.lsState n = lsBasting ∧ d.rd .LS_STATE_ROLE n = 2 ∧ d.cyc.announced = some g.cycnt ∧ (d.port n).hush = some 2))) ∧
    (goodSync → g.sched ≠ d0.rd .LS_DIGEST_SCHED n → x.val ≠ self → RunsDev (.syncFrame n x q f) s (fun d => d = d0)) ∧
    (goodSync → g.sched ≠ d0.rd .LS_DIGEST_SCHED n → x.val = self → st ≠ lsOff → role ≠ 1 → RunsDev (.syncFrame n x q f) s (fun d =>
      (d.port n).mismatch = true ∧ Code.SCHED_MISMATCH.num ∈ (d.port n).codes)) ∧
    (¬goodSync → x.val ≠ self → RunsDev (.syncFrame n x q f) s (fun d => d = d0)) ∧
    (x.val ≠ self → RunsDev (.syncFrameMissed n x .P) s (fun d => (d.node n x).missP = y.missP + 1 ∧
      (1 ≤ y.missP → 2 ≤ y.missS → (d.node n x).integ = false ∧ (permit d).map = []) ∧
      (1 ≤ y.missP → y.missS = 0 → (d.node n x).feedP = true))) ∧
    (x.val = self → role = 2 → heard → 1 ≤ (d0.port n).missP →
      (2 ≤ (d0.port n).missS → RunsDev (.syncFrameMissed n x .P) s (fun d => d.lsState n = lsListen)) ∧
      ((d0.port n).missS = 0 → RunsDev (.syncFrameMissed n x .P) s (fun d =>
        d.lsState n = st ∧ (d.port n).feedP = true ∧ d.rd .LS_STATE_WRAPPED n = 1))) ∧
    (x.val ≠ self → heard → goodCycle → d0.sewnNext n = true → src.val = (d0.nodeSec n x).owner →
      (y.taken = none → d0.recordsIn n x (cmdArea ws.pay) = some r → RunsDev (.cycleFrameAccept n src x ws) s (fun d =>
        (d.node n x).taken = some r)) ∧
      (y.taken ≠ none → RunsDev (.cycleFrameAccept n src x ws) s (fun d => d = d0))) ∧
    (x.val ≠ self → ¬goodCycle → RunsDev (.cycleFrameAccept n src x ws) s (fun d => d = d0)) ∧
    (x.val = self → heard → goodCycle → RunsDev (.cycleFrameAccept n src x ws) s (fun d => ∀ e ∈ (d0.portSec n).reads, e.src = src.val →
      4 * max e.value e.speed + 4 ≤ (wordArea ws.pay).length → (d.field.wordIn.get (e.axis * 4 + e.loop)).fresh = true)) ∧
    (goodPerm false →
      (y.permA.seq = none → RunsDev (.permissionSubframe n x .a seq map h) s (fun d => permit d = ⟨some seq, map, 0⟩)) ∧
      (y.permA.seq = some k →
        (1 ≤ step → step ≤ wd → RunsDev (.permissionSubframe n x .a seq map h) s (fun d => permit d = ⟨some seq, map, 0⟩)) ∧
        (step = 0 → RunsDev (.permissionSubframe n x .a seq map h) s (fun d =>
          permit d = { y.permA with map := List.zipWith Nat.land y.permA.map map } ∧
          (y.permA.map ≠ map → (d.node n x).safDiff = true))) ∧
        (wd < step → 1 ≤ step → RunsDev (.permissionSubframe n x .a seq map h) s (fun d => permit d = y.permA)))) ∧
    (¬goodPerm true → RunsDev (.permissionSubframe n x .b seq map h) s (fun d => d = d0)) ∧
    (heard →
      (fh.fin = .aborted → RunsDev (.slotFrame n slot q fh err inTime src pay) s (fun d =>
        d.rd .LS_ERR_ABORT n = min (d0.rd .LS_ERR_ABORT n + 1) 65535)) ∧
      (fh.fin = .good → crc = true ∨ form = true → RunsDev (.slotFrame n slot q fh err inTime src pay) s (fun d =>
        d.rd .LS_ERR_FRAME_ERR n = min (d0.rd .LS_ERR_FRAME_ERR n + 1) 65535)) ∧
      (passes fh crc form → 2 * absI err ≤ d0.guard5 n → d0.slotSender n slot = some src.val →
        ((d0.port n).slots.get slot).first = none → RunsDev (.slotFrame n slot q fh err true src pay) s (fun d =>
          ((d.port n).slots.get slot).first = some bytes ∧ (d.node n src).emptyRun = 0 ∧
          ((d0.node n src).state ≠ 3 → d.field.slot = d0.field.slot))) ∧
      (passes fh crc form → d0.guard5 n < 2 * absI err ∨ inTime = false → slot < 1024 →
        RunsDev (.slotFrame n slot q fh err inTime src pay) s (fun d =>
          d.rdAt .LS_SLOT_CNT_BV_CNT .A n slot = min (d0.rdAt .LS_SLOT_CNT_BV_CNT .A n slot + 1) 65535))) ∧
    (¬heard → fh.fin = .good → crc = false → form = false → RunsDev (.slotFrame n slot q fh err inTime src pay) s (fun d =>
      d = if st = lsOff then d0 else relay n q .good d0)) ∧
    (d0.slotDue n slot = some x.val → st = lsSewn → ((d0.port n).slots.get slot).first = none →
      RunsDev (.slotEmpty n slot) s (fun d => (d.node n x).emptyRun = y.emptyRun + 1 ∧
        (y.state = 3 → y.emptyRun = 15 → (d.node n x).state = 1))) ∧
    (d0.slotDue n slot = none → RunsDev (.slotEmpty n slot) s (fun d => d = d0)) ∧
    (x ≠ src → goodClaim →
      (d0.claimOk n src c = true → (d0.node n src).claimMute = false → src.val ∉ (window d0).claims →
        RunsDev (.claimFrame n src tr [x.val] c) s (fun d => (d.node n src).claimTry = tr)) ∧
      (y.claimTry ≠ 0 → y.claimTry < 15 → RunsDev (.claimFrame n src tr [x.val] c) s (fun d =>
        (d.node n x).claimTry = y.claimTry + 1 ∧ (d.node n x).claimWait = claimWait x y.claimTry)) ∧
      (15 ≤ y.claimTry → RunsDev (.claimFrame n src tr [x.val] c) s (fun d =>
        (d.node n x).claimTry = 0 ∧ (d.node n x).claimMute = true)) ∧
      (role = 1 → (window d0).claims.length = 1 → src.val ∉ (window d0).claims → (window d0).claimBad = false →
        RunsDev (.claimFrame n src tr [x.val] c) s (fun d => d.rd .LS_CLAIM_COLL n = min (d0.rd .LS_CLAIM_COLL n + 1) 65535))) ∧
    (¬goodClaim → RunsDev (.claimFrame n src tr [] c) s (fun d => (window d).claimBad = true))

/-! ### Capture and the cellar book -/

/-- R394, R400, R401, R404, R405, R407, R410 to R412, R415: arming is refused without a channel or with an INVALID base; STOP and POST_T
wait for the boundary; a fast channel shows its sample and keeps it for the triggers; the read positions count whole records; an unknown
pulse counts; a calibration pulse owes its echo, and an echo of the own one measures its sender's delay (log entry 203); a fault of a line
shows until it was idle, and holds the line; CAL asks for a calibration, and its start owes a pulse on every line; a due pulse leaves once,
with the width of the own index, on a free line; a staged record reaches the region. -/
def Obligations.Capture : Prop :=
  ∀ (w : Word) (c : Fin 16) (k : Nat) (l : Fin 4) (width t t0 j : Nat) (o : TrgOut) (os : List TrgOut) (r : CelRec) (s : State),
    let d0 := s.part.dev
    let live := d0.rd .CAP_STAT_STATE = 1 ∨ d0.rd .CAP_STAT_STATE = 2
    let ready := d0.chsOn ≠ [] ∧ d0.baseState d0.capBase ≠ 0
    let ofs := k * d0.rd .CAP_CH_CFG_DIV c * 1000 * nsUnit
    let v := capValue s.part c (d0.cyc.openAt + ofs)
    let flt := d0.rd .CAP_TBUS_STAT_LINE_FLT
    let own := d0.ctrl
    let size := d0.rd .CEL_SIZE
    let at_ := d0.cellar.written
    let base := d0.pat.mem.cellar.base
    let same (d : Dev) : Prop := d = d0
    (live → RunsDev .capArm s same) ∧
    (¬live → ready → RunsDev .capArm s (fun d => d = { d0 with cap := { d0.cap with armReq := true } })) ∧
    (¬live → ¬ready → RunsDev .capArm s (fun d => d.rd .CAP_ARM_ARM_ERR = 1 ∧ d.cap = d0.cap)) ∧
    (live → RunsDev .capStop s (fun d => d = { d0 with cap := { d0.cap with stopReq := true } })) ∧
    (¬live → RunsDev .capStop s same) ∧
    (d0.rd .CAP_STAT_STATE = 2 → RunsDev .postTExpiry s (fun d => d = { d0 with cap := { d0.cap with postDone := true } })) ∧
    (d0.rd .CAP_STAT_STATE ≠ 2 → RunsDev .postTExpiry s same) ∧
    RunsDev (.capRd w) s (fun d => d.rd .CAP_RD = w.toNat / 8 * 8 ∧ d.cap.overNoted = false ∧ d.cap.written = d0.cap.written) ∧
    RunsDev (.celRd w) s (fun d => d.rd .CEL_RD = w.toNat / 32 * 32 ∧ d.cellar.overNoted = false ∧ d.cellar.written = at_) ∧
    (d0.chOn c = false ∨ d0.cycLen ≤ ofs → RunsDev (.fastChannelSample c k) s same) ∧
    (d0.chOn c = true → ofs < d0.cycLen → Runs (.fastChannelSample c k) s (fun q =>
      q.dev.rd .CAP_CH_LAST_VALUE c = unsigned 32 v ∧ (q.dev.cap.ch.get c).prev = some (v, d0.cap.bT + ofs))) ∧
    (bit flt l = false → RunsDev (.trgLineFault l) s (fun d =>
      d.rd .CAP_TBUS_STAT_LINE_FLT = setBit flt l true % 16 ∧ d.lineFree l = false)) ∧
    (bit flt l = true → RunsDev (.trgLineFault l) s same) ∧
    RunsDev (.trgLineIdle l) s (fun d => d.rd .CAP_TBUS_STAT_LINE_FLT = setBit flt l false % 16) ∧
    (d0.cap.calAt = none →
      (senderOf width = none → RunsDev (.trgPulse l width t) s (fun d =>
        d.rd .CAP_TBUS_STAT_UNKNOWN = min (d0.rd .CAP_TBUS_STAT_UNKNOWN + 1) 65535)) ∧
      (senderOf width = some j → j ≠ own → d0.calSender l t = some own → d0.cap.lead.get l = some (own, t0) → t0 ≤ t → t < t0 + calWin →
        RunsDev (.trgPulse l width t) s (fun d => d.rdAt .CAP_TBUS_DLY_VALID .A l j = 1 ∧
          d.rdAt .CAP_TBUS_DLY_DELAY .A l j = unsigned 16 (rdiv (((t : Int) - t0) / nsUnit - 10000 - 20000 * j) 2))) ∧
      (senderOf width = some j → d0.calSender l t = some j → t % (4 * secUnit) % calWin < 10000 * nsUnit →
        RunsDev (.trgPulse l width t) s (fun d => d.cap.lead.get l = some (j, t) ∧ d.cap.outs =
          d0.cap.outs ++ (if j = own then [] else [{ line := l, due := some (t + (10000 + 20000 * own) * nsUnit) }]))) ∧
      (senderOf width = some j → d0.calSender l t = none → j ≠ own → d0.rdAt .CAP_TBUS_DLY_VALID .A l j ≠ 1 →
        RunsDev (.trgPulse l width t) s (fun d =>
          d.rd .CAP_TBUS_STAT_UNKNOWN = min (d0.rd .CAP_TBUS_STAT_UNKNOWN + 1) 65535)) ∧
      RunsDev .cal s (fun d => d = { d0 with cap := { d0.cap with calReq := true, calRuns := 0 } }) ∧
      (d0.baseState 0 ≠ 0 → d0.rd .SYS_STATE_STAGE = 8 → (d0.cap.calReq = true ∨ d0.cap.calFirst = false) →
        RunsDev .trgCalibration s (fun d => d.rd .CAP_TBUS_STAT_CAL_RUN = 1 ∧ d.cap.calReq = false ∧
          d.cap.calAt = some (d0.base 0 / (4 * secUnit) * (4 * secUnit)) ∧ d.cap.outs.map (·.line) = d0.cap.outs.map (·.line) ++ [0, 1, 2, 3])) ∧
      (d0.baseState 0 = 0 ∨ d0.rd .SYS_STATE_STAGE ≠ 8 ∨ (d0.cap.calReq = false ∧ d0.cap.calFirst = true) →
        RunsDev .trgCalibration s same) ∧
      (d0.cap.outs = o :: os → o.line = l → d0.lineFree l = true → o.due.all (fun u => decide (u ≤ d0.base 0)) = true →
        RunsDev (.trgOutputPulse l) s (fun d => d.cap.outs = os ∧ d.cap.driven.get l = some (d0.base 0, 200 + 40 * own))) ∧
      (d0.lineFree l = false → RunsDev (.trgOutputPulse l) s same) ∧
      ((∀ x ∈ d0.cap.outs, x.line ≠ l) → RunsDev (.trgOutputPulse l) s same)) ∧
    ((∀ i, i < 9 → d0.cellar.discarded.get i = 0) →
      (d0.cellar.staging = [] → RunsDev .cellarLoss s same) ∧
      (s.memWf = true → d0.cellar.staging = [r] → 32 ≤ size → size < 2 ^ 32 → at_ + 32 < d0.cellar.readTo + size →
        Runs .cellarLoss s (fun q => q.dev.cellar.staging = [] ∧ q.dev.rd .CEL_HEAD = (at_ + 32) % size ∧
          ∀ a, q.mems.dram.byte a = if base + at_ % size ≤ a ∧ a < base + at_ % size + 32
            then (celBytes r).getD (a - (base + at_ % size)) 0 else s.part.mems.dram.byte a)))

/-! ### The state after reset, an invariant, and the instruction words -/

/-- R532, R534: the state after the power-on reset: nothing waits, every memory is in its canonical form, the controller is held in
stage RESET with the supplies good, TB3 runs, the cause is a power-on reset, and every other register has the reset value of its table. -/
def Obligations.ResetState : Prop :=
  State.reset.pending = [] ∧ State.reset.memWf = true ∧ State.reset.part.dev.boot.inReset = true ∧
    State.reset.part.dev.boot.pgood = true ∧
    State.reset.part.dev.baseState 3 = 1 ∧ State.reset.part.dev.rd .SYS_RSTCAUSE_POR = 1 ∧
    ∀ (f : Fld) (p : Plane) (i j : Nat), f.key p i j ≠ Fld.key .TB_STAT_STATE .A 3 0 → f.key p i j ≠ Fld.key .SYS_RSTCAUSE_POR .A 0 0 →
      State.reset.part.dev.rdAt f p i j = f.rst

/-- R22, R465 (the memories of the part): every step completes and leaves every byte memory in its canonical form, so that memories that read alike
are equal. The form is the model's own (log entry 23). -/
def Obligations.StepKeepsMemWf : Prop :=
  ∀ s : State, s.memWf = true → ∃ t, step s = .next t ∧ t.memWf = true

/-- R427, R429: the word of a well-formed FD32 instruction spells that instruction: no operand is dropped from the encoding. What is
no part of the word, the core that runs it and what its memory answers, is given beside it. -/
def Obligations.Fd32RoundTrip : Prop :=
  ∀ (i : Instr) (w : Word), i.wf = true → fd32Encode i = some w →
    ∃ (p : Plane) (c : Fin 10) (e : Ecc) (lo hi : Bool), fd32Decode p c e lo hi w = i
end

