-- ==== Sys2Proof/Decode.lean ====
section
/-! DEFINITION. Decoding of words of the opcode table. The block takes commands, and the table gives none of its rows any bits. -/

namespace Sys2Proof

/-- The command that a word spells by the table's bits: none, since no row has bits. -/
def decodeTableWord (_nbits _w : Nat) : Option Instr := none

end Sys2Proof
end

