-- ==== Sys2Proof/Laws/Tab.lean ====
section
/-! SUPPORT. Laws of sorted entry lists and of tables with a default: what a read after a write gives, and that every operation keeps
the keys rising. -/

namespace Sys2Proof.Machine

/-- Every listed key is above `k`. -/
def Sparse.above {α : Type} (k : Nat) (m : Sparse α) : Prop := ∀ e ∈ m, k < e.1

theorem Sparse.rising_cons {α : Type} (j : Nat) (v : α) (t : Sparse α) :
    Sparse.rising ((j, v) :: t) = true ↔ Sparse.above j t ∧ Sparse.rising t = true := by
  simp [Sparse.rising, Sparse.above, List.all_eq_true]

theorem Sparse.find_put {α : Type} (m : Sparse α) (k k' : Nat) (v : α) :
    Sparse.find (Sparse.put m k v) k' = if k = k' then some v else Sparse.find m k' := by
  induction m with
  | nil => simp [Sparse.put, Sparse.find]
  | cons e t ih =>
    obtain ⟨j, w⟩ := e
    simp only [Sparse.put]
    by_cases h1 : k < j
    · simp [h1, Sparse.find]
    · by_cases h2 : k = j
      · subst h2
        by_cases h3 : k = k' <;> simp [Sparse.find, h3]
      · simp only [h1, h2, if_false, Sparse.find, ih]
        by_cases h3 : j = k'
        · subst h3; simp [h2]
        · simp [h3]

theorem Sparse.mem_put {α : Type} {m : Sparse α} {k : Nat} {v : α} {e : Nat × α} (h : e ∈ Sparse.put m k v) :
    e = (k, v) ∨ e ∈ m := by
  induction m with
  | nil => exact .inl (List.mem_singleton.mp h)
  | cons x t ih =>
    obtain ⟨j, w⟩ := x
    simp only [Sparse.put] at h
    split at h
    · simpa using h
    · split at h
      · rcases List.mem_cons.mp h with h | h
        · exact .inl h
        · exact .inr (List.mem_cons_of_mem _ h)
      · rcases List.mem_cons.mp h with h | h
        · exact .inr (h ▸ List.mem_cons_self)
        · rcases ih h with h | h
          · exact .inl h
          · exact .inr (List.mem_cons_of_mem _ h)

theorem Sparse.mem_del {α : Type} {m : Sparse α} {k : Nat} {e : Nat × α} (h : e ∈ Sparse.del m k) : e ∈ m := by
  induction m with
  | nil => simp [Sparse.del] at h
  | cons x t ih =>
    obtain ⟨j, w⟩ := x
    simp only [Sparse.del] at h
    split at h
    · exact List.mem_cons_of_mem _ h
    · rcases List.mem_cons.mp h with h | h
      · exact h ▸ List.mem_cons_self
      · exact List.mem_cons_of_mem _ (ih h)

theorem Sparse.rising_put {α : Type} (m : Sparse α) (k : Nat) (v : α) (h : Sparse.rising m = true) :
    Sparse.rising (Sparse.put m k v) = true := by
  induction m with
  | nil => simp [Sparse.put, Sparse.rising]
  | cons x t ih =>
    obtain ⟨j, w⟩ := x
    obtain ⟨ha, hr⟩ := (Sparse.rising_cons j w t).mp h
    simp only [Sparse.put]
    split
    · next hlt =>
      refine (Sparse.rising_cons _ _ _).mpr ⟨?_, h⟩
      intro e he
      rcases List.mem_cons.mp he with he | he
      · subst he; exact hlt
      · exact Nat.lt_trans hlt (ha e he)
    · split
      · next heq => subst heq; exact (Sparse.rising_cons _ _ _).mpr ⟨ha, hr⟩
      · next h1 h2 =>
        refine (Sparse.rising_cons _ _ _).mpr ⟨?_, ih hr⟩
        intro e he
        rcases Sparse.mem_put he with he | he
        · subst he; simp only; omega
        · exact ha e he

theorem Sparse.rising_del {α : Type} (m : Sparse α) (k : Nat) (h : Sparse.rising m = true) :
    Sparse.rising (Sparse.del m k) = true := by
  induction m with
  | nil => simp [Sparse.del, Sparse.rising]
  | cons x t ih =>
    obtain ⟨j, w⟩ := x
    obtain ⟨ha, hr⟩ := (Sparse.rising_cons j w t).mp h
    simp only [Sparse.del]
    split
    · exact hr
    · exact (Sparse.rising_cons _ _ _).mpr ⟨fun e he => ha e (Sparse.mem_del he), ih hr⟩

theorem Sparse.rising_filter {α : Type} (m : Sparse α) (f : Nat × α → Bool) (h : Sparse.rising m = true) :
    Sparse.rising (m.filter f) = true := by
  induction m with
  | nil => simp [Sparse.rising]
  | cons x t ih =>
    obtain ⟨j, w⟩ := x
    obtain ⟨ha, hr⟩ := (Sparse.rising_cons j w t).mp h
    simp only [List.filter_cons]
    split
    · exact (Sparse.rising_cons _ _ _).mpr ⟨fun e he => ha e (List.mem_filter.mp he).1, ih hr⟩
    · exact ih hr

theorem Sparse.find_above {α : Type} {m : Sparse α} {k : Nat} (h : Sparse.above k m) : Sparse.find m k = none := by
  induction m with
  | nil => rfl
  | cons x t ih =>
    obtain ⟨j, w⟩ := x
    have hj : k < j := h (j, w) List.mem_cons_self
    simp only [Sparse.find]
    rw [if_neg (by omega)]
    exact ih (fun e he => h e (List.mem_cons_of_mem _ he))

theorem Sparse.find_del {α : Type} (m : Sparse α) (k k' : Nat) (h : Sparse.rising m = true) :
    Sparse.find (Sparse.del m k) k' = if k = k' then none else Sparse.find m k' := by
  induction m with
  | nil => simp [Sparse.del, Sparse.find]
  | cons x t ih =>
    obtain ⟨j, w⟩ := x
    obtain ⟨ha, hr⟩ := (Sparse.rising_cons j w t).mp h
    simp only [Sparse.del]
    by_cases h2 : k = j
    · subst h2
      simp only [if_true]
      by_cases h3 : k = k'
      · subst h3; simp [Sparse.find_above ha]
      · simp [Sparse.find, h3]
    · simp only [h2, if_false, Sparse.find, ih hr]
      by_cases h3 : j = k'
      · subst h3; simp [h2]
      · simp [h3]

@[simp] theorem Tab.get_set {α : Type} (t : Tab α) (i j : Nat) (v : α) :
    (t.set i v).get j = if i = j then v else t.get j := by
  simp only [Tab.get, Tab.set, Sparse.find_put]
  by_cases h : i = j <;> simp [h]

theorem Tab.get_set_same {α : Type} (t : Tab α) (i : Nat) (v : α) : (t.set i v).get i = v := by simp

theorem Tab.get_set_ne {α : Type} (t : Tab α) {i j : Nat} (v : α) (h : i ≠ j) : (t.set i v).get j = t.get j := by simp [h]

@[simp] theorem Tab.get_upd {α : Type} (t : Tab α) (i j : Nat) (f : α → α) :
    (t.upd i f).get j = if i = j then f (t.get j) else t.get j := by
  simp only [Tab.upd, Tab.get_set]
  by_cases h : i = j <;> simp [h]

@[simp] theorem Tab.dflt_set {α : Type} (t : Tab α) (i : Nat) (v : α) : (t.set i v).dflt = t.dflt := rfl

end Sys2Proof.Machine
end

