-- ==== Sys2Proof/Laws/State.lean ====
section
/-! SUPPORT. One lemma per field per update of the state's records, and what a read of a register gives after a write. -/

namespace Sys2Proof.Machine

/-! ### Part -/

@[simp] theorem Part.onDev_dev (f : Dev → Dev) (s : Part) : (s.onDev f).dev = f s.dev := rfl
@[simp] theorem Part.onDev_mems (f : Dev → Dev) (s : Part) : (s.onDev f).mems = s.mems := rfl
@[simp] theorem Part.onMems_dev (f : Mems → Mems) (s : Part) : (s.onMems f).dev = s.dev := rfl
@[simp] theorem Part.onMems_mems (f : Mems → Mems) (s : Part) : (s.onMems f).mems = f s.mems := rfl

/-! ### Registers: a write changes nothing but the register file -/

section
variable (d : Dev) (f : Fld) (p : Plane) (i j v : Nat)
@[simp] theorem Dev.wrAt_staging : (d.wrAt f p i j v).staging = d.staging := rfl
@[simp] theorem Dev.wrAt_applySets : (d.wrAt f p i j v).applySets = d.applySets := rfl
@[simp] theorem Dev.wrAt_pat : (d.wrAt f p i j v).pat = d.pat := rfl
@[simp] theorem Dev.wrAt_time : (d.wrAt f p i j v).time = d.time := rfl
@[simp] theorem Dev.wrAt_cyc : (d.wrAt f p i j v).cyc = d.cyc := rfl
@[simp] theorem Dev.wrAt_sync : (d.wrAt f p i j v).sync = d.sync := rfl
@[simp] theorem Dev.wrAt_cellar : (d.wrAt f p i j v).cellar = d.cellar := rfl
@[simp] theorem Dev.wrAt_cap : (d.wrAt f p i j v).cap = d.cap := rfl
@[simp] theorem Dev.wrAt_host : (d.wrAt f p i j v).host = d.host := rfl
@[simp] theorem Dev.wrAt_boot : (d.wrAt f p i j v).boot = d.boot := rfl
@[simp] theorem Dev.wrAt_field : (d.wrAt f p i j v).field = d.field := rfl
@[simp] theorem Dev.wrAt_saf : (d.wrAt f p i j v).saf = d.saf := rfl
@[simp] theorem Dev.wrAt_red : (d.wrAt f p i j v).red = d.red := rfl
@[simp] theorem Dev.wrAt_pwr : (d.wrAt f p i j v).pwr = d.pwr := rfl
@[simp] theorem Dev.wrAt_ring : (d.wrAt f p i j v).ring = d.ring := rfl
@[simp] theorem Dev.wrAt_planeA : (d.wrAt f p i j v).planeA = d.planeA := rfl
@[simp] theorem Dev.wrAt_planeB : (d.wrAt f p i j v).planeB = d.planeB := rfl
@[simp] theorem Dev.wrAt_free : (d.wrAt f p i j v).free = d.free := rfl
@[simp] theorem Dev.wrAt_cycNo : (d.wrAt f p i j v).cycNo = d.cycNo := rfl
@[simp] theorem Dev.wrAt_pl (q : Plane) : (d.wrAt f p i j v).pl q = d.pl q := by cases q <;> rfl
end

/-- A read of a field after a write of a field: the value cut to the width where both name one entry, else the old value. -/
theorem Dev.rdAt_wrAt (d : Dev) (f g : Fld) (p q : Plane) (i j k l v : Nat) :
    (d.wrAt g q k l v).rdAt f p i j = if g.key q k l = f.key p i j then mask g.width v else d.rdAt f p i j := by
  simp only [Dev.rdAt, Dev.wrAt, Sparse.find_put]
  split <;> rfl

theorem Dev.rdAt_wrAt_same (d : Dev) (f : Fld) (p : Plane) (i j v : Nat) :
    (d.wrAt f p i j v).rdAt f p i j = mask f.width v := by simp [Dev.rdAt_wrAt]

theorem Dev.rdAt_wrAt_ne (d : Dev) {f g : Fld} {p q : Plane} {i j k l : Nat} (v : Nat) (h : g.key q k l ≠ f.key p i j) :
    (d.wrAt g q k l v).rdAt f p i j = d.rdAt f p i j := by simp [Dev.rdAt_wrAt, h]

theorem Dev.rd_eq (d : Dev) (f : Fld) (i : Nat) : d.rd f i = d.rdAt f .A i 0 := rfl
theorem Dev.rdP_eq (d : Dev) (p : Plane) (f : Fld) (i : Nat) : d.rdP p f i = d.rdAt f p i 0 := rfl
theorem Dev.wr_eq (d : Dev) (f : Fld) (v i : Nat) : d.wr f v i = d.wrAt f .A i 0 v := rfl
theorem Dev.wrP_eq (d : Dev) (p : Plane) (f : Fld) (v i : Nat) : d.wrP p f v i = d.wrAt f p i 0 v := rfl

/-- A read depends on the register file alone. -/
theorem Dev.rdAt_congr {d e : Dev} (f : Fld) (p : Plane) (i j : Nat) (h : d.regs = e.regs) : d.rdAt f p i j = e.rdAt f p i j := by
  simp only [Dev.rdAt, h]

/-! ### Planes -/

section
variable (d : Dev) (p : Plane) (x : PlaneDev)
@[simp] theorem Dev.setPl_regs : (d.setPl p x).regs = d.regs := by cases p <;> rfl
@[simp] theorem Dev.setPl_staging : (d.setPl p x).staging = d.staging := by cases p <;> rfl
@[simp] theorem Dev.setPl_pat : (d.setPl p x).pat = d.pat := by cases p <;> rfl
@[simp] theorem Dev.setPl_time : (d.setPl p x).time = d.time := by cases p <;> rfl
@[simp] theorem Dev.setPl_cyc : (d.setPl p x).cyc = d.cyc := by cases p <;> rfl
@[simp] theorem Dev.setPl_cellar : (d.setPl p x).cellar = d.cellar := by cases p <;> rfl
@[simp] theorem Dev.setPl_host : (d.setPl p x).host = d.host := by cases p <;> rfl
@[simp] theorem Dev.setPl_boot : (d.setPl p x).boot = d.boot := by cases p <;> rfl
@[simp] theorem Dev.setPl_saf : (d.setPl p x).saf = d.saf := by cases p <;> rfl
@[simp] theorem Dev.setPl_red : (d.setPl p x).red = d.red := by cases p <;> rfl
@[simp] theorem Dev.setPl_free : (d.setPl p x).free = d.free := by cases p <;> rfl
@[simp] theorem Dev.setPl_same : (d.setPl p x).pl p = x := by cases p <;> rfl
@[simp] theorem Dev.setPl_other : (d.setPl p x).pl p.other = d.pl p.other := by cases p <;> rfl
@[simp] theorem Dev.setPl_rdAt (f : Fld) (q : Plane) (i j : Nat) : (d.setPl p x).rdAt f q i j = d.rdAt f q i j := by cases p <;> rfl
end

theorem Dev.setPl_pl (d : Dev) (p : Plane) : d.setPl p (d.pl p) = d := by cases p <;> rfl

theorem Dev.setPl_setPl (d : Dev) (p : Plane) (x y : PlaneDev) : (d.setPl p x).setPl p y = d.setPl p y := by cases p <;> rfl

/-! ### Cores -/

@[simp] theorem Dev.core_setCore (d : Dev) (p : Plane) (c : Nat) (k : Core) : (d.setCore p c k).core p c = k := by
  simp [Dev.core, Dev.setCore, Dev.updPl]

theorem Dev.core_setCore_ne (d : Dev) (p : Plane) {c e : Nat} (k : Core) (h : c ≠ e) : (d.setCore p c k).core p e = d.core p e := by
  simp [Dev.core, Dev.setCore, Dev.updPl, h]

theorem Dev.core_setCore_other (d : Dev) (p : Plane) (c e : Nat) (k : Core) :
    (d.setCore p c k).core p.other e = d.core p.other e := by simp [Dev.core, Dev.setCore, Dev.updPl]

@[simp] theorem Dev.setCore_rdAt (d : Dev) (p : Plane) (c : Nat) (k : Core) (f : Fld) (q : Plane) (i j : Nat) :
    (d.setCore p c k).rdAt f q i j = d.rdAt f q i j := by simp [Dev.setCore, Dev.updPl]

@[simp] theorem Dev.core_wrAt (d : Dev) (f : Fld) (p : Plane) (i j v : Nat) (q : Plane) (c : Nat) :
    (d.wrAt f p i j v).core q c = d.core q c := by simp [Dev.core]

/-! ### Folds keep what every step keeps -/

theorem forL_keeps {σ α : Type} (P : σ → Prop) (l : List α) (f : α → σ → σ) (h : ∀ x ∈ l, ∀ s, P s → P (f x s)) {s : σ} (hs : P s) :
    P (forL l f s) := by
  unfold forL
  induction l generalizing s with
  | nil => exact hs
  | cons x t ih =>
    exact ih (fun y hy => h y (List.mem_cons_of_mem _ hy)) (h x List.mem_cons_self s hs)

theorem forN_keeps {σ : Type} (P : σ → Prop) (n : Nat) (f : Nat → σ → σ) (h : ∀ i, i < n → ∀ s, P s → P (f i s)) {s : σ}
    (hs : P s) : P (forN n f s) := by
  have : forN n f s = forL (List.range n) f s := rfl
  rw [this]
  exact forL_keeps P _ f (fun x hx s => h x (List.mem_range.mp hx) s) hs

theorem whenD_keeps {σ : Type} (P : σ → Prop) (c : Bool) (f : σ → σ) (h : ∀ s, P s → P (f s)) {s : σ} (hs : P s) :
    P (whenD c f s) := by
  unfold whenD; split
  · exact h s hs
  · exact hs

/-! ### Memories -/

@[simp] theorem Mems.pl_setPl (m : Mems) (p : Plane) (x : PlaneMems) : (m.setPl p x).pl p = x := by cases p <;> rfl
@[simp] theorem Mems.pl_setPl_other (m : Mems) (p : Plane) (x : PlaneMems) : (m.setPl p x).pl p.other = m.pl p.other := by
  cases p <;> rfl
@[simp] theorem Mems.setPl_dram (m : Mems) (p : Plane) (x : PlaneMems) : (m.setPl p x).dram = m.dram := by cases p <;> rfl
@[simp] theorem Mems.setPl_flash (m : Mems) (p : Plane) (x : PlaneMems) : (m.setPl p x).flash = m.flash := by cases p <;> rfl
@[simp] theorem Mems.setLoc_dram (m : Mems) (p : Plane) (c : Nat) (x : Mem) : (m.setLoc p c x).dram = m.dram := by
  simp [Mems.setLoc]
@[simp] theorem Mems.setLoc_flash (m : Mems) (p : Plane) (c : Nat) (x : Mem) : (m.setLoc p c x).flash = m.flash := by
  simp [Mems.setLoc]
@[simp] theorem Mems.loc_setLoc (m : Mems) (p : Plane) (c : Nat) (x : Mem) : (m.setLoc p c x).loc p c = x := by
  simp [Mems.loc, Mems.setLoc]
@[simp] theorem Mems.setState_dram (m : Mems) (p : Plane) (x : Mem) : (m.setState p x).dram = m.dram := by simp [Mems.setState]
@[simp] theorem Mems.setState_state (m : Mems) (p : Plane) (x : Mem) : ((m.setState p x).pl p).state = x := by
  simp [Mems.setState]
@[simp] theorem Mems.setState_loc (m : Mems) (p : Plane) (x : Mem) : ((m.setState p x).pl p).loc = (m.pl p).loc := by
  simp [Mems.setState]

end Sys2Proof.Machine
end

