-- ==== Sys2Proof/Laws/Raise.lean ====
section
/-! SUPPORT. What raising a code, recording, setting an interrupt source and changing the stage do: registers and the cellar book change,
and every other part of the device stays. -/

namespace Sys2Proof.Machine

section
variable (d : Dev)

section
variable (v : Nat)
@[simp] theorem hostVector_staging : (hostVector v d).staging = d.staging := rfl
@[simp] theorem hostVector_applySets : (hostVector v d).applySets = d.applySets := rfl
@[simp] theorem hostVector_pat : (hostVector v d).pat = d.pat := rfl
@[simp] theorem hostVector_time : (hostVector v d).time = d.time := rfl
@[simp] theorem hostVector_cyc : (hostVector v d).cyc = d.cyc := rfl
@[simp] theorem hostVector_sync : (hostVector v d).sync = d.sync := rfl
@[simp] theorem hostVector_cap : (hostVector v d).cap = d.cap := rfl
@[simp] theorem hostVector_host : (hostVector v d).host = d.host := rfl
@[simp] theorem hostVector_boot : (hostVector v d).boot = d.boot := rfl
@[simp] theorem hostVector_field : (hostVector v d).field = d.field := rfl
@[simp] theorem hostVector_saf : (hostVector v d).saf = d.saf := rfl
@[simp] theorem hostVector_red : (hostVector v d).red = d.red := rfl
@[simp] theorem hostVector_pwr : (hostVector v d).pwr = d.pwr := rfl
@[simp] theorem hostVector_ring : (hostVector v d).ring = d.ring := rfl
@[simp] theorem hostVector_free : (hostVector v d).free = d.free := rfl
@[simp] theorem hostVector_cycNo : (hostVector v d).cycNo = d.cycNo := rfl
@[simp] theorem hostVector_planeA : (hostVector v d).planeA = d.planeA := rfl
@[simp] theorem hostVector_planeB : (hostVector v d).planeB = d.planeB := rfl
end

section
variable (p : Plane) (n : Nat)
@[simp] theorem icuRaise_staging : (icuRaise p n d).staging = d.staging := by unfold icuRaise; split <;> rfl
@[simp] theorem icuRaise_applySets : (icuRaise p n d).applySets = d.applySets := by unfold icuRaise; split <;> rfl
@[simp] theorem icuRaise_pat : (icuRaise p n d).pat = d.pat := by unfold icuRaise; split <;> rfl
@[simp] theorem icuRaise_time : (icuRaise p n d).time = d.time := by unfold icuRaise; split <;> rfl
@[simp] theorem icuRaise_cyc : (icuRaise p n d).cyc = d.cyc := by unfold icuRaise; split <;> rfl
@[simp] theorem icuRaise_sync : (icuRaise p n d).sync = d.sync := by unfold icuRaise; split <;> rfl
@[simp] theorem icuRaise_cap : (icuRaise p n d).cap = d.cap := by unfold icuRaise; split <;> rfl
@[simp] theorem icuRaise_host : (icuRaise p n d).host = d.host := by unfold icuRaise; split <;> rfl
@[simp] theorem icuRaise_boot : (icuRaise p n d).boot = d.boot := by unfold icuRaise; split <;> rfl
@[simp] theorem icuRaise_field : (icuRaise p n d).field = d.field := by unfold icuRaise; split <;> rfl
@[simp] theorem icuRaise_saf : (icuRaise p n d).saf = d.saf := by unfold icuRaise; split <;> rfl
@[simp] theorem icuRaise_red : (icuRaise p n d).red = d.red := by unfold icuRaise; split <;> rfl
@[simp] theorem icuRaise_pwr : (icuRaise p n d).pwr = d.pwr := by unfold icuRaise; split <;> rfl
@[simp] theorem icuRaise_ring : (icuRaise p n d).ring = d.ring := by unfold icuRaise; split <;> rfl
@[simp] theorem icuRaise_free : (icuRaise p n d).free = d.free := by unfold icuRaise; split <;> rfl
@[simp] theorem icuRaise_cycNo : (icuRaise p n d).cycNo = d.cycNo := by unfold icuRaise; split <;> rfl
@[simp] theorem icuRaise_planeA : (icuRaise p n d).planeA = d.planeA := by unfold icuRaise; split <;> rfl
@[simp] theorem icuRaise_planeB : (icuRaise p n d).planeB = d.planeB := by unfold icuRaise; split <;> rfl
@[simp] theorem icuRaise_cellar : (icuRaise p n d).cellar = d.cellar := by unfold icuRaise; split <;> rfl
end

section
variable (n : Nat)
@[simp] theorem icuBoth_staging : (icuBoth n d).staging = d.staging := by simp [icuBoth, bothPlanes]
@[simp] theorem icuBoth_applySets : (icuBoth n d).applySets = d.applySets := by simp [icuBoth, bothPlanes]
@[simp] theorem icuBoth_pat : (icuBoth n d).pat = d.pat := by simp [icuBoth, bothPlanes]
@[simp] theorem icuBoth_time : (icuBoth n d).time = d.time := by simp [icuBoth, bothPlanes]
@[simp] theorem icuBoth_cyc : (icuBoth n d).cyc = d.cyc := by simp [icuBoth, bothPlanes]
@[simp] theorem icuBoth_sync : (icuBoth n d).sync = d.sync := by simp [icuBoth, bothPlanes]
@[simp] theorem icuBoth_cap : (icuBoth n d).cap = d.cap := by simp [icuBoth, bothPlanes]
@[simp] theorem icuBoth_host : (icuBoth n d).host = d.host := by simp [icuBoth, bothPlanes]
@[simp] theorem icuBoth_boot : (icuBoth n d).boot = d.boot := by simp [icuBoth, bothPlanes]
@[simp] theorem icuBoth_field : (icuBoth n d).field = d.field := by simp [icuBoth, bothPlanes]
@[simp] theorem icuBoth_saf : (icuBoth n d).saf = d.saf := by simp [icuBoth, bothPlanes]
@[simp] theorem icuBoth_red : (icuBoth n d).red = d.red := by simp [icuBoth, bothPlanes]
@[simp] theorem icuBoth_pwr : (icuBoth n d).pwr = d.pwr := by simp [icuBoth, bothPlanes]
@[simp] theorem icuBoth_ring : (icuBoth n d).ring = d.ring := by simp [icuBoth, bothPlanes]
@[simp] theorem icuBoth_free : (icuBoth n d).free = d.free := by simp [icuBoth, bothPlanes]
@[simp] theorem icuBoth_cycNo : (icuBoth n d).cycNo = d.cycNo := by simp [icuBoth, bothPlanes]
@[simp] theorem icuBoth_planeA : (icuBoth n d).planeA = d.planeA := by simp [icuBoth, bothPlanes]
@[simp] theorem icuBoth_planeB : (icuBoth n d).planeB = d.planeB := by simp [icuBoth, bothPlanes]
@[simp] theorem icuBoth_cellar : (icuBoth n d).cellar = d.cellar := by simp [icuBoth, bothPlanes]
end

section
variable (t : T96) (b code kind w : Nat) (l : List Int)
@[simp] theorem recordAt_staging : (recordAt t b code kind w l d).staging = d.staging := by simp only [recordAt]; split <;> rfl
@[simp] theorem recordAt_applySets : (recordAt t b code kind w l d).applySets = d.applySets := by simp only [recordAt]; split <;> rfl
@[simp] theorem recordAt_pat : (recordAt t b code kind w l d).pat = d.pat := by simp only [recordAt]; split <;> rfl
@[simp] theorem recordAt_time : (recordAt t b code kind w l d).time = d.time := by simp only [recordAt]; split <;> rfl
@[simp] theorem recordAt_cyc : (recordAt t b code kind w l d).cyc = d.cyc := by simp only [recordAt]; split <;> rfl
@[simp] theorem recordAt_sync : (recordAt t b code kind w l d).sync = d.sync := by simp only [recordAt]; split <;> rfl
@[simp] theorem recordAt_cap : (recordAt t b code kind w l d).cap = d.cap := by simp only [recordAt]; split <;> rfl
@[simp] theorem recordAt_host : (recordAt t b code kind w l d).host = d.host := by simp only [recordAt]; split <;> rfl
@[simp] theorem recordAt_boot : (recordAt t b code kind w l d).boot = d.boot := by simp only [recordAt]; split <;> rfl
@[simp] theorem recordAt_field : (recordAt t b code kind w l d).field = d.field := by simp only [recordAt]; split <;> rfl
@[simp] theorem recordAt_saf : (recordAt t b code kind w l d).saf = d.saf := by simp only [recordAt]; split <;> rfl
@[simp] theorem recordAt_red : (recordAt t b code kind w l d).red = d.red := by simp only [recordAt]; split <;> rfl
@[simp] theorem recordAt_pwr : (recordAt t b code kind w l d).pwr = d.pwr := by simp only [recordAt]; split <;> rfl
@[simp] theorem recordAt_ring : (recordAt t b code kind w l d).ring = d.ring := by simp only [recordAt]; split <;> rfl
@[simp] theorem recordAt_free : (recordAt t b code kind w l d).free = d.free := by simp only [recordAt]; split <;> rfl
@[simp] theorem recordAt_cycNo : (recordAt t b code kind w l d).cycNo = d.cycNo := by simp only [recordAt]; split <;> rfl
@[simp] theorem recordAt_planeA : (recordAt t b code kind w l d).planeA = d.planeA := by simp only [recordAt]; split <;> rfl
@[simp] theorem recordAt_planeB : (recordAt t b code kind w l d).planeB = d.planeB := by simp only [recordAt]; split <;> rfl
end

section
variable (c : Code)
@[simp] theorem noteFault_staging : (noteFault c d).staging = d.staging := by unfold noteFault; split <;> rfl
@[simp] theorem noteFault_applySets : (noteFault c d).applySets = d.applySets := by unfold noteFault; split <;> rfl
@[simp] theorem noteFault_pat : (noteFault c d).pat = d.pat := by unfold noteFault; split <;> rfl
@[simp] theorem noteFault_time : (noteFault c d).time = d.time := by unfold noteFault; split <;> rfl
@[simp] theorem noteFault_cyc : (noteFault c d).cyc = d.cyc := by unfold noteFault; split <;> rfl
@[simp] theorem noteFault_sync : (noteFault c d).sync = d.sync := by unfold noteFault; split <;> rfl
@[simp] theorem noteFault_cap : (noteFault c d).cap = d.cap := by unfold noteFault; split <;> rfl
@[simp] theorem noteFault_host : (noteFault c d).host = d.host := by unfold noteFault; split <;> rfl
@[simp] theorem noteFault_boot : (noteFault c d).boot = d.boot := by unfold noteFault; split <;> rfl
@[simp] theorem noteFault_field : (noteFault c d).field = d.field := by unfold noteFault; split <;> rfl
@[simp] theorem noteFault_saf : (noteFault c d).saf = d.saf := by unfold noteFault; split <;> rfl
@[simp] theorem noteFault_red : (noteFault c d).red = d.red := by unfold noteFault; split <;> rfl
@[simp] theorem noteFault_pwr : (noteFault c d).pwr = d.pwr := by unfold noteFault; split <;> rfl
@[simp] theorem noteFault_ring : (noteFault c d).ring = d.ring := by unfold noteFault; split <;> rfl
@[simp] theorem noteFault_free : (noteFault c d).free = d.free := by unfold noteFault; split <;> rfl
@[simp] theorem noteFault_cycNo : (noteFault c d).cycNo = d.cycNo := by unfold noteFault; split <;> rfl
@[simp] theorem noteFault_planeA : (noteFault c d).planeA = d.planeA := by unfold noteFault; split <;> rfl
@[simp] theorem noteFault_planeB : (noteFault c d).planeB = d.planeB := by unfold noteFault; split <;> rfl
@[simp] theorem noteFault_cellar : (noteFault c d).cellar = d.cellar := by unfold noteFault; split <;> rfl
end

section
variable (c : Code) (w : Nat) (l : List Int)
@[simp] theorem raise_staging : (raise c w l d).staging = d.staging := by unfold raise; dsimp only; split <;> simp [record]
@[simp] theorem raise_applySets : (raise c w l d).applySets = d.applySets := by unfold raise; dsimp only; split <;> simp [record]
@[simp] theorem raise_pat : (raise c w l d).pat = d.pat := by unfold raise; dsimp only; split <;> simp [record]
@[simp] theorem raise_time : (raise c w l d).time = d.time := by unfold raise; dsimp only; split <;> simp [record]
@[simp] theorem raise_cyc : (raise c w l d).cyc = d.cyc := by unfold raise; dsimp only; split <;> simp [record]
@[simp] theorem raise_sync : (raise c w l d).sync = d.sync := by unfold raise; dsimp only; split <;> simp [record]
@[simp] theorem raise_cap : (raise c w l d).cap = d.cap := by unfold raise; dsimp only; split <;> simp [record]
@[simp] theorem raise_host : (raise c w l d).host = d.host := by unfold raise; dsimp only; split <;> simp [record]
@[simp] theorem raise_boot : (raise c w l d).boot = d.boot := by unfold raise; dsimp only; split <;> simp [record]
@[simp] theorem raise_field : (raise c w l d).field = d.field := by unfold raise; dsimp only; split <;> simp [record]
@[simp] theorem raise_saf : (raise c w l d).saf = d.saf := by unfold raise; dsimp only; split <;> simp [record]
@[simp] theorem raise_red : (raise c w l d).red = d.red := by unfold raise; dsimp only; split <;> simp [record]
@[simp] theorem raise_pwr : (raise c w l d).pwr = d.pwr := by unfold raise; dsimp only; split <;> simp [record]
@[simp] theorem raise_ring : (raise c w l d).ring = d.ring := by unfold raise; dsimp only; split <;> simp [record]
@[simp] theorem raise_free : (raise c w l d).free = d.free := by unfold raise; dsimp only; split <;> simp [record]
@[simp] theorem raise_cycNo : (raise c w l d).cycNo = d.cycNo := by unfold raise; dsimp only; split <;> simp [record]
@[simp] theorem raise_planeA : (raise c w l d).planeA = d.planeA := by unfold raise; dsimp only; split <;> simp [record]
@[simp] theorem raise_planeB : (raise c w l d).planeB = d.planeB := by unfold raise; dsimp only; split <;> simp [record]
end

section
variable (s : Nat)
@[simp] theorem setStage_staging : (setStage s d).staging = d.staging := by unfold setStage; dsimp only; split <;> simp [record, Dev.wr]
@[simp] theorem setStage_applySets : (setStage s d).applySets = d.applySets := by unfold setStage; dsimp only; split <;> simp [record, Dev.wr]
@[simp] theorem setStage_pat : (setStage s d).pat = d.pat := by unfold setStage; dsimp only; split <;> simp [record, Dev.wr]
@[simp] theorem setStage_time : (setStage s d).time = d.time := by unfold setStage; dsimp only; split <;> simp [record, Dev.wr]
@[simp] theorem setStage_cyc : (setStage s d).cyc = d.cyc := by unfold setStage; dsimp only; split <;> simp [record, Dev.wr]
@[simp] theorem setStage_sync : (setStage s d).sync = d.sync := by unfold setStage; dsimp only; split <;> simp [record, Dev.wr]
@[simp] theorem setStage_cap : (setStage s d).cap = d.cap := by unfold setStage; dsimp only; split <;> simp [record, Dev.wr]
@[simp] theorem setStage_host : (setStage s d).host = d.host := by unfold setStage; dsimp only; split <;> simp [record, Dev.wr]
@[simp] theorem setStage_boot : (setStage s d).boot = d.boot := by unfold setStage; dsimp only; split <;> simp [record, Dev.wr]
@[simp] theorem setStage_field : (setStage s d).field = d.field := by unfold setStage; dsimp only; split <;> simp [record, Dev.wr]
@[simp] theorem setStage_saf : (setStage s d).saf = d.saf := by unfold setStage; dsimp only; split <;> simp [record, Dev.wr]
@[simp] theorem setStage_red : (setStage s d).red = d.red := by unfold setStage; dsimp only; split <;> simp [record, Dev.wr]
@[simp] theorem setStage_pwr : (setStage s d).pwr = d.pwr := by unfold setStage; dsimp only; split <;> simp [record, Dev.wr]
@[simp] theorem setStage_ring : (setStage s d).ring = d.ring := by unfold setStage; dsimp only; split <;> simp [record, Dev.wr]
@[simp] theorem setStage_free : (setStage s d).free = d.free := by unfold setStage; dsimp only; split <;> simp [record, Dev.wr]
@[simp] theorem setStage_cycNo : (setStage s d).cycNo = d.cycNo := by unfold setStage; dsimp only; split <;> simp [record, Dev.wr]
@[simp] theorem setStage_planeA : (setStage s d).planeA = d.planeA := by unfold setStage; dsimp only; split <;> simp [record, Dev.wr]
@[simp] theorem setStage_planeB : (setStage s d).planeB = d.planeB := by unfold setStage; dsimp only; split <;> simp [record, Dev.wr]
end

end

/-! ### Registers

A record may count in CEL_LOSS; a fault is shown in LAST_FAULT and the host vector of faults; a source has PEND and MERGED in each plane.
Every other register stays. -/

/-- The field is none of those that a record or a fault writes. -/
def Fld.calm (f : Fld) (p : Plane) (i j : Nat) : Bool :=
  f.key p i j != Fld.CEL_LOSS.key .A 0 0 && f.key p i j != Fld.SYS_STATE_LAST_FAULT.key .A 0 0 &&
    f.key p i j != Fld.HST_IRQ_PEND.key .A 0 0

/-- The field is neither PEND nor MERGED of source `n` of plane `q`. -/
def Fld.notSrc (f : Fld) (p : Plane) (i j : Nat) (q : Plane) (n : Nat) : Bool :=
  f.key p i j != Fld.ICU_SRC_PEND.key q n 0 && f.key p i j != Fld.ICU_SRC_MERGED.key q n 0

section
variable (d : Dev) {f : Fld} {p : Plane} {i j : Nat}

theorem hostVector_rdAt (v : Nat) (h : f.calm p i j = true) : (hostVector v d).rdAt f p i j = d.rdAt f p i j := by
  simp only [Fld.calm, Bool.and_eq_true, bne_iff_ne] at h
  exact Dev.rdAt_wrAt_ne _ _ (Ne.symm h.2)

theorem recordAt_rdAt (t : T96) (b code kind w : Nat) (l : List Int) (h : f.calm p i j = true) :
    (recordAt t b code kind w l d).rdAt f p i j = d.rdAt f p i j := by
  simp only [Fld.calm, Bool.and_eq_true, bne_iff_ne] at h
  simp only [recordAt]
  split
  · rfl
  · exact Dev.rdAt_wrAt_ne d _ (Ne.symm h.1.1)

theorem record_rdAt (code kind w : Nat) (l : List Int) (h : f.calm p i j = true) :
    (record code kind w l d).rdAt f p i j = d.rdAt f p i j := recordAt_rdAt d _ _ _ _ _ _ h

theorem noteFault_rdAt (c : Code) (h : f.calm p i j = true) : (noteFault c d).rdAt f p i j = d.rdAt f p i j := by
  unfold noteFault
  split
  · rw [hostVector_rdAt _ _ h]
    simp only [Fld.calm, Bool.and_eq_true, bne_iff_ne] at h
    exact Dev.rdAt_wrAt_ne _ _ (Ne.symm h.1.2)
  · rfl

theorem icuRaise_rdAt (q : Plane) (n : Nat) (h : f.notSrc p i j q n = true) : (icuRaise q n d).rdAt f p i j = d.rdAt f p i j := by
  simp only [Fld.notSrc, Bool.and_eq_true, bne_iff_ne] at h
  unfold icuRaise
  split
  · exact Dev.rdAt_wrAt_ne _ _ (Ne.symm h.2)
  · exact Dev.rdAt_wrAt_ne _ _ (Ne.symm h.1)

theorem icuBoth_rdAt (n : Nat) (ha : f.notSrc p i j .A n = true) (hb : f.notSrc p i j .B n = true) :
    (icuBoth n d).rdAt f p i j = d.rdAt f p i j := by
  unfold icuBoth bothPlanes
  rw [icuRaise_rdAt _ _ _ hb, icuRaise_rdAt _ _ _ ha]

/-- Raising a code changes no other register. -/
theorem raise_rdAt (c : Code) (w : Nat) (l : List Int) (h : f.calm p i j = true)
    (hs : ∀ q, ∀ n ∈ c.irq, f.notSrc p i j q n = true) : (raise c w l d).rdAt f p i j = d.rdAt f p i j := by
  unfold raise
  dsimp only
  split
  · next n hn => rw [icuBoth_rdAt _ _ (hs .A n hn) (hs .B n hn), noteFault_rdAt _ _ h, record_rdAt _ _ _ _ _ h]
  · rw [noteFault_rdAt _ _ h, record_rdAt _ _ _ _ _ h]

@[simp] theorem formRec_rdAt (q : Plane) (code : Nat) (l : List Int) : (formRec q code l d).rdAt f p i j = d.rdAt f p i j := by
  simp [formRec, Dev.updPl]

theorem raiseP_rdAt (q : Plane) (c : Code) (l : List Int) (h : f.calm p i j = true)
    (hs : ∀ n ∈ c.irq, f.notSrc p i j q n = true) : (raiseP q c l d).rdAt f p i j = d.rdAt f p i j := by
  have h1 : ∀ e : Dev, (if e.active = q then noteFault c (record c.num c.kind.num wPlane l e) else e).rdAt f p i j = e.rdAt f p i j := by
    intro e
    split
    · rw [noteFault_rdAt _ _ h, record_rdAt _ _ _ _ _ h]
    · rfl
  unfold raiseP
  dsimp only
  split
  · next n hn => rw [icuRaise_rdAt _ _ _ (hs n hn), h1, formRec_rdAt]
  · rw [h1, formRec_rdAt]

/-- A stage change writes STAGE in its two places alone. -/
theorem setStage_stage (s : Nat) (h : s < 16) : (setStage s d).rd .SYS_STATE_STAGE = s := by
  unfold setStage
  dsimp only
  split
  · next h1 => exact h1
  · rw [Dev.rd_eq, record_rdAt _ _ _ _ _ (by decide), Dev.wr_eq, Dev.rdAt_wrAt_ne _ _ (by decide), Dev.wr_eq, Dev.rdAt_wrAt_same]
    exact Nat.mod_eq_of_lt h
end

end Sys2Proof.Machine
end

