-- ==== Sys2Proof/Laws/Cores.lean ====
section
/-! SUPPORT. What an FD32 instruction of an active core does, said once for each shape: a register result, an accumulator result, an
exception. -/

namespace Sys2Proof.Machine

/-! ### Registers of a core -/

theorem Core.rg_wg (k : Core) (d : Nat) (v : Word) (i : Nat) : (k.wg d v).rg i = if i = d ∧ i ≠ 0 then v else k.rg i := by
  unfold Core.wg Core.rg
  by_cases hd : d = 0
  · subst hd; by_cases hi : i = 0 <;> simp [hi]
  · by_cases hi : i = 0
    · subst hi; simp
    · simp only [hd, hi, if_false, Tab.get_set]
      by_cases h : i = d
      · simp [h, hd]
      · simp [h, Ne.symm h]

theorem Core.ra_wa (k : Core) (n : Nat) (v : Acc) (i : Nat) : (k.wa n v).ra i = if i = n then v else k.ra i := by
  simp only [Core.wa, Core.ra, Tab.get_set]
  by_cases h : i = n
  · simp [h]
  · simp [h, Ne.symm h]

theorem Core.rp_wp (k : Core) (n : Nat) (v : Word) (i : Nat) : (k.wp n v).rp i = if i = n then v else k.rp i := by
  simp only [Core.wp, Core.rp, Tab.get_set]
  by_cases h : i = n
  · simp [h]
  · simp [h, Ne.symm h]

theorem Core.rm_wm (k : Core) (n : Nat) (v : Word) (i : Nat) : (k.wm n v).rm i = if i = n then v else k.rm i := by
  simp only [Core.wm, Core.rm, Tab.get_set]
  by_cases h : i = n
  · simp [h]
  · simp [h, Ne.symm h]

/-- A flag record as bits of CSW. -/
def FlagOut.bits (f : FlagOut) : Word :=
  (if f.v then 0x10 else 0) ||| (if f.sat then 0x20 else 0) ||| (if f.aov then 0x40 else 0) ||| (if f.dz then 0x80 else 0)

theorem cswFlags_bits (w : Word) (f : FlagOut) : cswFlags w f = w ||| f.bits := by simp [cswFlags, FlagOut.bits, BitVec.or_assoc]

@[simp] theorem FlagOut.bits_none : FlagOut.bits {} = 0 := by decide

theorem Core.wg_writesG (k : Core) (d : Nat) (v : Word) : k.writesG (k.wg d v).next d v 0 := by
  refine ⟨?_, fun i => k.rg_wg d v i⟩
  unfold Core.next Core.wg; split <;> simp

/-- A result with flags. -/
theorem Core.flag_writesG (k : Core) (d : Nat) (v : Word) (f : FlagOut) : k.writesG ((k.wg d v).flag f).next d v f.bits := by
  refine ⟨?_, fun i => k.rg_wg d v i⟩
  have h : (k.wg d v).csw = k.csw := by unfold Core.wg; split <;> rfl
  simp only [Core.next, Core.flag, cswFlags_bits, h]
  unfold Core.wg; split <;> simp

theorem Core.flag_writesA (k : Core) (n : Nat) (v : Acc) (f : FlagOut) : k.writesA ((k.wa n v).flag f).next n v f.bits := by
  refine ⟨?_, fun i => k.ra_wa n v i⟩
  simp only [Core.next, Core.flag, cswFlags_bits, Core.wa]

theorem Core.wa_writesA (k : Core) (n : Nat) (v : Acc) : k.writesA (k.wa n v).next n v 0 := by
  refine ⟨?_, fun i => k.ra_wa n v i⟩
  simp [Core.next, Core.wa]

/-! ### Completion -/

theorem RunsCore.of_do {i : Instr} {p : Plane} {c : Nat} {s : State} {f : Core → CoreRes} {k : Core} {post : Core → Core → Prop}
    (ha : s.part.dev.coreActive p c = true) (h : exec i s = doDev (instrDo p c f) s)
    (hf : f (s.part.dev.core p c) = .done k) (hp : post (s.part.dev.core p c) k) : RunsCore i p c s post :=
  ⟨s.part.onDev (instrDo p c f), h, rfl, k, by simp [instrDo, ha, hf], hp⟩

theorem RunsCore.of_reg {i : Instr} {p : Plane} {c : Nat} {s : State} {f : Core → Core} {post : Core → Core → Prop}
    (ha : s.part.dev.coreActive p c = true) (h : exec i s = doDev (instrReg p c f) s)
    (hp : post (s.part.dev.core p c) (f (s.part.dev.core p c)).next) : RunsCore i p c s post :=
  RunsCore.of_do ha h rfl hp

/-! ### Exceptions -/

/-- An instruction that raises an exception takes it (R432 to R434). -/
theorem instrDo_exc {p : Plane} {c : Nat} {d : Dev} {f : Core → CoreRes} {x : Exc} (ha : d.coreActive p c = true)
    (hf : f (d.core p c) = .exc x) : instrDo p c f d = takeExc p c (d.core p c) x (d.core p c).pc d := by
  simp [instrDo, ha, hf]

/-- Raising a code in a plane leaves every core as it is. -/
@[simp] theorem raiseP_core (p : Plane) (x : Code) (l : List Int) (d : Dev) (q : Plane) (c : Nat) :
    (raiseP p x l d).core q c = d.core q c := by
  have h1 : ∀ e : Dev, (noteFault x (record x.num x.kind.num wPlane l e)).core q c = e.core q c := by
    intro e; simp [Dev.core, Dev.pl, record]
  have h2 : (formRec p x.num l d).core q c = d.core q c := by
    cases p <;> cases q <;> rfl
  have h3 : ∀ (n : Nat) (e : Dev), (icuRaise p n e).core q c = e.core q c := by
    intro n e; simp [Dev.core, Dev.pl]
  unfold raiseP
  dsimp only
  split
  · rw [h3]
    split
    · exact (h1 _).trans h2
    · exact h2
  · split
    · exact (h1 _).trans h2
    · exact h2

theorem wset_exc_ie (w : Word) : wset (wset w cswExc true) cswIe false = (w ||| 0x8) &&& 0xFFFFFFFD := rfl

/-- The registers after an exception is taken (R433), EXC having been 0. -/
theorem takeExc_entered {p : Plane} {c : Nat} {k : Core} {x : Exc} {epc : Word} {d : Dev} (he : k.csw.getLsbD 3 = false)
    (hc : x.cause < 16) (ht : x.trapno < 256) (hn : x.code.num < 65536) :
    k.entered ((takeExc p c k x epc d).core p c) x.cause x.code.num x.trapno epc (BitVec.ofNat 32 x.eaddr) := by
  have h : wbit k.csw cswExc = false := he
  simp only [takeExc, h, Bool.false_eq_true, if_false, raiseP_core, Dev.core_setCore, Core.entered, Core.enter, wset_exc_ie,
    Exc.ecause, Nat.mod_eq_of_lt hc, Nat.mod_eq_of_lt ht, Nat.mod_eq_of_lt hn, Nat.mul_comm 16, Nat.mul_comm 256,
    Nat.mul_comm 65536]

/-- A second exception halts the core (R434). -/
theorem takeExc_halts {p : Plane} {c : Nat} {k : Core} {x : Exc} {epc : Word} {d : Dev} (he : k.csw.getLsbD 3 = true) :
    (takeExc p c k x epc d).core p c = { k with halted := true, step := false } := by
  have h : wbit k.csw cswExc = true := he
  simp only [takeExc, h, if_true, raiseP_core, Dev.core_setCore]

end Sys2Proof.Machine
end

