-- ==== Sys2Proof/Laws/Mem.lean ====
section
/-! SUPPORT. Laws of the byte memories: what a byte reads as after a write, and that every operation keeps the canonical form. -/

namespace Sys2Proof.Machine

theorem Mem.wf_iff (m : Mem) : m.wf = true ↔ Sparse.rising m = true ∧ ∀ e ∈ m, e.2 ≠ 0 := by
  simp [Mem.wf, List.all_eq_true, Prod.forall]

theorem Mem.wf_nil : Mem.wf [] = true := rfl

theorem Mem.put_wf {m : Mem} (a : Nat) (b : Byte) (h : m.wf = true) : (m.put a b).wf = true := by
  obtain ⟨hr, hz⟩ := (Mem.wf_iff m).mp h
  refine (Mem.wf_iff _).mpr ?_
  unfold Mem.put
  split
  · exact ⟨Sparse.rising_del m a hr, fun e he => hz e (Sparse.mem_del he)⟩
  · next hb =>
    refine ⟨Sparse.rising_put m a b hr, fun e he => ?_⟩
    rcases Sparse.mem_put he with he | he
    · subst he; exact hb
    · exact hz e he

theorem Mem.filter_wf {m : Mem} (f : Nat × Byte → Bool) (h : m.wf = true) : Mem.wf (m.filter f) = true := by
  obtain ⟨hr, hz⟩ := (Mem.wf_iff m).mp h
  exact (Mem.wf_iff _).mpr ⟨Sparse.rising_filter m f hr, fun e he => hz e (List.mem_filter.mp he).1⟩

theorem Mem.write_wf {m : Mem} (a n v : Nat) (h : m.wf = true) : (m.write a n v).wf = true := by
  induction n generalizing m a v with
  | zero => exact h
  | succ n ih => exact ih _ _ (Mem.put_wf _ _ h)

theorem Mem.writeBytes_wf {m : Mem} (a : Nat) (l : List Byte) (h : m.wf = true) : (m.writeBytes a l).wf = true := by
  induction l generalizing m a with
  | nil => exact h
  | cons b t ih => exact ih _ (Mem.put_wf _ _ h)

theorem Mem.zeroRange_wf {m : Mem} (lo hi : Nat) (h : m.wf = true) : (m.zeroRange lo hi).wf = true := Mem.filter_wf _ h

/-- A fold of puts keeps the canonical form. -/
theorem Mem.foldPut_wf {α : Type} (f : α → Nat) (g : α → Byte) (l : List α) {m : Mem} (h : m.wf = true) :
    (l.foldl (fun (m : Mem) e => m.put (f e) (g e)) m).wf = true := by
  induction l generalizing m with
  | nil => exact h
  | cons x t ih => exact ih (Mem.put_wf _ _ h)

theorem Mem.copyRange_wf (src : Mem) {dst : Mem} (lo hi : Nat) (h : dst.wf = true) : (src.copyRange dst lo hi).wf = true :=
  Mem.foldPut_wf (fun (e : Nat × Byte) => e.1) (fun e => e.2) _ (Mem.filter_wf _ h)

/-! ### What a byte reads as -/

theorem Mem.byte_put {m : Mem} (a x : Nat) (b : Byte) (h : m.wf = true) :
    (m.put a b).byte x = if a = x then b else m.byte x := by
  obtain ⟨hr, _⟩ := (Mem.wf_iff m).mp h
  unfold Mem.put Mem.byte
  split
  · next hb =>
    subst hb
    rw [Sparse.find_del m a x hr]
    by_cases h : a = x <;> simp [h]
  · rw [Sparse.find_put]
    by_cases h : a = x <;> simp [h]

theorem Mem.byte_write {m : Mem} (a n v x : Nat) (h : m.wf = true) :
    (m.write a n v).byte x = if a ≤ x ∧ x < a + n then BitVec.ofNat 8 (v / 256 ^ (x - a)) else m.byte x := by
  induction n generalizing m a v with
  | zero => rw [if_neg (by omega)]; rfl
  | succ n ih =>
    simp only [Mem.write]
    rw [ih (a + 1) (v / 256) (Mem.put_wf _ _ h), Mem.byte_put _ _ _ h]
    by_cases h1 : a = x
    · subst h1
      rw [if_neg (by omega), if_pos rfl, if_pos (by omega), Nat.sub_self, Nat.pow_zero, Nat.div_one]
    · by_cases h2 : a + 1 ≤ x ∧ x < a + 1 + n
      · obtain ⟨k, rfl⟩ : ∃ k, x = a + 1 + k := ⟨x - (a + 1), by omega⟩
        rw [if_pos h2, if_pos (by omega)]
        congr 1
        rw [show a + 1 + k - a = k + 1 by omega, show a + 1 + k - (a + 1) = k by omega, Nat.pow_succ, Nat.mul_comm,
          Nat.div_div_eq_div_mul]
      · rw [if_neg h2, if_neg h1, if_neg (by omega)]

theorem Mem.byte_write_outside {m : Mem} {a n v x : Nat} (h : m.wf = true) (hx : x < a ∨ a + n ≤ x) :
    (m.write a n v).byte x = m.byte x := by
  rw [Mem.byte_write a n v x h, if_neg (by omega)]

theorem Mem.read_congr {m m' : Mem} (a n : Nat) (h : ∀ x, a ≤ x → x < a + n → m.byte x = m'.byte x) :
    m.read a n = m'.read a n := by
  induction n generalizing a with
  | zero => rfl
  | succ n ih =>
    simp only [Mem.read]
    rw [h a (Nat.le_refl a) (by omega), ih (a + 1) (fun x h1 h2 => h x (by omega) (by omega))]

theorem Mem.read_write_same {m : Mem} (a n v : Nat) (h : m.wf = true) : (m.write a n v).read a n = v % 256 ^ n := by
  induction n generalizing m a v with
  | zero => simp [Mem.read, Nat.mod_one]
  | succ n ih =>
    have hb : (m.write a (n + 1) v).byte a = BitVec.ofNat 8 v := by
      rw [Mem.byte_write _ _ _ _ h]; simp
    simp only [Mem.read, hb]
    simp only [Mem.write]
    rw [ih (a + 1) (v / 256) (Mem.put_wf _ _ h), BitVec.toNat_ofNat]
    rw [show (256 : Nat) ^ (n + 1) = 256 * 256 ^ n by rw [Nat.pow_succ, Nat.mul_comm], Nat.mod_mul]

end Sys2Proof.Machine
end

