-- ==== Sys2Proof/Laws/MemWf.lean ====
section
/-! SUPPORT. Every operation on the memories of the part keeps their canonical form: the operations that the commands share, each with
one lemma. -/

namespace Sys2Proof.Machine

theorem PlaneMems.wf_iff (x : PlaneMems) : x.wf = true ↔
    x.state.wf = true ∧ x.loc.dflt.wf = true ∧ Sparse.rising x.loc.cells = true ∧ ∀ e ∈ x.loc.cells, e.2.wf = true := by
  simp [PlaneMems.wf, List.all_eq_true, and_assoc]

theorem Mems.wf_iff (m : Mems) : m.wf = true ↔ m.a.wf = true ∧ m.b.wf = true ∧ m.dram.wf = true ∧ m.flash.wf = true := by
  simp [Mems.wf, and_assoc]

theorem Sparse.find_mem {α : Type} {m : Sparse α} {k : Nat} {v : α} (h : Sparse.find m k = some v) : (k, v) ∈ m := by
  induction m with
  | nil => simp [Sparse.find] at h
  | cons x t ih =>
    obtain ⟨j, w⟩ := x
    simp only [Sparse.find] at h
    split at h
    · next he => subst he; injection h with h; subst h; exact List.mem_cons_self
    · exact List.mem_cons_of_mem _ (ih h)

theorem PlaneMems.loc_wf {x : PlaneMems} (h : x.wf = true) (c : Nat) : (x.loc.get c).wf = true := by
  obtain ⟨_, hd, _, hc⟩ := (PlaneMems.wf_iff x).mp h
  unfold Tab.get
  cases hf : Sparse.find x.loc.cells c with
  | none => exact hd
  | some v => exact hc _ (Sparse.find_mem hf)

theorem PlaneMems.setLoc_wf {x : PlaneMems} (h : x.wf = true) (c : Nat) {m : Mem} (hm : m.wf = true) :
    PlaneMems.wf { x with loc := x.loc.set c m } = true := by
  obtain ⟨hs, hd, hr, hc⟩ := (PlaneMems.wf_iff x).mp h
  refine (PlaneMems.wf_iff _).mpr ⟨hs, hd, Sparse.rising_put _ _ _ hr, fun e he => ?_⟩
  rcases Sparse.mem_put he with he | he
  · subst he; exact hm
  · exact hc e he

theorem Mems.pl_wf {m : Mems} (h : m.wf = true) (p : Plane) : (m.pl p).wf = true := by
  obtain ⟨ha, hb, _⟩ := (Mems.wf_iff m).mp h
  cases p
  · exact ha
  · exact hb

theorem Mems.setPl_wf {m : Mems} (h : m.wf = true) (p : Plane) {x : PlaneMems} (hx : x.wf = true) : (m.setPl p x).wf = true := by
  obtain ⟨ha, hb, hd, hf⟩ := (Mems.wf_iff m).mp h
  cases p
  · exact (Mems.wf_iff _).mpr ⟨hx, hb, hd, hf⟩
  · exact (Mems.wf_iff _).mpr ⟨ha, hx, hd, hf⟩

theorem Mems.loc_wf {m : Mems} (h : m.wf = true) (p : Plane) (c : Nat) : (m.loc p c).wf = true := PlaneMems.loc_wf (Mems.pl_wf h p) c

theorem Mems.state_wf {m : Mems} (h : m.wf = true) (p : Plane) : (m.pl p).state.wf = true :=
  ((PlaneMems.wf_iff _).mp (Mems.pl_wf h p)).1

theorem Mems.setLoc_wf {m : Mems} (h : m.wf = true) (p : Plane) (c : Nat) {x : Mem} (hx : x.wf = true) : (m.setLoc p c x).wf = true :=
  Mems.setPl_wf h p (PlaneMems.setLoc_wf (Mems.pl_wf h p) c hx)

theorem Mems.setState_wf {m : Mems} (h : m.wf = true) (p : Plane) {x : Mem} (hx : x.wf = true) : (m.setState p x).wf = true := by
  obtain ⟨_, hd, hr, hc⟩ := (PlaneMems.wf_iff _).mp (Mems.pl_wf h p)
  exact Mems.setPl_wf h p ((PlaneMems.wf_iff _).mpr ⟨hx, hd, hr, hc⟩)

theorem Mems.setDram_wf {m : Mems} (h : m.wf = true) {x : Mem} (hx : x.wf = true) : Mems.wf { m with dram := x } = true := by
  obtain ⟨ha, hb, _, hf⟩ := (Mems.wf_iff m).mp h
  exact (Mems.wf_iff _).mpr ⟨ha, hb, hx, hf⟩

theorem Mems.setFlash_wf {m : Mems} (h : m.wf = true) {x : Mem} (hx : x.wf = true) : Mems.wf { m with flash := x } = true := by
  obtain ⟨ha, hb, hd, _⟩ := (Mems.wf_iff m).mp h
  exact (Mems.wf_iff _).mpr ⟨ha, hb, hd, hx⟩

theorem Mems.dram_wf {m : Mems} (h : m.wf = true) : m.dram.wf = true := ((Mems.wf_iff m).mp h).2.2.1
theorem Mems.flash_wf {m : Mems} (h : m.wf = true) : m.flash.wf = true := ((Mems.wf_iff m).mp h).2.2.2

theorem PlaneMems.empty_wf : PlaneMems.wf {} = true := rfl
theorem Mems.empty_wf : Mems.wf {} = true := rfl

/-- The memories of a part are in canonical form. -/
def Part.memWf (s : Part) : Prop := s.mems.wf = true

theorem Part.onDev_memWf (f : Dev → Dev) {s : Part} (h : s.memWf) : (s.onDev f).memWf := h

/-! ### Bank power -/

theorem bankBoundary_memWf (p : Plane) {s : Part} (h : s.memWf) : (bankBoundary p s).memWf := by
  unfold bankBoundary
  refine Part.onDev_memWf _ (forN_keeps Part.memWf 32 _ (fun b _ s hs => ?_) h)
  split
  · exact hs
  · simp only [Part.memWf]
    split
    · exact Mems.setState_wf hs p (Mem.zeroRange_wf _ _ (Mems.state_wf hs p))
    · exact hs

end Sys2Proof.Machine
end

