-- ==== Sys2Proof/Laws/MemWfUnits.lean ====
section
/-! SUPPORT. The units of the part keep the memories in canonical form: capture and the cellar book, the dispatcher and the ICU, and
the accesses of a core. -/

namespace Sys2Proof.Machine

/-! ### Capture and the cellar book -/

theorem capAppend_memWf (bs : List Byte) (mark : Bool) {s : Part} (h : s.memWf) : (capAppend bs mark s).memWf := by
  simp only [capAppend, Part.memWf, apply_ite Part.mems]
  split
  · exact h
  · exact Mems.setDram_wf h (Mem.writeBytes_wf _ _ (Mems.dram_wf h))

theorem capWrite_memWf (r : CapRec) {s : Part} (h : s.memWf) : (capWrite r s).memWf := by
  unfold capWrite
  have h1 : (if s.dev.rd .CAP_SIZE - s.dev.cap.written % s.dev.rd .CAP_SIZE <
      (capBytes s.dev.capBase s.dev.cap.tRef r).length then capAppend (padBytes s.dev.capBase) false s else s).memWf := by
    split
    · exact capAppend_memWf _ _ h
    · exact h
  cases r with
  | ord c t v => exact capAppend_memWf _ _ h1
  | esc k a t =>
    simp only
    split
    · exact capAppend_memWf _ _ h1
    · exact Part.onDev_memWf _ (capAppend_memWf _ _ h1)

theorem capOrd_memWf (c : Nat) (t : T96) (v : Int) {s : Part} (h : s.memWf) : (capOrd c t v s).memWf := by
  unfold capOrd
  refine Part.onDev_memWf _ (capWrite_memWf _ ?_)
  split
  · exact capWrite_memWf _ h
  · exact h

theorem refresh_memWf (chs : List Nat) {s : Part} (h : s.memWf) : (refresh chs s).memWf :=
  forL_keeps Part.memWf _ _ (fun _ _ _ hs => capOrd_memWf _ _ _ hs) h

theorem fire_memWf (n : Nat) (t : T96) {s : Part} (h : s.memWf) : (fire n t s).memWf := by
  unfold fire
  split
  · exact h
  · refine Part.onDev_memWf _ ?_
    split
    · exact capWrite_memWf _ h
    · exact h

theorem testSample_memWf (c : Nat) (v : Int) (t : T96) {s : Part} (h : s.memWf) : (testSample c v t s).memWf := by
  unfold testSample
  split
  · exact h
  · refine forN_keeps Part.memWf 16 _ (fun n _ s hs => ?_) h
    split
    · split
      · exact fire_memWf _ _ hs
      · exact hs
    · exact hs

theorem takeSample_memWf (c : Nat) (v : Int) (t : T96) {s : Part} (h : s.memWf) : (takeSample c v t s).memWf :=
  Part.onDev_memWf _ (testSample_memWf c v t h)

theorem internalSample_memWf (c : Nat) {s : Part} (h : s.memWf) : (internalSample c s).memWf := by
  unfold internalSample
  split
  · refine takeSample_memWf _ _ _ ?_
    split
    · exact capOrd_memWf _ _ _ h
    · exact h
  · exact h

theorem flushHeld_memWf {s : Part} (h : s.memWf) : (flushHeld s).memWf := by
  unfold flushHeld
  refine forL_keeps Part.memWf _ _ (fun r _ s hs => ?_) (Part.onDev_memWf _ h)
  split
  · split
    · exact capOrd_memWf _ _ _ hs
    · exact hs
  · exact capWrite_memWf _ hs

theorem capPhase5_memWf {s : Part} (h : s.memWf) : (capPhase5 s).memWf :=
  flushHeld_memWf (forL_keeps Part.memWf _ _ (fun c _ _ hs => internalSample_memWf c hs) h)

theorem fastSample_memWf (c k : Nat) {s : Part} (h : s.memWf) : (fastSample c k s).memWf := by
  unfold fastSample
  dsimp only
  split
  · exact h
  · refine takeSample_memWf _ _ _ ?_
    split
    · split
      · exact capOrd_memWf _ _ _ h
      · exact Part.onDev_memWf _ h
    · exact h

theorem capEnd_memWf (arg st : Nat) (t : T96) {s : Part} (h : s.memWf) : (capEnd arg st t s).memWf := by
  unfold capEnd
  refine Part.onDev_memWf _ ?_
  split
  · exact capWrite_memWf _ h
  · exact h

theorem capActivation_memWf {s : Part} (h : s.memWf) : (capActivation s).memWf := by
  unfold capActivation
  split
  · exact capEnd_memWf _ _ _ (flushHeld_memWf h)
  · exact Part.onDev_memWf _ h

theorem busTriggers_memWf (l width : Nat) (t : T96) {s : Part} (h : s.memWf) : (busTriggers l width t s).memWf := by
  unfold busTriggers
  refine forN_keeps Part.memWf 16 _ (fun n _ s hs => ?_) h
  have h1 : ∀ b : Bool, (if b then fire n (s.dev.toPlan t) s else s).memWf := by
    intro b; cases b
    · exact hs
    · exact fire_memWf _ _ hs
  dsimp only
  split
  · split
    · exact fire_memWf _ _ (h1 _)
    · exact h1 _
  · exact hs

theorem celStore_memWf (r : CelRec) {s : Part} (h : s.memWf) : (celStore r s).memWf := by
  simp only [celStore, Part.memWf, apply_ite Part.mems]
  split
  · exact h
  · exact Mems.setDram_wf h (Mem.writeBytes_wf _ _ (Mems.dram_wf h))

theorem cellarDrain_memWf {s : Part} (h : s.memWf) : (cellarDrain s).memWf :=
  Part.onDev_memWf _ (forL_keeps Part.memWf _ _ (fun r _ _ hs => celStore_memWf r hs) (Part.onDev_memWf _ h))

/-! ### Contexts and interrupt frames -/

theorem saveCtx_wf (k : Core) (a : Nat) {m : Mem} (h : m.wf = true) : (saveCtx k a m).wf = true := by
  unfold saveCtx
  refine forN_keeps (fun m => Mem.wf m = true) _ _ (fun _ _ _ hm => Mem.write_wf _ _ _ hm) (Mem.write_wf _ _ _ ?_)
  refine forN_keeps (fun m => Mem.wf m = true) _ _ (fun _ _ _ hm => Mem.write_wf _ _ _ (Mem.write_wf _ _ _ hm)) ?_
  exact forN_keeps (fun m => Mem.wf m = true) _ _ (fun _ _ _ hm => Mem.write_wf _ _ _ hm)
    (Mem.write_wf _ _ _ (Mem.write_wf _ _ _ h))

theorem saveRunning_memWf (p : Plane) (c : Nat) {s : Part} (h : s.memWf) : (saveRunning p c s).memWf :=
  Mems.setLoc_wf h p c (saveCtx_wf _ _ (Mems.loc_wf h p c))

theorem enterTask_memWf (p : Plane) (c t : Nat) {s : Part} (h : s.memWf) : (enterTask p c t s).memWf := by
  unfold enterTask
  simp only
  split
  · exact Part.onDev_memWf _ h
  · split
    · exact h
    · exact Part.onDev_memWf _ h

theorem enterBase_memWf (p : Plane) (c : Nat) {s : Part} (h : s.memWf) : (enterBase p c s).memWf := Part.onDev_memWf _ h

theorem preemptSwitch_memWf (p : Plane) (c : Nat) {s : Part} (h : s.memWf) : (preemptSwitch p c s).memWf := by
  unfold preemptSwitch
  split
  · split
    · split
      · exact h
      · exact enterTask_memWf _ _ _ (saveRunning_memWf _ _ h)
    · exact h
  · exact h

theorem tskDone_memWf (p : Plane) (c : Nat) {s : Part} (h : s.memWf) : (tskDone p c s).memWf := by
  unfold tskDone
  simp only
  split
  · exact Part.onDev_memWf _ h
  · split
    · split
      · exact enterTask_memWf _ _ _ (Part.onDev_memWf _ h)
      · exact enterBase_memWf _ _ (Part.onDev_memWf _ h)
    · exact h

theorem interruptDelivery_memWf (p : Plane) (c : Nat) {s : Part} (h : s.memWf) : (interruptDelivery p c s).memWf := by
  unfold interruptDelivery
  simp only
  split
  · exact h
  · split
    · exact h
    · split
      · exact Part.onDev_memWf _ h
      · split
        · exact h
        · exact Mems.setLoc_wf h p c (Mem.write_wf _ _ _ (Mem.write_wf _ _ _ (Mems.loc_wf h p c)))

theorem reti_memWf (p : Plane) (c : Nat) {s : Part} (h : s.memWf) : (reti p c s).memWf := by
  unfold reti
  simp only
  split
  · exact h
  · split
    · exact Part.onDev_memWf _ h
    · split
      · exact h
      · split
        · split
          · exact Part.onDev_memWf _ h
          · split
            · exact h
            · exact enterTask_memWf _ _ _ (saveRunning_memWf _ _ (Part.onDev_memWf _ h))
        · exact Part.onDev_memWf _ h

end Sys2Proof.Machine
end

