-- ==== Sys2Proof/Laws/MemWfAccess.lean ====
section
/-! SUPPORT. The accesses of cores, host and debug port keep the memories in canonical form, and so do capture's boundary and the trigger
bus. -/

namespace Sys2Proof.Machine

theorem ite_memWf {c : Prop} [Decidable c] {a b : Part} (ha : a.memWf) (hb : b.memWf) : (if c then a else b).memWf := by
  split
  · exact ha
  · exact hb

/-! ### Capture at a boundary, the trigger bus -/

theorem capBoundary_memWf (stepped live : Bool) (changed : List Nat) {s : Part} (h : s.memWf) :
    (capBoundary stepped live changed s).memWf := by
  unfold capBoundary
  extract_lets s0 t s1 s2 s3 s4 a s5
  have h0 : s0.memWf := Part.onDev_memWf _ h
  clear_value s0 t
  have h1 : s1.memWf := ite_memWf (capWrite_memWf _ h0) h0
  clear_value s1
  have h2 : s2.memWf := ite_memWf (refresh_memWf _ (capWrite_memWf _ h1)) h1
  clear_value s2
  have h3 : s3.memWf := ite_memWf (capEnd_memWf _ _ _ h2) h2
  clear_value s3
  have h4 : s4.memWf := ite_memWf (Part.onDev_memWf _ (capEnd_memWf _ _ _ h3)) h3
  clear_value s4
  have ha : a.memWf := Part.onDev_memWf _ h4
  clear_value a
  have h5 : s5.memWf := ite_memWf (refresh_memWf _ (capWrite_memWf _ ha)) h4
  clear_value s5
  exact ite_memWf (refresh_memWf _ (capWrite_memWf _ h5)) h5

theorem busOrUnknown_memWf (l width : Nat) (t : T96) (j : Nat) {s : Part} (h : s.memWf) :
    (busOrUnknown l width t j s).memWf := by
  unfold busOrUnknown
  split
  · exact Part.onDev_memWf _ h
  · exact busTriggers_memWf _ _ _ h

theorem calPulse_memWf (l i j width : Nat) (t : T96) {s : Part} (h : s.memWf) : (calPulse l i j width t s).memWf := by
  unfold calPulse
  extract_lets d
  refine ite_memWf (Part.onDev_memWf _ h) ?_
  split
  · exact ite_memWf (ite_memWf (Part.onDev_memWf _ h) h) (busOrUnknown_memWf _ _ _ _ h)
  · exact busOrUnknown_memWf _ _ _ _ h

theorem trgPulse_memWf (l width : Nat) (t : T96) {s : Part} (h : s.memWf) : (trgPulse l width t s).memWf := by
  unfold trgPulse
  extract_lets s1
  have h1 : s1.memWf := Part.onDev_memWf _ h
  split
  · exact Part.onDev_memWf _ h1
  · exact calPulse_memWf _ _ _ _ _ h1
  · exact busOrUnknown_memWf _ _ _ _ h1

/-! ### Register writes that reach memory -/

theorem resetPart_memWf (keep pin rail : Bool) (railId : Nat) {s : Part} (h : s.memWf) : (resetPart keep pin rail railId s).memWf :=
  Mems.setFlash_wf Mems.empty_wf (Mems.flash_wf h)

theorem wake_memWf (src : Nat) {s : Part} (h : s.memWf) : (wake src s).memWf := by
  unfold wake
  extract_lets st
  exact ite_memWf h (ite_memWf (Part.onDev_memWf _ (resetPart_memWf _ _ _ _ (s := { s with dev := wakeNoted src s.dev }) h))
    (Part.onDev_memWf _ h))

theorem alarmWrite_memWf (off w : Nat) {s : Part} (h : s.memWf) : (alarmWrite off w s).memWf := by
  unfold alarmWrite
  extract_lets s1 d t
  exact ite_memWf (wake_memWf _ (Part.onDev_memWf _ h)) (Part.onDev_memWf _ h)

theorem writeWord_memWf (c : Option Nat) (p : Plane) (b : Blk) (off w : Nat) {s : Part} (h : s.memWf) :
    (writeWord c p b off w s).memWf := by
  unfold writeWord
  refine ite_memWf (Part.onDev_memWf _ h) ?_
  split
  case h_6 =>
    split
    · exact ite_memWf (ite_memWf (tskDone_memWf _ _ h) h) (Part.onDev_memWf _ h)
    · exact Part.onDev_memWf _ h
  case h_7 => exact ite_memWf h (Part.onDev_memWf _ h)
  case h_15 => exact ite_memWf (alarmWrite_memWf _ _ h) (Part.onDev_memWf _ h)
  all_goals exact Part.onDev_memWf _ h

theorem hostWordNow_memWf (b : Blk) (off w : Nat) {s : Part} (h : s.memWf) : (hostWordNow b off w s).memWf :=
  ite_memWf (writeWord_memWf _ _ _ _ _ (writeWord_memWf _ _ _ _ _ h)) (writeWord_memWf _ _ _ _ _ h)

theorem hostWord_memWf (b : Blk) (off w : Nat) {s : Part} (h : s.memWf) : (hostWord b off w s).memWf :=
  ite_memWf (Part.onDev_memWf _ h) (hostWordNow_memWf _ _ _ h)

theorem deliverHeld_memWf {s : Part} (h : s.memWf) : (deliverHeld s).memWf :=
  forL_keeps Part.memWf _ _ (fun _ _ _ hs => hostWordNow_memWf _ _ _ hs) (Part.onDev_memWf _ h)

theorem hostWrite_memWf (a w : Nat) {s : Part} (h : s.memWf) : (hostWrite a w s).memWf := ite_memWf (hostWord_memWf _ _ _ h) h

theorem coreDoP_memWf (p : Plane) (c : Nat) {f : Part → Part} {s : Part} (hf : (f s).memWf) (h : s.memWf) :
    (coreDoP p c f s).memWf := ite_memWf hf h

theorem regWrite_memWf (who : Actor) (b : Blk) (off w : Nat) {s : Part} (h : s.memWf) : (regWrite who b off w s).memWf := by
  cases who with
  | host => exact hostWord_memWf _ _ _ h
  | core p c => exact coreDoP_memWf _ _ (writeWord_memWf _ _ _ _ _ h) h

theorem applyRow_memWf (who : Actor) (b : Blk) (w : Nat) {s : Part} (h : s.memWf) : (applyRow who b w s).memWf :=
  ite_memWf (regWrite_memWf _ _ _ _ h) h

theorem viewStore_memWf (p : Plane) (c a n v : Nat) {s : Part} (h : s.memWf) : (viewStore p c a n v s).memWf :=
  forL_keeps Part.memWf _ _ (fun _ _ _ hs => writeWord_memWf _ _ _ _ _ hs) h

theorem bar4Write_memWf (o : Nat) (bs : List Byte) {s : Part} (h : s.memWf) : (bar4Write o bs s).memWf := by
  unfold bar4Write
  extract_lets d a w
  exact ite_memWf h (ite_memWf (Mems.setDram_wf h (Mem.writeBytes_wf _ _ (Mems.dram_wf h))) (ite_memWf h (Part.onDev_memWf _ h)))

/-! ### Accesses of a core -/

theorem readTarget_memWf (p : Plane) (c n : Nat) (t : Target) {s : Part} (h : s.memWf) : (readTarget p c n t s).1.memWf := by
  cases t <;> exact h

theorem ldI_memWf (p : Plane) (c g pi mi : Nat) (pm : Bool) (size : Nat) (sx : Bool) (disp : BitVec 11) (ecc : Ecc) {s : Part}
    (h : s.memWf) : (ldI p c g pi mi pm size sx disp ecc s).memWf := by
  unfold ldI
  extract_lets d k a n
  refine ite_memWf h (ite_memWf (Part.onDev_memWf _ h) ?_)
  split
  · exact Part.onDev_memWf _ h
  · extract_lets r s1 r1
    exact ite_memWf (Part.onDev_memWf _ h) (Part.onDev_memWf _ (readTarget_memWf _ _ _ _ (Part.onDev_memWf _ h)))

theorem storeHalves_wf (a n v : Nat) (lo hi : Bool) {m : Mem} (h : m.wf = true) : (storeHalves a n v lo hi m).wf = true := by
  unfold storeHalves
  extract_lets l m1
  have h1 : m1.wf = true := by
    show (if lo then m else m.write a l v).wf = true
    split
    · exact h
    · exact Mem.write_wf _ _ _ h
  split
  · exact h1
  · exact Mem.write_wf _ _ _ h1

theorem stI_memWf (p : Plane) (c g pi mi : Nat) (pm : Bool) (size : Nat) (disp : BitVec 11) (lo hi : Bool) {s : Part} (h : s.memWf) :
    (stI p c g pi mi pm size disp lo hi s).memWf := by
  unfold stI
  extract_lets d k a n v adv
  refine ite_memWf h (ite_memWf (Part.onDev_memWf _ h) ?_)
  split
  · exact Part.onDev_memWf _ h
  · exact ite_memWf h (Part.onDev_memWf _ (Mems.setLoc_wf h p c (Mem.write_wf _ _ _ (Mems.loc_wf h p c))))
  · exact ite_memWf h (Part.onDev_memWf _ (Mems.setState_wf h p (storeHalves_wf _ _ _ _ _ (Mems.state_wf h p))))
  · exact viewStore_memWf _ _ _ _ _ (Part.onDev_memWf _ h)
  · exact ite_memWf h (Part.onDev_memWf _ h)
  · exact h

theorem postedWritten_memWf (p : Plane) (c : Nat) {s : Part} (h : s.memWf) : (postedWritten p c s).memWf := by
  unfold postedWritten
  split
  · exact h
  · exact Mems.setDram_wf h (Mem.writeBytes_wf _ _ (Mems.dram_wf h))

theorem amoI_memWf (f : Word → Word → Word) (p : Plane) (c g pi : Nat) (pm : Bool) (size : Nat) (disp : BitVec 11) (ecc : Ecc)
    (lost : Bool) {s : Part} (h : s.memWf) : (amoI f p c g pi pm size disp ecc lost s).memWf := by
  unfold amoI
  extract_lets d k a
  refine ite_memWf h (ite_memWf (Part.onDev_memWf _ h) ?_)
  split
  · refine ite_memWf h (ite_memWf (Part.onDev_memWf _ h) ?_)
    exact Part.onDev_memWf _ (Mems.setState_wf h p (storeHalves_wf _ _ _ _ _ (Mems.state_wf h p)))
  · exact Part.onDev_memWf _ h
  · exact Part.onDev_memWf _ h

theorem tapI_memWf (two : Bool) (p : Plane) (c a px mx pc mc : Nat) (sa neg : Bool) (ecc : Ecc) {s : Part} (h : s.memWf) :
    (tapI two p c a px mx pc mc sa neg ecc s).memWf := by
  unfold tapI
  extract_lets d k x y m x1 x0 prod k1 k2 k3 m1 m2
  refine ite_memWf h ?_
  split
  · exact Part.onDev_memWf _ h
  · refine ite_memWf h (ite_memWf (Part.onDev_memWf _ h) (Part.onDev_memWf _ (Mems.setLoc_wf h p c ?_)))
    have h1 : m1.wf = true := Mem.write_wf _ _ _ (Mems.loc_wf h p c)
    show (if two then m1.write x 4 x0 else m1).wf = true
    split
    · exact Mem.write_wf _ _ _ h1
    · exact h1

/-! ### The debug port -/

theorem debugStore_memWf (p : Plane) (c a : Nat) (bs : List Byte) {s : Part} (h : s.memWf) : (debugStore p c a bs s).memWf := by
  unfold debugStore
  split
  · exact Mems.setLoc_wf h p c (Mem.writeBytes_wf _ _ (Mems.loc_wf h p c))
  · exact Mems.setState_wf h p (Mem.writeBytes_wf _ _ (Mems.state_wf h p))
  · exact Mems.setDram_wf h (Mem.writeBytes_wf _ _ (Mems.dram_wf h))
  · exact viewStore_memWf _ _ _ _ _ h
  · exact h

theorem debugLoad_memWf (p : Plane) (c a n : Nat) {s : Part} (h : s.memWf) : (debugLoad p c a n s).memWf := by
  unfold debugLoad
  split
  · exact readTarget_memWf _ _ _ _ h
  · exact h

theorem debugPort_memWf (op : DebugOp) {s : Part} (h : s.memWf) : (debugPort op s).memWf := by
  unfold debugPort
  extract_lets d
  refine ite_memWf h ?_
  split
  · exact ite_memWf (Part.onDev_memWf _ h) h
  · exact ite_memWf (Part.onDev_memWf _ h) h
  · exact ite_memWf (debugLoad_memWf _ _ _ _ h) h
  · exact ite_memWf (debugStore_memWf _ _ _ _ h) h

end Sys2Proof.Machine
end

