-- ==== Sys2Proof/Laws/MemWfBoot.lean ====
section
/-! SUPPORT. Start-up, the flash, the power ladder and the boundary keep the memories in canonical form. -/

namespace Sys2Proof.Machine

/-! ### The flash and the mailbox commands over it -/

theorem flashProg_wf (a : Nat) (bs : List Byte) {m : Mems} (h : m.wf = true) : (flashProg a bs m).wf = true := by
  induction bs generalizing a m with
  | nil => exact h
  | cons x t ih => exact ih _ (Mems.setFlash_wf h (Mem.put_wf _ _ (Mems.flash_wf h)))

/-- What a flash byte reads after a program: where bytes were programmed, their ones that were still set; elsewhere what it read. -/
theorem flashByte_prog (bs : List Byte) : ∀ (a x : Nat) {m : Mems}, m.wf = true →
    flashByte (flashProg a bs m) x = if a ≤ x ∧ x < a + bs.length then flashByte m x &&& bs.getD (x - a) 0 else flashByte m x := by
  induction bs with
  | nil => intro a x m _; rw [if_neg (by simp only [List.length_nil]; omega)]; rfl
  | cons b t ih =>
    intro a x m h
    have hp := Mem.byte_put a x (m.flash.byte a ||| ~~~ b) (Mems.flash_wf h)
    rw [flashProg, ih (a + 1) x (Mems.setFlash_wf h (Mem.put_wf _ _ (Mems.flash_wf h)))]
    simp only [flashByte, hp, List.length_cons]
    by_cases hx : x = a
    · subst hx
      rw [if_neg (by omega), if_pos (by omega)]
      simp [BitVec.not_or]
    · rw [if_neg (c := a = x) (fun e => hx e.symm)]
      by_cases hr : a + 1 ≤ x ∧ x < a + 1 + t.length
      · rw [if_pos hr, if_pos (by omega)]
        obtain ⟨k, rfl⟩ : ∃ k, x = a + 1 + k := ⟨x - (a + 1), by omega⟩
        rw [show a + 1 + k - (a + 1) = k by omega, show a + 1 + k - a = k + 1 by omega]
        simp
      · rw [if_neg hr, if_neg (by omega)]

theorem commitWrite_memWf (v : Vault) (w : PatWrite) {s : Part} (h : s.memWf) : (commitWrite v w s).memWf := by
  unfold commitWrite
  generalize recordReads s.mems w = ok, readImage s.mems w = m
  dsimp only
  generalize loadCheck v s.dev m = c
  refine ite_memWf (Part.onDev_memWf _ h) ?_
  cases c with
  | some c => exact Part.onDev_memWf _ h
  | none => exact ite_memWf (Part.onDev_memWf _ h) (ite_memWf (Part.onDev_memWf _ h) (Part.onDev_memWf _ h))

theorem commitDone_memWf (w : PatWrite) {s : Part} (h : s.memWf) : (commitDone w s).memWf :=
  Part.onDev_memWf _ (flashProg_wf _ _ h)

theorem writeOpDone_memWf (v : Vault) (ok : Bool) (w : PatWrite) {s : Part} (h : s.memWf) : (writeOpDone v ok w s).memWf := by
  unfold writeOpDone
  refine ite_memWf (Part.onDev_memWf _ h) ?_
  split
  · exact Part.onDev_memWf _ h
  · exact ite_memWf (Part.onDev_memWf _ (flashProg_wf _ _ h)) (Part.onDev_memWf _ (flashProg_wf _ _ h))
  · exact Part.onDev_memWf _ (flashProg_wf _ _ h)
  · exact commitWrite_memWf _ _ h
  · exact commitDone_memWf _ h
  · exact h

theorem patWrite_memWf (v : Vault) (x : MbxHdr) (ofs winOfs len : Nat) (first last : Bool) (m : Image) {s : Part} (h : s.memWf) :
    (patWrite v x ofs winOfs len first last m s).memWf := by
  unfold patWrite
  extract_lets d1 s1
  split
  · exact Mems.setFlash_wf h (Mem.zeroRange_wf _ _ (Mems.flash_wf h))
  · exact h

theorem readOpDone_memWf (ok : Bool) {s : Part} (h : s.memWf) : (readOpDone ok s).memWf := by
  unfold readOpDone
  split
  · exact h
  · exact ite_memWf (Part.onDev_memWf _ h) (Part.onDev_memWf _ (Mems.setDram_wf h (Mem.writeBytes_wf _ _ (Mems.dram_wf h))))

theorem flashOpDone_memWf (v : Vault) (read ok : Bool) {s : Part} (h : s.memWf) : (flashOpDone v read ok s).memWf := by
  unfold flashOpDone
  refine ite_memWf (readOpDone_memWf _ h) ?_
  split
  · exact writeOpDone_memWf _ _ _ h
  · exact h

theorem patActivate_memWf (x : MbxHdr) {s : Part} (h : s.memWf) : (patActivate x s).memWf := by
  unfold patActivate
  extract_lets d st next
  exact ite_memWf (Part.onDev_memWf _ (capActivation_memWf h)) (Part.onDev_memWf _ h)

theorem patSwitch_memWf (v : Vault) (x : MbxHdr) {s : Part} (h : s.memWf) : (patSwitch v x s).memWf := by
  unfold patSwitch
  extract_lets d fault
  split
  · exact ite_memWf (Part.onDev_memWf _ (flashProg_wf _ _ h)) (Part.onDev_memWf _ h)
  · exact Part.onDev_memWf _ h
  · exact Part.onDev_memWf _ h

/-! ### Loads of a Pattern -/

theorem foldSegs_wf (l : List CodeSeg) : ∀ {m : Mem}, m.wf = true →
    (l.foldl (fun (m : Mem) g => m.writeBytes g.addr g.data) m).wf = true := by
  induction l with
  | nil => exact fun h => h
  | cons g t ih => exact fun h => ih (Mem.writeBytes_wf _ _ h)

theorem loadLocals_wf (pat : Pattern) {x : PlaneMems} (h : x.wf = true) : (loadLocals pat x).wf = true := by
  obtain ⟨hs, _⟩ := (PlaneMems.wf_iff x).mp h
  have key : ∀ (l : List CodeSec) (t : Sparse Mem), Sparse.rising t = true → (∀ e ∈ t, Mem.wf e.2 = true) →
      Sparse.rising (l.foldl (fun (t : Sparse Mem) c =>
        Sparse.put t c.core (c.segs.foldl (fun (m : Mem) g => m.writeBytes g.addr g.data) [])) t) = true ∧
      ∀ e ∈ l.foldl (fun (t : Sparse Mem) c =>
        Sparse.put t c.core (c.segs.foldl (fun (m : Mem) g => m.writeBytes g.addr g.data) [])) t, Mem.wf e.2 = true := by
    intro l
    induction l with
    | nil => exact fun t hr hc => ⟨hr, hc⟩
    | cons c l ih =>
      intro t hr hc
      refine ih _ (Sparse.rising_put _ _ _ hr) (fun e he => ?_)
      rcases Sparse.mem_put he with he | he
      · subst he; exact foldSegs_wf _ rfl
      · exact hc e he
  obtain ⟨hr, hc⟩ := key pat.code [] rfl (fun _ he => nomatch he)
  exact (PlaneMems.wf_iff _).mpr ⟨hs, rfl, hr, hc⟩

theorem Mems.setBoth_wf {m : Mems} (h : m.wf = true) {x y : PlaneMems} (hx : x.wf = true) (hy : y.wf = true) :
    Mems.wf { m with a := x, b := y } = true :=
  (Mems.wf_iff _).mpr ⟨hx, hy, Mems.dram_wf (m := m) h, Mems.flash_wf (m := m) h⟩

theorem loadPattern_memWf (slot : Nat) (m : Image) {s : Part} (h : s.memWf) : (loadPattern slot m s).memWf :=
  Mems.setBoth_wf h (loadLocals_wf _ (Mems.pl_wf h .A)) (loadLocals_wf _ (Mems.pl_wf h .B))

theorem trySlots_memWf (v : Vault) (d0 : Dev) (l : List (Nat × Image)) : ∀ (failed : Option (Nat × Code)) {s : Part}, s.memWf →
    (trySlots v d0 failed l s).memWf := by
  induction l with
  | nil => exact fun _ _ h => Part.onDev_memWf _ h
  | cons e t ih =>
    intro failed s h
    obtain ⟨i, m⟩ := e
    unfold trySlots
    split
    · exact ih _ (Part.onDev_memWf _ h)
    · refine loadPattern_memWf _ _ ?_
      split
      · exact Part.onDev_memWf _ h
      · exact Part.onDev_memWf _ h

theorem patternLoaded_memWf (v : Vault) {s : Part} (h : s.memWf) : (patternLoaded v s).memWf :=
  ite_memWf (trySlots_memWf _ _ _ _ (Part.onDev_memWf _ h)) h

theorem reloadPlane_memWf (p : Plane) {s : Part} (h : s.memWf) : (reloadPlane p s).memWf := by
  cases p
  · exact Mems.setPl_wf h .A (loadLocals_wf _ (Mems.pl_wf h .A))
  · exact Mems.setPl_wf h .B (loadLocals_wf _ (Mems.pl_wf h .B))

theorem reloadDone_memWf (p : Plane) (ok : Bool) {s : Part} (h : s.memWf) : (reloadDone p ok s).memWf :=
  ite_memWf h (ite_memWf (Part.onDev_memWf _ (reloadPlane_memWf _ h)) (Part.onDev_memWf _ h))

/-! ### Resets and the ladder -/

theorem reset_memWf (pin rail : Bool) (railId : Nat) {s : Part} (h : s.memWf) : (reset pin rail railId s).memWf :=
  ite_memWf (resetPart_memWf _ _ _ _ h) h

theorem powerUp_memWf {s : Part} (h : s.memWf) : (powerUp s).memWf :=
  Part.onDev_memWf _ (resetPart_memWf _ _ _ _ (Part.onDev_memWf _ h))

theorem toDormant_memWf {s : Part} (h : s.memWf) : (toDormant s).memWf :=
  Mems.setBoth_wf h PlaneMems.empty_wf PlaneMems.empty_wf

theorem descentTimer_memWf {s : Part} (h : s.memWf) : (descentTimer s).memWf :=
  ite_memWf h (ite_memWf (toDormant_memWf h) (ite_memWf (Part.onDev_memWf _ h) h))

theorem dormantExit_memWf (passA passB : Bool) {s : Part} (h : s.memWf) : (dormantExit passA passB s).memWf :=
  Mems.setBoth_wf h (loadLocals_wf _ (Mems.pl_wf h .A)) (loadLocals_wf _ (Mems.pl_wf h .B))

theorem ascentStepDone_memWf (passA passB : Bool) {s : Part} (h : s.memWf) : (ascentStepDone passA passB s).memWf := by
  unfold ascentStepDone
  split
  · exact ite_memWf (dormantExit_memWf _ _ h) h
  · exact ite_memWf (Part.onDev_memWf _ h) h
  · exact h

/-! ### The cycle -/

theorem phase5_memWf (late : Bool) {s : Part} (h : s.memWf) : (phase5 late s).memWf :=
  capPhase5_memWf (s := { s with dev := _ }) h

theorem phaseStart_memWf (n : Nat) (left : List (Plane × Nat)) (late : Bool) (words : List CoreWord) {s : Part} (h : s.memWf) :
    (phaseStart n left late words s).memWf := by
  unfold phaseStart
  extract_lets d0 d1 s1
  refine ite_memWf h (Part.onDev_memWf _ ?_)
  have h1 : ∀ d : Dev, Part.memWf { s with dev := d } := fun _ => h
  clear_value d0 d1
  exact ite_memWf (h1 _) (ite_memWf (h1 _) (ite_memWf (h1 _) (ite_memWf (phase5_memWf _ (h1 _)) (h1 _))))

theorem Mems.copyIn_wf (p : Plane) (n : Nat) (src : PlaneMems) (lo hi : Nat) {m : Mems} (h : m.wf = true) :
    (m.copyIn p n src lo hi).wf = true := by
  unfold Mems.copyIn Mems.setSpace PlaneMems.space
  split
  · exact Mems.setState_wf h _ (Mem.copyRange_wf _ _ _ (Mems.state_wf h p))
  · exact Mems.setLoc_wf h _ _ (Mem.copyRange_wf _ _ _ (Mems.loc_wf h p n))

theorem rackMems_wf (d : Dev) (r : RackRun) {m : Mems} (h : m.wf = true) : (rackMems d r m).wf = true := by
  unfold rackMems
  extract_lets dst own regions m1 m2
  have h1 : m1.wf = true := forL_keeps (fun m : Mems => m.wf = true) _ _ (fun _ _ _ hm => Mems.copyIn_wf _ _ _ _ _ hm) h
  have h2 : m2.wf = true := forL_keeps (fun m : Mems => m.wf = true) _ _ (fun _ _ _ hm => Mems.copyIn_wf _ _ _ _ _ hm) h1
  split
  · exact forL_keeps (fun m : Mems => m.wf = true) _ _ (fun _ _ _ hm => Mems.copyIn_wf _ _ _ _ _ hm) h2
  · exact h2

theorem joinSaved_wf (d : Dev) (p : Plane) (c : Nat) (k : Core) {m : Mem} (h : m.wf = true) : (joinSaved d p c k m).wf = true := by
  unfold joinSaved
  extract_lets mine m1
  have h1 : m1.wf = true := by
    show (if _ then _ else _ : Mem).wf = true
    split
    · exact saveCtx_wf _ _ h
    · exact h
  clear_value m1 mine
  induction mine generalizing m1 with
  | nil => exact h1
  | cons e l ih =>
    refine ih _ ?_
    dsimp only
    split
    · exact saveCtx_wf _ _ h1
    · exact h1

theorem joinCores_memWf (p : Plane) {s : Part} (h : s.memWf) : (joinCores p s).memWf := by
  refine forN_keeps Part.memWf 10 _ (fun c _ s hs => ?_) h
  extract_lets k
  exact ite_memWf hs (Mems.setLoc_wf hs p c (joinSaved_wf _ _ _ _ (Mems.loc_wf hs p c)))

theorem landRack_memWf {s : Part} (h : s.memWf) : (landRack s).memWf := by
  unfold landRack
  split
  · exact h
  · next r _ =>
    refine ite_memWf h ?_
    extract_lets s1
    have h1 : s1.memWf := rackMems_wf _ r h
    exact ite_memWf (joinCores_memWf _ h1) h1

theorem boundary_memWf {s : Part} (h : s.memWf) : (boundary s).memWf := by
  unfold boundary
  extract_lets n tick s0 d1 at_ st d2 live changed s1 s2 s3 s4
  refine ite_memWf h (Part.onDev_memWf _ (deliverHeld_memWf (Part.onDev_memWf _ (cellarDrain_memWf (capBoundary_memWf _ _ _ ?_)))))
  exact Part.onDev_memWf _ (bankBoundary_memWf _ (bankBoundary_memWf _ (s := s1) (landRack_memWf h)))

end Sys2Proof.Machine
end

