-- ==== Sys2Proof/Machine/Balls.lean ====
section
/-! DEFINITION. The balls of the package (20_package_electrical.md R526 to R528): their names, the balls of every signal, and the supply that
every other ball carries. -/

namespace Sys2Proof.Machine

/-- A ball: row index 0 to 33 and column 1 to 34 (R526). -/
structure Ball where
  row : Nat
  col : Nat
  deriving DecidableEq, Repr

/-- The names of the rows (R526). -/
def ballRows : List String :=
  ["A", "B", "C", "D", "E", "F", "G", "H", "J", "K", "L", "M", "N", "P", "T", "U", "V", "W", "Y", "AA", "AB", "AC", "AD", "AE", "AF",
   "AG", "AH", "AJ", "AK", "AL", "AM", "AN", "AP", "AT"]

/-- The name of a ball: row, then column. -/
def Ball.name (b : Ball) : String := ballRows.getD b.row "" ++ toString b.col

/-- The balls of row `r` in columns `cs`. -/
def onRow (r : String) (cs : List Nat) : List Ball := cs.map (fun c => ⟨ballRows.idxOf r, c⟩)

/-- Signals of the package. -/
inductive Signal where
  | lsTx (p : Fin 4) (q : Path)
  | lsRx (p : Fin 4) (q : Path)
  | fb (n : Fin 18) (k : Fin 3)
  | po (n : Fin 4) (k : Fin 3)
  | sdStep (n : Fin 8)
  | sdDir (n : Fin 8)
  | ai (c : Fin 4)
  | trg (l : Fin 4)
  | si (n : Fin 16)
  | ed (n : Fin 8)
  | so (n : Fin 8)
  | tp (k : Fin 4)
  | tev (n : Fin 8)
  | macTx (m : Fin 2) (j : Fin 6)
  | macRx (m : Fin 2) (j : Fin 6)
  | mdc (m : Fin 2)
  | mdio (m : Fin 2)
  | dq (b : Fin 4) (i : Fin 8)
  | dqs (b : Fin 4)
  | dmi (b : Fin 4)
  | dramCa (ch : Fin 2) (i : Fin 10)
  | dramReset
  | zq
  | pcieTx (l : Fin 2)
  | pcieRx (l : Fin 2)
  | pcieRefclk
  | perstN
  | qspi (i : Fin 6)
  | jtag (i : Fin 5)
  | dbg (i : Fin 4)
  | avs (i : Fin 3)
  | refclk
  | resetN
  | pgood
  | vcoreEn
  | pwrEnMain
  | wakeN
  | syncIn
  | presA
  | presBN
  deriving DecidableEq, Repr

/-- The first column of a DRAM byte lane. -/
def laneCol (b : Nat) : Nat := if b < 2 then 1 + 2 * b else 27 + 2 * b

/-- The true line of a pair in one row and its complement in the other, in the same column. -/
def ballPair (t c : String) (col : Nat) : List Ball := onRow t [col] ++ onRow c [col]

/-- The balls of a signal: of a differential pair the true line, then the complement; SOn has two balls (R527, R528). -/
def Signal.balls : Signal → List Ball
  | .lsTx p q => let c : Nat := 3 + 8 * p + (if q = .P then 0 else 4); onRow "A" [c, c + 1]
  | .lsRx p q => let c : Nat := 3 + 8 * p + (if q = .P then 0 else 4); onRow "C" [c, c + 1]
  | .fb n k => if n < 10 then ballPair "AP" "AT" (2 + 3 * n + k) else ballPair "AM" "AN" (2 + 3 * (n - 10) + k)
  | .po n k => ballPair "AK" "AL" (2 + 3 * n + k)
  | .sdStep n => ballPair "AK" "AL" (15 + 2 * n)
  | .sdDir n => ballPair "AK" "AL" (16 + 2 * n)
  | .ai c => ballPair "AK" "AL" (31 + c)
  | .trg l => ballPair "AM" "AN" (27 + l)
  | .si n => onRow "AH" [2 + n]
  | .ed n => onRow "AH" [19 + n]
  | .so n => onRow "AJ" [2 + 2 * n, 3 + 2 * n]
  | .tp k => onRow "AJ" [19 + k]
  | .tev n => onRow "AJ" [24 + n]
  | .macTx m j => onRow "F" [12 + 8 * m + j]
  | .macRx m j => onRow "G" [12 + 8 * m + j]
  | .mdc m => onRow "H" [12 + 8 * m]
  | .mdio m => onRow "H" [13 + 8 * m]
  | .dq b i => [⟨9 + i / 2, laneCol b + i % 2⟩]
  | .dqs b => onRow "P" [laneCol b, laneCol b + 1]
  | .dmi b => onRow "T" [laneCol b]
  | .dramCa ch i => [⟨15 + i / 4, (if ch = 0 then 1 else 31) + i % 4⟩]
  | .dramReset => onRow "Y" [1]
  | .zq => onRow "Y" [2]
  | .pcieTx l => onRow "E" [3 + 2 * l, 4 + 2 * l]
  | .pcieRx l => onRow "G" [3 + 2 * l, 4 + 2 * l]
  | .pcieRefclk => onRow "E" [9, 10]
  | .perstN => onRow "G" [8]
  | .qspi i => onRow "H" [28 + i]
  | .jtag i => onRow "F" [28 + i]
  | .dbg i => onRow "G" [28 + i]
  | .avs i => onRow "J" [12 + i]
  | .refclk => onRow "J" [16]
  | .resetN => onRow "J" [17]
  | .pgood => onRow "J" [18]
  | .vcoreEn => onRow "J" [19]
  | .pwrEnMain => onRow "J" [20]
  | .wakeN => onRow "J" [21]
  | .syncIn => onRow "AJ" [32]
  | .presA => onRow "AJ" [33]
  | .presBN => onRow "AJ" [34]

/-- Supplies and returns. -/
inductive Supply where
  | vcore | vsram | vsda | vsdh | vio18 | vf33 | vfield | vddq | vdd2 | vkeep | gnd | fgnd
  deriving DecidableEq, Repr

/-- The balls of the supplies that share rows with the DRAM signals (R527, R528). -/
def Ball.dramSupply (b : Ball) : Option Supply :=
  if b.row = 14 && [2, 4, 32, 34].contains b.col then some .vddq
  else if b.row = 17 && [3, 4, 33, 34].contains b.col then some .vdd2
  else if b.row = 18 && [3, 4, 31, 32, 33, 34].contains b.col then some .vdd2
  else none

/-- The supply of a ball that carries no signal (R527, R528). -/
def Ball.supply (b : Ball) : Supply :=
  let within (lo hi : Nat) : Bool := decide (lo ≤ b.col) && decide (b.col ≤ hi)
  match b.dramSupply with
  | some s => s
  | none =>
    if 9 ≤ b.row && b.row ≤ 22 && within 10 25 then (if (b.row + b.col) % 2 = 0 then .vcore else .gnd)
    else if b.row = 23 && within 10 25 then .vsram
    else if b.row = 1 && within 3 31 && b.col % 2 = 1 then .vsda
    else if b.row = 3 && within 3 31 && b.col % 2 = 1 then .vsdh
    else if b.row = 7 && within 1 10 then .vio18
    else if b.row = 24 && within 1 17 then .vf33
    else if b.row = 25 && within 2 17 then .vfield
    else if b.row = 8 && within 22 23 then .vkeep
    else if 25 ≤ b.row then .fgnd
    else .gnd

end Sys2Proof.Machine
end

