-- ==== Sys2Proof/Tests/Base.lean ====
section
/-! SUPPORT. Small states for the tests. -/

namespace Sys2Proof.Tests

open Sys2Proof Sys2Proof.Machine

/-- A state of one device; nothing waits, the fuses are blank and the memories empty. -/
def st (d : Dev) : State := { part := { dev := d } }

/-- The device before anything happened, and its state. -/
def w0 : State := st {}

/-- Core 0 of plane A with registers that differ, at pc 0x100, ready to execute. -/
def core0 : Core := {
  g := ⟨0, [(1, 0x80000000), (2, 7), (3, 0xFFFFFFFF), (4, 0x102), (5, 0x200)]⟩, a := ⟨0, [(1, 5)]⟩, p := ⟨0, [(1, 0x40), (2, 0x48)]⟩,
  m := ⟨0, [(1, 8)]⟩, pc := 0x100, evb := 0x800, loaded := true, started := true }

/-- A state whose core 0 of plane A is `k`. -/
def withCore (k : Core) : State := st (Dev.setCore {} .A 0 k)

/-- The state in which core 0 is ready. -/
def wCore : State := withCore core0

/-- Registers of the shared blocks set one after another: field, index, value. -/
def put (l : List (Fld × Nat × Nat)) (d : Dev) : Dev := l.foldl (fun d e => d.wr e.1 e.2.2 e.2.1) d

/-- Registers of plane A. -/
def putA (l : List (Fld × Nat × Nat)) (d : Dev) : Dev := l.foldl (fun d e => d.wrP .A e.1 e.2.2 e.2.1) d

/-- Registers of both planes. -/
def putAB (l : List (Fld × Nat × Nat)) (d : Dev) : Dev := l.foldl (fun d e => (d.wrP .A e.1 e.2.2 e.2.1).wrP .B e.1 e.2.2 e.2.1) d

/-- Core 0 ready, DRAM of 512 MiB with a partition of plane A, and a posted store that waits. -/
def wPosted : State :=
  st (putAB [(.MEM_DRAM_STAT_SIZE, 0, 1)] (({ pat := { mem := { partA := ⟨0, 0x10000⟩ } } } : Dev).setCore .A 0
    { core0 with p := ⟨0, [(1, 0x10000010), (2, 0x80000010), (3, 0x40070040)]⟩, posted := [⟨0x10, [1, 2]⟩] }))

/-- A state while racking runs over the lines that core 0 stores to. -/
def racking (s : State) : State :=
  { s with part := s.part.onDev (fun d => { d with
      rack := some { src := .A, join := false, here := {}, there := {} }
      pat := { d.pat with mem := { d.pat.mem with regions := [{ cls := .racked, space := 0, lo := 0, hi := 128 },
        { cls := .racked, space := 10, lo := 0, hi := 64 }] } } }) }
def wHold : State := racking wPosted

/-- Core 0 asleep with a claim. -/
def wAsleep : State := withCore { core0 with asleep := true, claims := [(9, 3)] }

/-- Core 0 with a return address that is no multiple of 4; with a pointer outside the regions; with pointers
that no tap takes; with WLX at 1 and a pointer into state memory. -/
def wEret : State := withCore { core0 with epc := 0x102 }
def wRegion : State := withCore { core0 with p := ⟨0, [(1, 0xF0000000)]⟩ }
def wTap : State := withCore { core0 with p := ⟨0, [(1, 0x41), (2, 0x40000004), (3, 0xC)]⟩ }
def wLost : State :=
  st (({ pat := { mem := { partA := ⟨0, 0x10000⟩ } } } : Dev).setCore .A 0 { core0 with csw := 4, p := ⟨0, [(1, 0x10000010)]⟩ })

/-- Core 0 in a handler. -/
def wHandler : State := withCore { core0 with depth := 1, csw := 0x302, epc := 0x104 }

/-- φ5 of a running cycle. -/
def wPhase5 : State := st (put [(.SYS_PHASE, 0, 5)] { cyc := { running := true } })

/-- Source 5 pends at level 3 for core 0, which takes interrupts; source 9 is claimed for it at level 4. -/
def wSource : State :=
  st (putA [(.ICU_SRC_PEND, 5, 1), (.ICU_SRC_LEVEL, 5, 3), (.ICU_SRC_TARGET, 5, 1)] (Dev.setCore {} .A 0
    { core0 with csw := 0x2, claims := [(9, 4)] }))

/-- Task 1 of core 0 with one place in its queue, task 2 of core 1 without a free one, an INTERRUPT task 3 that runs on core 0. -/
def wTask : State :=
  st (putAB [(.TSK_TASK_EN, 1, 1), (.TSK_TASK_EN, 2, 1)] (({ pat := { tasks := [(1, { qdepth := 2, posters := 0x7FF, preempt := true }),
    (2, { core := 1, qdepth := 1, posters := 1 }), (3, { qdepth := 2 })] } } : Dev).setCore .A 0
    { core0 with csw := 0x2 } |>.updTsk .A (fun x => { x with
      q := ⟨[], [(1, [{ arg := 5 }]), (2, [{ arg := 6 }]), (3, [{ arg := 7 }])]⟩, held := ⟨[], [(1, [{ arg := 8 }])]⟩ })))

/-- The same with task 3 current on core 0, which waits in a post to task 1. -/
def wTask3 : State :=
  { wTask with part := wTask.part.onDev (fun d => d.updCore .A 0 (fun k => { k with intTask := some 3, stall := some ⟨1, {}, 0⟩ })) }

/-- The same, core 0 running task 3 and nothing waiting. -/
def wTask4 : State := { wTask with part := wTask.part.onDev (fun d => d.updCore .A 0 (fun k => { k with intTask := some 3 })) }

/-- The mailbox at protocol 3 with TB0 running. -/
def wMbx : State := st (put [(.HST_PROTO_ACT, 0, 3), (.TB_STAT_STATE, 0, 1)] { pat := wTask.part.dev.pat } |> putAB [(.TSK_TASK_EN, 1, 1)])

/-- Timer 4 armed in plane A. -/
def wTimer : State := st (put [(.TB_STAT_STATE, 0, 1), (.TB_STAT_STATE, 1, 1)] {} |> putA [(.TSK_TMR_CTL_ARMED, 4, 1), (.TSK_TMR_PER, 4, 5)]
  |> putAB [(.TSK_TMR_T_NS, 5, 2000), (.TSK_TMR_PER, 5, 1)])

/-- The same timer on a base without a value. -/
def wTimerOff : State := st (putA [(.TSK_TMR_CTL_ARMED, 4, 1)] {})

/-- DRAM of 512 MiB. -/
def wDram : State := st (putAB [(.MEM_DRAM_STAT_SIZE, 0, 1)] {})

/-- The governor at VCMD 150 of 120 to 180 in stage SEWN. -/
def wPace : State := st (put [(.SYS_STATE_STAGE, 0, 8), (.PWR_AVS_VMIN, 0, 120), (.PWR_AVS_VMAX, 0, 180), (.PWR_AVS_VCMD, 0, 150)] {})

/-- A regulator link that failed twice. -/
def wAvs : State := st { pwr := { avsFails := 2 } }

/-- A regulator link in error. -/
def wAvs3 : State := st (put [(.PWR_AVS_AVS_ERR, 0, 1)] { pwr := { avsFails := 3, avsPending := true } })

/-- IDLE with nothing asked, and the same with a safety output on. -/
def wIdle : State := st (put [(.SYS_LADDER_STATE, 0, 2), (.HST_PROTO_ACT, 0, 3)] (Dev.setCore {} .A 8 core0))
def wIdleOn : State := { wIdle with part := wIdle.part.onDev (put [(.SAF_SO_ON, 0, 1)]) }

/-- SLEEP on the way down to KEEP, DORMANT on the way to KEEP, SLEEP with wakes, SLEEP on the way up to IDLE, DORMANT to SLEEP. -/
def wSleep (st' : Nat) (w : PwrSt) : State :=
  st (put [(.SYS_LADDER_STATE, 0, st'), (.PWR_WAKE_WAKE_N_EN, 0, 1), (.SYS_LADDER_WAKE_TO, 0, 2)] { pwr := w })

/-- The host link ready at protocol 2, with two replies, a watchdog, the link up, and a host window in DRAM. -/
def wHost : State :=
  st (put [(.HST_STATUS_MBX_READY, 0, 1), (.HST_PROTO_MAX, 0, 3), (.HST_WDOG_WDOG_T, 0, 10), (.MEM_DRAM_STAT_SIZE, 0, 1),
    (.HST_PROTO_ACT, 0, 3), (.HST_RPL_WP, 0, 64), (.SYS_STATE_STAGE, 0, 8)]
    { host := { linkUp := true, replies := [⟨1, 0, 0, 0, 0, 0, 0⟩, ⟨2, 0, 0, 0, 0, 0, 0⟩] }
      pat := { mem := { hostWin := ⟨0x1000, 0x1000⟩ }, ethCell := [1] } })

/-- The link down and a command in ring B. -/
def wHostDown : State := { wHost with part := wHost.part.onDev (fun d => { d with host := { d.host with linkUp := false, ringB := [{}] } }) }

/-- A programmed key slot 0 and slot 1. -/
def keyHash0 : Nat := 0xe871e703d9de84d33585d1f6a6871628a532c99d3f9c86c1dd962b4306fc0a87
def keyHash1 : Nat := 0x0a5e2478e98bbc2162cd2efc6cfd0a1a84136fe6a83f0601830a3ff4cb8c5877
def vault2 : Vault := { slots := ⟨{}, [(0, { hash := some keyHash0 }), (1, { hash := some keyHash1 })]⟩ }

/-- The public key of slot 1. -/
def key1 : Nat := 0x7a92c46930bb70d82fdae2aa31f7acbed4438002153b2ba42fe79503b31feba6cd26fc35b3f34712752662331ae29c989b8ddc88a72fe5579b9f00ab4fb72862

/-- A debug token with the signature `sig` under the key of slot 1. -/
def token (sysId nonce slot sig : Nat) : DbgToken :=
  ⟨bytesOf 4 sysId ++ bytesOf 8 nonce ++ bytesOf 4 slot ++ List.replicate 16 0 ++ bytesFrom 64 sig, bytesFrom 64 key1⟩

/-- Signatures of slot 1 over the token for nonce 7, and over the revocation of slot 0 at PAT_GEN 0; formed outside Lean. -/
def tokenSig : Nat := 0xb43b0c0eda9adf8fcf9a9d73ec2f9c6f96860738595c2a8fc0813ac5d85073333ed3bcbbcd78f441922ea5414a445ad31eb169af1a2f370a869f687a26976c3c
def revokeSig : List Byte :=
  bytesFrom 64 0xa2e82e597a9e3b1fc338f6bba8fd3180e7525910e6ca50d327505f33636921bf13e18193ffb9236cd26bb766bdde5e3cbc763fda0bd36c23d13c7d7646b6d3f9

/-- Presence asserted, a nonce given, the mailbox ready. -/
def wSec (unlocked : Nat) : State :=
  { st (put [(.HST_PROTO_ACT, 0, 3), (.SEC_PRESENCE_PRESENT, 0, 1), (.HST_DBG_UNLOCKED, 0, unlocked)]
      (Dev.setCore { host := { nonce := 7, nonceGiven := true }, boot := { presAt := some 0 } } .A 1 { core0 with halted := true })) with
    vault := vault2 }

/-- Images with GEN 1 and GEN 2 that pass the load checks with the key of slot 0: header, a table of the six required sections, and
their bodies; signed outside Lean. -/
def img1 : Image := { bytes := bytesFrom 784 0x444e465001000600010000001003000064800db00000000001000000000000000000000000000000000000000000000000000000000000000000000000000000d9d06101b6ef04c8cc7ab8c5f3af1f4a137b45e5e183003f2486f88fda84a573d4b5af98ec5026c408d7074a05c05d924e3e12871f631ecac0be40ed9bbffa86fb202a7c50cf4714965e4c85af17553396b8722ad23f23e4cc7f4a22f715c403e683e571d19d23f6c57ad6b62b1ffa6127cc64d107a6d97a36c09aaab007ab370000000000000000000000000000000000000000000000000000000000000000000000000000000000000000000000000000000000000000000000000000000001000000200200001000000000000000ad87d4152b45c72a1be21f5348e0b779b292f9836989a6f5586aaefa6a569d7f02000000300200001000000000000000d6d7e66a710138809d3445ad43f94e708ced0ad960ff3d426991bcb77b910e910400000040020000100000000000000007986bf0886ef24e5698af8704149fee5c925eaa2ea1149f00b0f761b35c3626050000005002000010000000000000002d93d668f1507e8b507ada55863c1757bea4f0b859a41d511583c3422446fa40070000006002000010000000000000002f48d08df768cc71fe3732bba03c9557388f73f3791a760efe4916893aedadd70a00000070020000a000000000000000e05dedcbeaebd20034d833f3b21ca9ae9ede5bcf0251df746b3afd8776e1e78f01010101010101010101010101010101020202020202020202020202020202020404040404040404040404040404040405050505050505050505050505050505070707070707070707070707070707070a0a0a0a0a0a0a0a0a0a0a0a0a0a0a0a00000000000000000000000000000000d9d06101b6ef04c8cc7ab8c5f3af1f4a137b45e5e183003f2486f88fda84a573d4b5af98ec5026c408d7074a05c05d924e3e12871f631ecac0be40ed9bbffa866ae6db98fd6e6a036b609aa356ba2a61e7f2e369ae2cfa04a32e0a54d9e4b432ac1e5a91d1db347aaf8e78492cb760eb4ee277becd773e0df88ceb133a303b1e }
def img2 : Image := { bytes := bytesFrom 784 0x444e465001000600020000001003000064800db00000000001000000000000000000000000000000000000000000000000000000000000000000000000000000d9d06101b6ef04c8cc7ab8c5f3af1f4a137b45e5e183003f2486f88fda84a573d4b5af98ec5026c408d7074a05c05d924e3e12871f631ecac0be40ed9bbffa865ddf2f617089409132e866cf0d7dbe43c75f977ceb763d84a0d82b394a6a8a4e0c411f9f07b29fca9d0ade82f746c5389a14535599ef48536ad74fcf44bef9390000000000000000000000000000000000000000000000000000000000000000000000000000000000000000000000000000000000000000000000000000000001000000200200001000000000000000ad87d4152b45c72a1be21f5348e0b779b292f9836989a6f5586aaefa6a569d7f02000000300200001000000000000000d6d7e66a710138809d3445ad43f94e708ced0ad960ff3d426991bcb77b910e910400000040020000100000000000000007986bf0886ef24e5698af8704149fee5c925eaa2ea1149f00b0f761b35c3626050000005002000010000000000000002d93d668f1507e8b507ada55863c1757bea4f0b859a41d511583c3422446fa40070000006002000010000000000000002f48d08df768cc71fe3732bba03c9557388f73f3791a760efe4916893aedadd70a00000070020000a000000000000000e05dedcbeaebd20034d833f3b21ca9ae9ede5bcf0251df746b3afd8776e1e78f01010101010101010101010101010101020202020202020202020202020202020404040404040404040404040404040405050505050505050505050505050505070707070707070707070707070707070a0a0a0a0a0a0a0a0a0a0a0a0a0a0a0a00000000000000000000000000000000d9d06101b6ef04c8cc7ab8c5f3af1f4a137b45e5e183003f2486f88fda84a573d4b5af98ec5026c408d7074a05c05d924e3e12871f631ecac0be40ed9bbffa866ae6db98fd6e6a036b609aa356ba2a61e7f2e369ae2cfa04a32e0a54d9e4b432ac1e5a91d1db347aaf8e78492cb760eb4ee277becd773e0df88ceb133a303b1e }

/-- Flash that holds an image and its record in a slot. -/
def flashOf (slot : Nat) (m : Image) : Mems := flashProg (slotBase slot) (slotRecord m) (flashProg (slotBase slot + 0x100) m.bytes {})

/-- The same with the memories that it stands in. -/
def inFlash (slot : Nat) (m : Image) (s : State) : State := { s with part := { s.part with mems := flashOf slot m } }

/-- Start-up stage `n`, with the image in slot 0 or with erased slots. -/
def wStage (n : Nat) (img : Option Image) : State :=
  { st (putAB [(.MEM_DRAM_STAT_SIZE, 0, 1)] (put [(.SYS_STATE_STAGE, 0, n)] { boot := { slotA := ⟨if img.isSome then .committed else .erased, 1, img⟩ } })) with vault := vault2 }
def wStaged : State := inFlash 0 img1 (wStage 3 (some img1))

/-- The mailbox with presence, and Pattern write `w`. -/
def wWrite (w : Option PatWrite) : State :=
  { st (putAB [(.MEM_DRAM_STAT_SIZE, 0, 1)] (put [(.HST_PROTO_ACT, 0, 3), (.SEC_PRESENCE_PRESENT, 0, 1)] { boot := {
      write := w, reads := [⟨0, 8, 0, ⟨0x113, 1, 0, 0, 0, 0, 0⟩⟩] } })) with vault := vault2 }

/-- A write of the image into slot 1 at a step. -/
def write1 (step : WriteStep) : PatWrite := ⟨1, img1, step, 784, 0, 784, true, none⟩

/-- The write before its read-back, slot 1 of the flash holding the image and its record. -/
def wReadBack : State := inFlash 1 img1 (wWrite (some (write1 .readBack)))

/-- Slot 0 active, slot 1 with a committed image of GEN 2, presence asserted. -/
def wTwo : State :=
  inFlash 1 img2 { st (putAB [(.MEM_DRAM_STAT_SIZE, 0, 1)] (put [(.HST_PROTO_ACT, 0, 3), (.SEC_PRESENCE_PRESENT, 0, 1)]
      { boot := { active := some 0, slotA := ⟨.committed, 1, some img1⟩, slotB := ⟨.committed, 2, some img2⟩ } })) with vault := vault2 }

/-- A flash that was erased reads back what is programmed into it. -/
theorem flashBytes_blank (a : Nat) (bs : List Byte) : flashBytes (flashProg a bs {}) a bs.length = bs := by
  refine List.ext_getElem (by simp [flashBytes]) (fun k h1 h2 => ?_)
  have h := flashByte_prog bs a (a + k) (m := {}) rfl
  have h0 : flashByte {} (a + k) = BitVec.allOnes 8 := by simp [flashByte, Mem.byte, Sparse.find]
  rw [if_pos (by omega), h0, Nat.add_sub_cancel_left, List.getD_eq_getElem?_getD, List.getElem?_eq_getElem h2, Option.getD_some, BitVec.allOnes_and] at h
  simpa [flashBytes] using h

/-- Every byte of a record reads back, and an image behind the record. -/
theorem flashOf_record (slot : Nat) (m : Image) (k : Nat) (hk : k < 48) :
    flashByte (flashOf slot m) (slotBase slot + k) = (slotRecord m).getD k 0 := by
  have hr : (slotRecord m).length = 48 := by simp [slotRecord, bytesOf, bytesFrom]
  have hw : (flashProg (slotBase slot + 0x100) m.bytes {}).wf = true := flashProg_wf _ _ rfl
  have h0 (x : Nat) : flashByte {} x = BitVec.allOnes 8 := by simp [flashByte, Mem.byte, Sparse.find]
  have h := flashByte_prog (slotRecord m) (slotBase slot) (slotBase slot + k) hw
  rw [if_pos (by omega), flashByte_prog m.bytes (slotBase slot + 0x100) (slotBase slot + k) (m := {}) rfl, if_neg (by omega), h0,
    Nat.add_sub_cancel_left, BitVec.allOnes_and] at h
  exact h

theorem flashOf_bytes (slot : Nat) (m : Image) : flashBytes (flashOf slot m) (slotBase slot + 0x100) m.bytes.length = m.bytes := by
  have hr : (slotRecord m).length = 48 := by simp [slotRecord, bytesOf, bytesFrom]
  have hw : (flashProg (slotBase slot + 0x100) m.bytes {}).wf = true := flashProg_wf _ _ rfl
  refine Eq.trans (List.map_congr_left (fun k hk => ?_)) (flashBytes_blank (slotBase slot + 0x100) m.bytes)
  have h := flashByte_prog (slotRecord m) (slotBase slot) (slotBase slot + 0x100 + k) hw
  rwa [if_neg (by omega)] at h

theorem flashOf_words (slot : Nat) (m : Image) (o n : Nat) (h : o + n ≤ 48) :
    flashBytes (flashOf slot m) (slotBase slot + o) n = ((slotRecord m).drop o).take n := by
  have hr : (slotRecord m).length = 48 := by simp [slotRecord, bytesOf, bytesFrom]
  refine List.ext_getElem (by simp [flashBytes, hr]; omega) (fun k h1 h2 => ?_)
  have hk : k < n := by simpa [flashBytes] using h1
  have h3 : o + k < (slotRecord m).length := by omega
  have h4 := flashOf_record slot m (o + k) (by omega)
  rw [List.getD_eq_getElem?_getD, List.getElem?_eq_getElem h3, Option.getD_some, ← Nat.add_assoc] at h4
  simpa [flashBytes] using h4

/-- An image whose LENGTH is its size reads back, RMAGIC and IMG_HASH with it. -/
theorem flashOf_image (slot : Nat) (m : Image) (h : m.length = m.bytes.length) : slotImage (flashOf slot m) slot m = m := by
  simp only [slotImage, h, flashOf_bytes]

theorem flashOf_rmagic (slot : Nat) (m : Image) : rmagicOk (flashOf slot m) slot = true := by
  have h := flashOf_words slot m 0 4 (by omega)
  rw [Nat.add_zero] at h
  rw [rmagicOk, h]
  simp [slotRecord, bytesOf]

theorem flashOf_hash (slot : Nat) (m : Image) (h : m.length = m.bytes.length) (hh : numOf (bytesFrom 32 m.hash) = m.hash) :
    hashOk (flashOf slot m) slot m = true := by
  have h3 : ((slotRecord m).drop 16).take 32 = bytesFrom 32 m.hash := by
    have h4 : (slotRecord m).drop 16 = bytesFrom 32 m.hash := by simp [slotRecord, bytesOf]
    rw [h4, List.take_of_length_le (by simp [bytesFrom])]
  rw [hashOk, flashOf_image slot m h, flashOf_words slot m 16 32 (by omega), h3, hh]
  simp

theorem img1_length : img1.length = img1.bytes.length := by decide +kernel
theorem img2_length : img2.length = img2.bytes.length := by decide +kernel
theorem img1_hash : numOf (bytesFrom 32 img1.hash) = img1.hash := by decide +kernel
theorem img2_hash : numOf (bytesFrom 32 img2.hash) = img2.hash := by decide +kernel

/-- What is read back passes every check. -/
theorem wReadBack_image : readImage wReadBack.part.mems (write1 .readBack) = img1 := flashOf_image 1 img1 img1_length

theorem wReadBack_reads : recordReads wReadBack.part.mems (write1 .readBack) = true := by
  have h := flashOf_words 1 img1 0 16 (by omega)
  rw [Nat.add_zero, List.drop_zero] at h
  simp only [recordReads, Bool.and_eq_true, beq_iff_eq]
  exact ⟨h, flashOf_hash 1 img1 img1_length img1_hash⟩

theorem wReadBack_check :
    loadCheck wReadBack.vault wReadBack.part.dev (readImage wReadBack.part.mems (write1 .readBack)) = none := by
  rw [wReadBack_image]
  decide +kernel

theorem wReadBack_gen : genBad wReadBack.part.dev (readImage wReadBack.part.mems (write1 .readBack)) = false := by
  rw [wReadBack_image]
  decide +kernel

theorem slotCheck_none {v : Vault} {f : Mems} {d : Dev} {e : Nat × Image} (h1 : loadCheck v d e.2 = none) (h2 : hashOk f e.1 e.2 = true) :
    slotCheck v f d e = none := by
  simp [slotCheck, h1, h2, Option.orElse]

/-- The slots that hold a good image are the candidates, and pass the checks. -/
theorem wStaged_candidates : loadCandidates wStaged.part.mems wStaged.part.dev = [(0, img1)] := by
  have h : slotCandidates wStaged.part.mems wStaged.part.dev = [(0, img1)] := by
    have h1 : wStaged.part.dev.flashSlot 0 = ⟨.committed, 1, some img1⟩ := rfl
    have h2 : wStaged.part.dev.flashSlot 1 = {} := rfl
    have h3 : wStaged.part.dev.boot.slotA.gen < wStaged.part.dev.boot.slotB.gen := by decide +kernel
    have h4 : img1.gen = 1 := by decide +kernel
    rw [slotCandidates, if_pos h3]
    simp only [h1, h2, show wStaged.part.mems = flashOf 0 img1 from rfl, flashOf_rmagic, flashOf_image 0 img1 img1_length, h4]
    rfl
  rw [loadCandidates, h, if_neg (by decide +kernel)]

theorem wStaged_check : slotCheck wStaged.vault wStaged.part.mems wStaged.part.dev (0, img1) = none := by
  exact slotCheck_none (f := flashOf 0 img1) (by decide +kernel) (flashOf_hash 0 img1 img1_length img1_hash)

theorem wTwo_candidates : (slotCandidates wTwo.part.mems wTwo.part.dev).find? (fun y => y.1 != 0) = some (1, img2) := by
  have h1 : wTwo.part.dev.flashSlot 1 = ⟨.committed, 2, some img2⟩ := rfl
  have h3 : wTwo.part.dev.boot.slotA.gen < wTwo.part.dev.boot.slotB.gen := by decide +kernel
  have h4 : img2.gen = 2 := by decide +kernel
  rw [slotCandidates, if_pos h3]
  simp only [h1, show wTwo.part.mems = flashOf 1 img2 from rfl, flashOf_rmagic, flashOf_image 1 img2 img2_length, h4]
  rfl

theorem wTwo_check : slotCheck wTwo.vault wTwo.part.mems wTwo.part.dev (1, img2) = none := by
  exact slotCheck_none (f := flashOf 1 img2) (by decide +kernel) (flashOf_hash 1 img2 img2_length img2_hash)

/-- A safety output on. -/
def wSoOn : State := st (put [(.HST_PROTO_ACT, 0, 3), (.SAF_SO_ON, 0, 1)] {})

/-- An arm of three joints that is not in STO. -/
def wArmOn : State :=
  st (put [(.HST_PROTO_ACT, 0, 3), (.TB_STAT_STATE, 0, 1), (.SAF_ARM_STAT_STATE, 0, 0), (.SEC_PRESENCE_PRES_A, 0, 1), (.SEC_PRESENCE_PRES_B_N, 0, 1)]
    { pat := { arms := [(0, { joints := 3 })] } })

/-- A running cycle in phase `n`. -/
def wCycle (n : Nat) : State :=
  st (put [(.SYS_PHASE, 0, n), (.TB_STAT_STATE, 0, 1), (.SYS_CYCLE_K, 0, 4)]
    { cyc := { running := true, started := true, closeAt := 125000 * nsUnit, left := [(.A, 64)] } })

/-- The end of a cycle whose racking ended well: byte 64 of state memory is racked, as the token holder A held it. -/
def wRack : State :=
  st (put [(.SYS_PHASE, 0, 5), (.TB_STAT_STATE, 0, 1), (.SYS_CYCLE_K, 0, 4)]
    { pat := { mem := { regions := [{ cls := .racked, space := 10, lo := 64, hi := 128 }] } }
      cyc := { running := true, started := true, closeAt := 125000 * nsUnit }
      rack := some { src := .A, join := false, ok := true, here := { mem := { state := [(64, 7)] } }, there := {} } })

/-- SYNC_IN in tracking, as a follower or as a leader, with `miss` misses. -/
def wSync (role miss : Nat) : State :=
  st (put [(.SYS_CYCLE_SYNC_PAT, 0, 1), (.SYS_SYNC_CTL_SYNC_EN, 0, 1), (.SYS_SYNC_CTL_DIV, 0, 4), (.LS_STATE_ROLE, 0, role),
    (.SYS_CYCLE_K, 0, 4)]
    { cyc := { running := true, closeAt := 125000 * nsUnit }, sync := { tracking := true, missArmed := true, missCnt := miss } })

/-- SYNC_IN permitted and not enabled. -/
def wSyncOff : State := st (put [(.SYS_CYCLE_SYNC_PAT, 0, 1)] {})

/-- A solver with a cycle matrix 0 of operation `op` that core 0 and the PPE feed, and a tick matrix 1, in phase `n`. -/
def wSolver (n op : Nat) (x : SlvSt) : State :=
  st (Dev.setCore (put [(.SYS_PHASE, 0, n), (.HST_PROTO_ACT, 0, 3), (.TB_STAT_STATE, 0, 1)]
    { pat := { solver := { mats := [(0, { op := op, k := 1, map := [0, 0], ent := [5, 6] }), (1, { cls := 1 })], prods := [[0], []] } }
      planeA := { slv := x } }) .A 0 core0)

/-- The batches of both classes run and every matrix is final. -/
def wSolverDone : State :=
  { wSolver 4 0 { mats := ⟨{ final := true }, []⟩ } with
    part := (wSolver 4 0 { mats := ⟨{ final := true }, []⟩ }).part.onDev (putA [(.SLV_STATUS_CYC, 0, 1), (.SLV_STATUS_TICK, 0, 1)]) }

/-- A queue of deltas without room. -/
def wSolverFull : State := wSolver 0 0 { q := List.replicate 4096 (0, ⟨0, 0, 0, 0, 0, 0⟩) }

/-- Two arms of three joints in a block, steppers 64 (with its output) and 66 (moving),
and auxiliary axis 65, with the mailbox ready. -/
def motionDev : Dev :=
  put [(.HST_PROTO_ACT, 0, 3), (.TB_STAT_STATE, 0, 1)]
    { pat := {
        arms := [(0, { joints := 3 }), (1, { first := 3, joints := 3 })]
        aux := [(64, { stepper := true, out := true }), (65, {}), (66, { stepper := true })]
        geom := { blocks := [(0, {
          members := [0, 1] })] } }
      planeA := {
        ppe := { aux := ⟨{}, [(66, { prof := { phases := [⟨0, 10⟩] } })]⟩ }
        lpe := { ax := ⟨{}, [(0, { zeroFor := 2 })]⟩ } } }

/-- The arms apart, coupled and held, and in STO or a fault that has not cleared. -/
def wMotion : State := st motionDev
def wCoupled : State :=
  st (putAB [(.PPE_ARM_COOP_COUPLED, 0, 1), (.PPE_ARM_COOP_COUPLED, 1, 1), (.PPE_BLK_STAT_COUPLED, 0, 1), (.PPE_ARM_STAT_STATE, 0, 3),
    (.PPE_ARM_STAT_STATE, 1, 3)] motionDev)
def wArmFault : State := st (putAB [(.PPE_ARM_STAT_STATE, 0, 4), (.LPE_AX_STAT_FAULT, 0, 1)] motionDev)
def wArmFree : State := st (putAB [(.LPE_AX_STAT_STO, 0, 0), (.LPE_AX_STAT_STO, 1, 0), (.LPE_AX_STAT_STO, 2, 0)] (put [(.SAF_ARM_STAT_STATE, 0, 0)] motionDev))

/-- The closure error of the two arms is within the tolerances. -/
theorem wMotion_coupleOk : coupleOk .A 0 (wMotion.part.dev.meas .A) wMotion.part.dev = true := by
  decide +kernel

/-- Feedback channel 0 in mode `m` at quadrature position (a, b), armed for the index, SSI of 8 bits. -/
def wFb (m : Nat) (a b : Bool) : State :=
  st (put [(.FB_CFG_MODE, 0, m), (.FB_STAT_ARMED, 0, 1), (.FB_CFG_SSI_BITS, 0, 8), (.FB_CFG_IDX_MODE, 0, 1)]
    { field := { fb := ⟨{ a := a, b := b, cnt := 2 ^ 48 - 1 }, []⟩ } })

/-- The same with the index in use. -/
def wFbIdx : State := { wFb 1 true false with part := (wFb 1 true false).part.onDev (put [(.FB_CFG_Z_USE, 0, 1)]) }

/-- Pulse dividers enabled with a backlog of `b`, and a wire fault of channel 1. -/
def wPo (b : Int) : State :=
  st (put [(.PO_CFG_EN, 0, 1), (.FB_CFG_MODE, 1, 1), (.FB_WIRE_A, 1, 1), (.PO_CFG_MIN_SEP, 0, 20), (.PO_NUM, 0, 1)] { field := { po := ⟨{ backlog := b }, []⟩ } })

/-- Safety outputs `on`, ED input 0 on output 2. -/
def wSaf (on : Nat) : State := st (put [(.SAF_SO_ON, 0, on)] { pat := { safety := { edOut := [(0, 2)] } } })

/-- Safety input 2 reads high on TP1 and has missed a pulse of it. -/
def wSi : State :=
  st { pat := { safety := { tpOf := [(2, 1)] } }, saf := { a := { lvl := 4 }, b := { lvl := 4 }, missTp := ⟨0, [(2, 1)]⟩ } }

/-- A self-test in progress. -/
def wSelftest : State := st { saf := { selftest := true } }

/-- A handover in progress, degraded mode with its time run out by cause 2, and a separation stop of arm 0 that may clear. -/
def wDegr (cond : SensCond) : State :=
  st (put [(.SAF_STATE_HANDOVER, 0, 1), (.SAF_STATE_MODE, 0, 1), (.SAF_DEGR_CAUSE, 0, 4), (.SAF_DEGR_REMAIN, 0, 0)]
    { saf := { a := { ssm := ⟨{}, [(0, { stop := true, clearOk := true })]⟩, sens := ⟨{}, [(0, { cond := cond })]⟩ } } })

/-- Plane A in state `n`, tasting on or off. -/
def wPlane (n pass : Nat) (tasting : Bool) : State :=
  st (put [(.RED_ROLE_A_STATE, 0, n), (.RED_BULK_PASS, 0, pass)] { red := { taste := { on := tasting, begun := tasting } } })

/-- A quiet moment of the roles, the token with plane A or B, riddling or not. -/
def wRole (b riddle : Nat) : State :=
  st (put [(.RED_ROLE_ACTIVE, 0, b), (.RED_ROLE_RIDDLE, 0, riddle)] { cyc := { running := true }, red := { swap := 1024 } })

/-- The time unit: TB0 runs, TB1 runs from PTP, TB4 waits, a stamp in queue 0, sixteen in queue 1, event outputs 0 and 1 armed, and
output 2 on the base that waits. -/
def wTime : State :=
  st (put [(.HST_PROTO_ACT, 0, 3), (.TB_STAT_STATE, 0, 1), (.TB_STAT_STATE, 1, 1), (.TB_CTL_SRC, 1, 2), (.PTP_INFO_VALID, 0, 1),
      (.PTP_CFG_HOLD_SRC, 0, 1), (.TEV_CFG_ARM, 0, 1), (.TEV_CFG_ARM, 1, 1), (.TEV_CFG_MODE, 1, 1), (.TEV_CFG_ARM, 2, 1),
      (.TEV_CFG_BASE, 2, 4), (.SYS_STATE_STAGE, 0, 8)]
    { time := { ptpq := ⟨[⟨1, 0, false, false, 5⟩], [(1, List.replicate 16 ⟨1, 0, false, false, 5⟩)]⟩
                tev := ⟨{ next := some 1000000 }, []⟩ } })

/-- Port 0 in state `n` with self address 3, rank 5, node 7 of owner 3 in slot 9, late-comers 8 and 6 for slot 10, and words that it reads from
controller 5. -/
def wPort (n role : Nat) (x : PortSt) : State :=
  st (putAB [(.LPE_AX_STAT_STO, 64, 1)] <| put [(.LS_STATE, 0, n), (.LS_STATE_ROLE, 0, role), (.SYS_CYCLE_K, 0, 4), (.LS_SCHED_GUARD, 0, 100)]
    { pat := { ring := [(0, {
        self := 3, rank := 5
        nodes := [(6, { owner := 3, late := some (10, 0) }), (7, { owner := 3, axes := [64], sfVer := 1 }), (8, { owner := 3, late := some (10, 0) })]
        slots := [(9, { owners := [some 7], lenMax := 60 }), (10, { owners := [none] })]
        reads := [{ src := 5, axis := 64, speed := 1 }] })] }
      ring := { ports := ⟨{}, [(0, x)]⟩ } })

/-- The same with axis 64 outside STO. -/
def wPortOn : State := { wPort 1 0 {} with part := (wPort 1 0 {}).part.onDev (putAB [(.LPE_AX_STAT_STO, 64, 0)]) }

/-- Port LS0 of the Pleat cell (worked example of 12_lockstitch_schedule.md): delays of node `k` from the leader at address 0, 33 drives, a
stepper, two sensors, a safety I/O node, and the uplink slots. -/
def pleatNode (k : Nat) : Nat × NodeSec :=
  (k, { sfVer := 2, dP := 80 * k + 5 * 4 + 17 * (k - 1), dS := 80 * (38 - k) + 5 * 4 + 17 * (37 - k), axes := if k ≤ 34 then [k - 1] else []
        cmdOfs := if k ≤ 34 then 12 * (k - 1) else 0 })
def pleatSlot (k : Nat) : Nat × SlotSec :=
  if k ≤ 27 then (k, { ref := 4592 + 304 * k, lenMax := 52, owners := [some (k + 1)] })
  else if k ≤ 33 then (k, { ref := 13104 + 312 * (k - 28), lenMax := 56, owners := [some (k + 1)] })
  else if k ≤ 37 then (k, { ref := 14976 + 656 * (k - 34), lenMax := 228, mux := 1, owners := [some 35, some 36] })
  else (k, { ref := 17600, lenMax := 40, owners := [some 37] })
def pleatPort : PortSec :=
  { dLoop := 3692, nodes := (List.range 37).map (fun k => pleatNode (k + 1)), slots := (List.range 39).map pleatSlot
    words := (List.range 21).map .core }
def pleat : Pattern := { cell := { syncPat := true }, aux := [(33, { stepper := true })], ring := [(0, pleatPort)] }

/-- LS0 of the Pleat cell, sewn and led by this controller, at the end of φ1 of an odd cycle after the cable between nodes 20 and 21 parted: P
copies are missing from nodes 1 to 20, S copies from nodes 21 to 37 (worked example of 13_lockstitch_startup_healing.md). -/
def wPleatBreak : Dev :=
  put [(.LS_STATE, 0, 5), (.LS_STATE_ROLE, 0, 1), (.SYS_CYCNT, 0, 1)]
    { pat := pleat
      ring := { ports := ⟨{}, [(0, { lockP := true, lockS := true, nodes := ⟨{}, (List.range 37).map (fun k =>
        (k + 1, { state := 3, gotP := decide (20 ≤ k), gotS := decide (k < 20) }))⟩ })]⟩ } }

/-- A frame of VER 1 from `src`, cycle 0, and the header with which it arrives. -/
def tx (type src win : Nat) (pay : List Nat) : TxFrame := { type := type, ver := 1, flags := 0, src := src, win := win, cyc := 0, pay := pay }
def hd (type src win : Nat) (pay : List Nat) : RxHead := (tx type src win pay).rx

/-- A sync frame of node 1, of schedule digest `sched`; a sync frame whose FCS is wrong. -/
def syncOf (cycnt sched : Nat) : SyncRx :=
  let f : SyncFrame := ⟨1000, cycnt, 500, 1, 1, 5, sched, none, 1, 0⟩
  { head := hd tySync 1 winNone f.bytes, src := 1, pay := f.bytes, err := 0 }
def sync0 : SyncRx := syncOf 7 0
def syncBad : SyncRx := { sync0 with head := { sync0.head with fcs := 0 } }

/-- The sync frame that sync0 follows. -/
def syncPrev : SyncFrame := { (syncOf 6 0).frame with tBnd := 500 }

/-- A tack frame of node 1 with a rank under digest `sched`; one whose FCS is wrong. -/
def tackOf (rank sched : Nat) : TackRx :=
  { head := hd tyTack 1 winNone (tackBytes rank 1 0 sched 0), path := .P, src := 1, lsVer := 1, ident := 0 }
def tackBad : TackRx := { tackOf 4 0 with head := { (tackOf 4 0).head with fcs := 0 } }

/-- A cycle frame of controller `src` with the command record 1, 2, 3 of node 7 and two words. -/
def cycleBytes : List Nat := cyclePay [] (recordBytes false [1, 2, 3]) [1, 0, 0, 0, 2, 0, 0, 0]
def cycleOf (src : Nat) : CycleRx := { head := hd tyCycle src 0 cycleBytes, path := .P, pay := cycleBytes }

/-- A permission sub-frame of channel A or B for the nodes `on`, to a node of SFv1. -/
def permOf (b : Bool) (seq : Nat) (on : List Nat) : PermHead :=
  let stamp := List.replicate 12 0
  { sfType := permType b, ver := 1, stamp := stamp
    crc := crc32 (safInit 3 b) (safHead (permType b) 1 0 0 seq stamp ++ permMap 1 on) }

/-- The header of a slot frame of node 7, whose payload is a process record. -/
def procPay : SlotPayload := .process [] [⟨5, 6, 7, 0, 0⟩] []
def slotHead : RxHead := hd tySlot 7 0 (procPay.bytes [false])

/-- A claim of late-comer 8 for slot 10. -/
def claim8 : ClaimRx :=
  { head := hd tyClaim 8 0 (claimBytes 10 1 4 0 (nodeIdent 0 0 8)), path := .P, slot := 10, lsVer := 1, sched := 0, ident := nodeIdent 0 0 8 }

/-- Capture in state `n` on base 0, channel 3 enabled where `div` is not 0, trigger bus line 1 faulty, one output pulse, and a cellar
region with a staged record. -/
def wCap (n div tb0 stage : Nat) : State :=
  st (put [(.CAP_STAT_STATE, 0, n), (.CAP_CH_CFG_EN, 3, 1), (.CAP_CH_CFG_DIV, 3, div), (.TB_STAT_STATE, 0, tb0), (.CAP_TBUS_STAT_LINE_FLT, 0, 2), (.CAP_TBUS_CTL_PRESENT, 0, 3),
      (.SYS_STATE_STAGE, 0, stage), (.CEL_SIZE, 0, 64)]
    { cyc := { closeAt := 125000 * nsUnit }
      cap := { outs := [{ line := 0 }], levels := 2, lead := ⟨none, [(0, some (0, 0))]⟩ }
      cellar := { staging := if div = 0 then [] else [⟨0, 0, false, 0, 0, 0, 0, 0, []⟩] } })

/-- A result without an error, by evaluation. -/
theorem eq_ok {ε α : Type} [DecidableEq α] {x : Except ε α} {a : α}
    (h : (match x with
      | .ok b => decide (b = a)
      | .error _ => false) = true) : x = .ok a := by
  cases x with
  | error e => simp at h
  | ok b => simp at h; rw [h]

/-- An error, by evaluation. -/
theorem eq_error {ε α : Type} [DecidableEq ε] {x : Except ε α} {e : ε}
    (h : (match x with
      | .ok _ => false
      | .error e' => decide (e' = e)) = true) : x = .error e := by
  cases x with
  | error e' => simp at h; rw [h]
  | ok b => simp at h

end Sys2Proof.Tests
end

