-- ==== Sys2Proof/Tests/Slice0.lean ====
section
/-! SUPPORT. Tests: ill-formed commands that the check refuses, instruction words written out from the opcode map, the manual's worked
figures, and for every statement with hypotheses a state and operands that meet them. -/

namespace Sys2Proof.Tests

open Sys2Proof Sys2Proof.Machine

-- The tests are elaborated one after the other, which keeps the number of threads small.
set_option Elab.async false

/-! ### Ill-formed commands -/

/-- Mailbox rows whose header names another row's code. -/
def wrongCode : List Instr :=
  let h : MbxHdr := { code := 0x1FF }
  [.patWrite h 0 0 16 true true img1, .patActivate h, .patSwitch h, .flashRead h 0 16 0, .keyProgram h 0 1, .keyRevoke h 0 1 1 (List.replicate 64 0),
   .keyRevoke { code := 0x123 } 0 1 1 [0],
   .segAppend h 0 [List.replicate 32 0], .auxMove h 0 {}, .msTableLoad h 0 (List.replicate 256 0), .axisSetpos h 0 0, .msPark h 0,
   .stop (.mbx h) 0, .qstop (.mbx h) 0, .resume (.mbx h) 0, .abort (.mbx h) 0, .couple h 0, .decouple h 0, .loopClear h 0,
   .slvDelta h [⟨0, 0, 0, 0, 0, 0⟩], .timeInit h 0 0, .timeStep h 0 (.off 0), .taskPost h 0 0, .ladderSet h 2,
   .debugUnlock h ⟨[], []⟩, .debugLock h, .cellarNote h (List.replicate 12 65)]

theorem test_wf_refuses_codes : wrongCode.all (fun i => !i.wf) = true := by decide +kernel

/-- Rows whose writer names a core that the part has not. -/
def wrongCore : List Instr :=
  let who : Actor := .core .A 10
  [.apply who .icu 1, .stop (.reg who) 0, .ppeOvr who 0 0, .slvDeltaHi who 0 0, .timerArm who 0 0, .timerDisarm who 0 0, .icuRaise who 0,
   .icuSrcWrite who (.src 0) 0, .memBankpwr who 0 0, .ladderTarget who 0, .debugPortAccess (.halt .A 10), .debugPortAccess (.step .A 10),
   .debugPortAccess (.read .A 10 0 4), .debugPortAccess (.write .A 10 0 [0])]

theorem test_wf_refuses_cores : wrongCore.all (fun i => !i.wf) = true := by decide +kernel

/-- Rows of the cell cycle, of registers, of motion and of the solver with an operand out of its range. -/
def wrongMotion : List Instr :=
  [.phaseStart 0 [] false [], .phaseStart 1 [(.A, 128)] false [], .apply .host .mem 1, .apply .host .time 2,
   .registerWrite 0x200000 0, .registerWrite 2 0, .segAppend { code := 0x10 } 0 [], .segAppend { code := 0x10 } 0 [List.replicate 31 0],
   .segAppend { code := 0x10 } 0 (List.replicate 17 (List.replicate 32 0)), .auxMove { code := 0x11 } 0 { mode := 3 },
   .auxMove { code := 0x11 } 0 { tbase := 8 }, .msTableLoad { code := 0x12 } 0 [0], .msTableLoad { code := 0x12 } 0 (List.replicate 256 65536),
   .stop (.reg .host) 8, .slvDelta { code := 0x13 } [], .slvDelta { code := 0x13 } (List.replicate 65 ⟨0, 0, 0, 0, 0, 0⟩),
   .norm .A 0 5 5 6]

theorem test_wf_refuses_motion : wrongMotion.all (fun i => !i.wf) = true := by decide +kernel

/-- Rows of the safety plane, the ring, power and the host link with an operand out of its range. -/
def wrongLinks : List Instr :=
  [.safetyCycleStart 256 0 0 false, .safetyCycleStart 0 256 0 false, .testPulse 0 65536 false, .soTestPulse 0 true [8],
   .permissionSubframe 0 0 .a (2 ^ 32) [] (permOf false 0 []), .permissionSubframe 0 0 .a 0 [256] (permOf false 0 []),
   .slotFrame 0 1024 .P slotHead 0 true 0 procPay, .slotFrame 0 0 .P { slotHead with type := 16 } 0 true 0 procPay, .slotEmpty 0 1024,
   .syncFrame 0 0 .P { sync0 with src := 512 }, .cycleFrameAccept 0 0 0 { cycleOf 3 with pay := [256] },
   .tackFrame 0 0 (2 ^ 32) none (tackOf 0 0) 0, .claimFrame 0 0 0 [] claim8, .claimFrame 0 0 16 [] claim8, .claimFrame 0 0 1 [512] claim8,
   .paceWindow [1],
   .doorbell false 8 [], .doorbell false (2 ^ 20) [], .doorbell false 16 [{ u := true }], .doorbell false 16 [{ seq := 2 ^ 32 }],
   .rplRp 16, .rplRp (2 ^ 19), .bar4Write 0 [], .bar4Write (2 ^ 34) [0], .cellarNote { code := 0x130 } (List.replicate 11 65),
   .cellarNote { code := 0x130 } (List.replicate 4093 65), .aiSample 0 32768 false, .aiSample 0 (-32769) false]

theorem test_wf_refuses_links : wrongLinks.all (fun i => !i.wf) = true := by decide +kernel

/-- The same rows in range are well formed. -/
theorem test_wf_takes : ([.phaseStart 1 [(.A, 127)] false [⟨0, 23, some 1, none⟩], .apply .host .time 1, .registerWrite 0x1FFFFC 0, .patActivate { code := 0x111 },
    .segAppend { code := 0x10 } 0 [List.replicate 32 0], .stop (.reg .host) 7, .stop (.mbx { code := 0x101 }) 23, .norm .A 0 5 4 6,
    .paceWindow (List.replicate 16 1), .doorbell false 16 [{}], .rplRp 32, .cellarNote { code := 0x130 } (List.replicate 12 65)] :
    List Instr).all Instr.wf = true := by decide +kernel

/-! ### Instruction words, bit by bit from the formats and the opcode map (R427, R429) -/

/-- Words and what they spell. The words of ADD, RETI, EXP and FTAP2 are the manual's own examples. -/
def words : List (Nat × Instr) :=
  [(0b000000_00011_00100_00101_0_0000000000, .add .A 0 false 3 4 5),
   (0b000000_00011_00100_00101_1_0000011000, .div .A 0 true 3 4 5),
   (0b000001_01001_00101_00000_0_0000010000, .exp .A 0 9 5),
   (0b000001_00111_00110_00101_0_0000010001, .norm .A 0 7 5 6),
   (0b000001_00101_00000_00111_0_0000100001, .mts .A 0 5 7),
   (0b000100_00110_00000_0001000000111100, .addi .A 0 6 0 0x103C),
   (0b000111_01010_00000_0001000000000000, .lui .A 0 10 0x1000),
   (0b001001_00101_001_000_0_10_0_11111000100, .st .A 0 5 1 0 false 2 0x7C4 false false),
   (0b001000_00110_010_011_1_11_1_00000001000, .ld .A 0 6 2 3 true 3 true 8 .clean),
   (0b001100_10_00101_00110_1_0_000000_000001, .msu .A 0 2 5 6 true),
   (0b001100_00_01001_00000_0_1_011110_001000, .aext .A 0 0 9 30 true),
   (0b010010_00001_00010_1111111111111110, .blt .A 0 1 2 0xFFFE),
   (0b011000_11111_000000000000000000011, .jal .A 0 31 3),
   (0b011100_001_01_01000_0000000000000000, .movm .A 0 1 8),
   (0b100000_00110_010_000_0_10_1_00000000100, .swap .A 0 6 2 false 2 4 .clean false),
   (0b111100_00_001_001_010_010_0_1_0_000000000, .ftap2 .A 0 0 1 1 2 2 false false .clean),
   (0b111110_10100101_00000000_0000010000, .trap .A 0 0xA5),
   (0b111110_00000000_00000000_0000000011, .reti .A 0)]

theorem test_words_decode : words.all (fun e => fd32Decode .A 0 .clean false false (BitVec.ofNat 32 e.1) == e.2) = true := by decide +kernel

theorem test_words_encode : words.all (fun e => fd32Encode e.2 == some (BitVec.ofNat 32 e.1)) = true := by decide +kernel

/-- The manual's own words (R429, special encodings, worked example of 15_cores_datapath.md). -/
theorem test_words_given : words[0].1 = 0x00642800 ∧ words[17].1 = 0xF8000003 ∧ words[2].1 = 0x05250010 ∧ words[15].1 = 0xF0252400 := by
  decide +kernel

/-- R427: OP 0x3F, an undefined FUNC, a reserved field and S where the map forbids it are illegal. -/
theorem test_words_illegal : ([0xFC000000, 0x0000003F, 0xF8000403, 0x00642C02] : List Nat).all (fun w =>
    fd32Decode .A 0 .clean false false (BitVec.ofNat 32 w) == .illegal .A 0) = true := by decide +kernel

/-! ### The manual's figures -/

/-- R430: EXP gives 0 to 31; the count of zero and of minus one is 31. -/
theorem test_exp : expW 0 = 31 ∧ expW 0xFFFFFFFF = 31 ∧ expW 0x40000000 = 0 ∧ expW 1 = 30 := by decide +kernel

/-- Full-scale test of 15_cores_datapath.md: after the second FTAP2 one guard bit of a0 is in use. -/
theorem test_guard_bit : (expA (BitVec.ofNat 72 (6 * 2 ^ 30 * 0x7FFFFFFF)) : Int) - 8 = -1 := by decide +kernel

/-- R259: for system node 35 the register of a CRC that shifts the least significant bit first starts at 0xC400_FFFF. -/
theorem test_crc_start : bitRev 32 (Nat.xor 0xFFFF0000 35) = 0xC400FFFF := by decide +kernel

/-- R410, R411: a pulse of 318 ns comes from controller 3; no controller sends one of 225 ns. -/
theorem test_sender : senderOf 318 = some 3 ∧ senderOf 225 = none := by decide +kernel

/-- The published check values of the CRC-16 and the CRC-32 that R339 names, over the characters 1 to 9. -/
theorem test_crc_check : let b := (List.range 9).map (49 + ·); crc16 b = 0x29B1 ∧ crc32 0xFFFFFFFF b = 0xCBF43926 := by decide +kernel

/-- Worked example of 12_lockstitch_schedule.md: the cycle frame of the Pleat cell has 680 bytes of payload and occupies 1.400 µs from
R = 25.692 µs on, every sum of LS0 holds with G = 160 ns, and the uplink fills φ1 to its end less 0.20 µs, so no greater G fits. -/
theorem test_pleat_schedule : cycleLen pleat pleatPort = 680 ∧ (25692, 1400) ∈ portWindows pleat pleatPort 5000 ∧
    tMinOf pleat.cell = 109250 ∧ scheduleOk pleat pleatPort 160 5000 = true ∧ scheduleOk pleat pleatPort 162 5000 = false := by decide +kernel

/-- Worked example of 13_lockstitch_startup_healing.md: a cable between nodes 20 and 21 wraps the port with BREAK_AT 20. -/
theorem test_pleat_break : let d := ringPhase1End 0 wPleatBreak
    d.rd .LS_STATE_WRAPPED 0 = 1 ∧ d.rd .LS_STATE_BREAK_AT 0 = 20 ∧ d.rd .LS_HEAL_WRAP_CNT 0 = 1 := by decide +kernel

/-- R526 to R528: TP2 is on ball AJ21, the transmit pair of port 1, path S, on A15 and A16. -/
theorem test_balls : (Signal.tp 2).balls.map Ball.name = ["AJ21"] ∧ (Signal.lsTx 1 .S).balls.map Ball.name = ["A15", "A16"] := by decide +kernel

/-- GB/T 32905, example 1: the hash of "abc". -/
theorem test_sm3 : sm3 [0x61, 0x62, 0x63] = 0x66C7F0F462EEEDD9D1F2D46BDC10E4E24167C4875CF2F7A2297DA02B8F4BA8E0 := by decide +kernel

/-! ### States that meet the hypotheses of the statements -/

theorem witness_LogicResults :
    (let p : Plane := .A;
     let c : Fin 10 := 0;
     let s : State := wCore;
     s.part.dev.coreActive p c = true) := by decide +kernel

theorem witness_OverflowResults :
    (let p : Plane := .A;
     let c : Fin 10 := 0;
     let s : State := wCore;
     s.part.dev.coreActive p c = true) := by decide +kernel

theorem witness_DivideResults :
    (let p : Plane := .A;
     let c : Fin 10 := 0;
     let s : State := wCore;
     s.part.dev.coreActive p c = true) := by decide +kernel

theorem witness_ExponentResults :
    (let p : Plane := .A;
     let c : Fin 10 := 0;
     let gd : Fin 32 := 6;
     let gb : Fin 32 := 7;
     let s : State := wCore;
     s.part.dev.coreActive p c = true ∧ gd ≠ gb) := by decide +kernel

theorem witness_SystemRegisters :
    (let p : Plane := .A;
     let c : Fin 10 := 0;
     let n : Fin 8 := 5;
     let s : State := wCore;
     s.part.dev.coreActive p c = true ∧ n.val ≠ 7) ∧
    (let p : Plane := .A;
     let c : Fin 10 := 0;
     let n : Fin 8 := 7;
     let s : State := wCore;
     s.part.dev.coreActive p c = true ∧ n.val = 7) := by decide +kernel

theorem witness_AccumulatorResults :
    (let p : Plane := .A;
     let c : Fin 10 := 0;
     let s : State := wCore;
     s.part.dev.coreActive p c = true) := by decide +kernel

theorem witness_AccumulatorTransfers :
    (let p : Plane := .A;
     let c : Fin 10 := 0;
     let gd : Fin 32 := 0;
     let s : State := wCore;
     s.part.dev.coreActive p c = true ∧ gd.val < 31) := by decide +kernel

theorem witness_FlowAndPointerResults :
    (let p : Plane := .A;
     let c : Fin 10 := 0;
     let ga : Fin 32 := 5;
     let s : State := wCore;
     s.part.dev.coreActive p c = true ∧ (s.part.dev.core p c).rg ga &&& 3 = 0) := by decide +kernel

theorem witness_LoadResults :
    (let p : Plane := .A;
     let c : Fin 10 := 0;
     let g : Fin 32 := 6;
     let pi : Fin 8 := 1;
     let pm : Bool := false;
     let size : Fin 4 := 2;
     let disp : BitVec 11 := 0;
     let ecc : Ecc := .clean;
     let t : Target := .loc 0x40;
     let s : State := wCore;
     let k := s.part.dev.core p c;
     let n := 2 ^ size.val;
     let a := if pm then k.rp pi else k.rp pi + disp.signExtend 32;
     s.part.dev.coreActive p c = true ∧ formOk g pm size disp ∧ accessCheck s.part.dev p c a.toNat n false false = .ok t ∧ (ecc =
         .double → hasEcc t = false)) := by
  dsimp only
  and_intros <;> first | decide +kernel | exact eq_ok (by decide +kernel) | (intro q; cases q <;> decide +kernel)

theorem witness_StoreLocal :
    (let p : Plane := .A;
     let c : Fin 10 := 0;
     let g : Fin 32 := 2;
     let pi : Fin 8 := 1;
     let pm : Bool := false;
     let size : Fin 4 := 2;
     let disp : BitVec 11 := 0;
     let o : Nat := 0x40;
     let s : State := wCore;
     let k := s.part.dev.core p c;
     let a := if pm then k.rp pi else k.rp pi + disp.signExtend 32;
     s.part.dev.coreActive p c = true ∧ formOk g pm size disp ∧ s.memWf = true ∧ accessCheck s.part.dev p c a.toNat (2 ^ size.val)
         true false = .ok (.loc o) ∧ rackHolds s.part.dev c o (2 ^ size.val) = false) ∧
    (let p : Plane := .A;
     let c : Fin 10 := 0;
     let g : Fin 32 := 2;
     let pi : Fin 8 := 4;
     let pm : Bool := false;
     let size : Fin 4 := 2;
     let disp : BitVec 11 := 0;
     let o : Nat := 0;
     let s : State := wHold;
     let k := s.part.dev.core p c;
     let a := if pm then k.rp pi else k.rp pi + disp.signExtend 32;
     s.part.dev.coreActive p c = true ∧ formOk g pm size disp ∧ s.memWf = true ∧ accessCheck s.part.dev p c a.toNat (2 ^ size.val)
         true false = .ok (.loc o) ∧ rackHolds s.part.dev c o (2 ^ size.val) = true) := by
  dsimp only
  and_intros <;> first | decide +kernel | exact eq_ok (by decide +kernel) | (intro q; cases q <;> decide +kernel)

theorem witness_StoreElsewhere :
    (let p : Plane := .A;
     let c : Fin 10 := 0;
     let g : Fin 32 := 2;
     let pi : Fin 8 := 1;
     let pm : Bool := false;
     let size : Fin 4 := 2;
     let disp : BitVec 11 := 0;
     let o : Nat := 0x10;
     let s : State := wPosted;
     let k := s.part.dev.core p c;
     let n := 2 ^ size.val;
     let a := if pm then k.rp pi else k.rp pi + disp.signExtend 32;
     let check := accessCheck s.part.dev p c a.toNat n true false;
     s.part.dev.coreActive p c = true ∧ formOk g pm size disp ∧ s.memWf = true ∧ check = .ok (.state o) ∧ rackHolds s.part.dev 10 o n
         = false) ∧
    (let p : Plane := .A;
     let c : Fin 10 := 0;
     let g : Fin 32 := 2;
     let pi : Fin 8 := 2;
     let pm : Bool := false;
     let size : Fin 4 := 2;
     let disp : BitVec 11 := 0;
     let o : Nat := 0x10;
     let s : State := wPosted;
     let k := s.part.dev.core p c;
     let n := 2 ^ size.val;
     let a := if pm then k.rp pi else k.rp pi + disp.signExtend 32;
     let check := accessCheck s.part.dev p c a.toNat n true false;
     s.part.dev.coreActive p c = true ∧ formOk g pm size disp ∧ s.memWf = true ∧ check = .ok (.dram o) ∧ s.part.dev.postedCount p < 32) ∧
    (let p : Plane := .A;
     let c : Fin 10 := 0;
     let g : Fin 32 := 2;
     let pi : Fin 8 := 3;
     let pm : Bool := false;
     let size : Fin 4 := 2;
     let disp : BitVec 11 := 0;
     let o : Nat := 0x70040;
     let s : State := wPosted;
     let k := s.part.dev.core p c;
     let n := 2 ^ size.val;
     let a := if pm then k.rp pi else k.rp pi + disp.signExtend 32;
     let check := accessCheck s.part.dev p c a.toNat n true false;
     s.part.dev.coreActive p c = true ∧ formOk g pm size disp ∧ s.memWf = true ∧ check = .ok (.view o)) ∧
    (let p : Plane := .A;
     let c : Fin 10 := 0;
     let g : Fin 32 := 2;
     let pi : Fin 8 := 1;
     let pm : Bool := false;
     let size : Fin 4 := 2;
     let disp : BitVec 11 := 0;
     let o : Nat := 0x10;
     let s : State := wHold;
     let k := s.part.dev.core p c;
     let n := 2 ^ size.val;
     let a := if pm then k.rp pi else k.rp pi + disp.signExtend 32;
     let check := accessCheck s.part.dev p c a.toNat n true false;
     s.part.dev.coreActive p c = true ∧ formOk g pm size disp ∧ s.memWf = true ∧ check = .ok (.state o) ∧ rackHolds s.part.dev 10 o n
         = true) := by
  dsimp only
  and_intros <;> first | decide +kernel | exact eq_ok (by decide +kernel) | (intro q; cases q <;> decide +kernel)

theorem witness_PostedStores :
    (let p : Plane := .A;
     let c : Fin 10 := 0;
     let x : Posted := ⟨0x10, [1, 2]⟩;
     let rest : List Posted := [];
     let s : State := wPosted;
     let k := s.part.dev.core p c;
     s.memWf = true ∧ k.posted = x :: rest ∧ s.part.dev.coreActive p c = true) := by decide +kernel

theorem witness_AtomicResults :
    (let p : Plane := .A;
     let c : Fin 10 := 0;
     let pi : Fin 8 := 1;
     let disp : BitVec 11 := 0;
     let o : Nat := 0x10;
     let s : State := wPosted;
     let k := s.part.dev.core p c;
     let a := k.rp pi + disp.signExtend 32;
     s.part.dev.coreActive p c = true ∧ s.memWf = true ∧ accessCheck s.part.dev p c a.toNat 4 true true = .ok (.state o)) ∧
    (let p : Plane := .A;
     let c : Fin 10 := 0;
     let pi : Fin 8 := 1;
     let disp : BitVec 11 := 0;
     let o : Nat := 0x10;
     let s : State := wHold;
     let k := s.part.dev.core p c;
     let a := k.rp pi + disp.signExtend 32;
     s.part.dev.coreActive p c = true ∧ s.memWf = true ∧ accessCheck s.part.dev p c a.toNat 4 true true = .ok (.state o) ∧ rackHolds
         s.part.dev 10 o 4 = true) := by
  dsimp only
  and_intros <;> first | decide +kernel | exact eq_ok (by decide +kernel) | (intro q; cases q <;> decide +kernel)

theorem witness_FilterTaps :
    (let p : Plane := .A;
     let c : Fin 10 := 0;
     let px : Fin 8 := 1;
     let pc : Fin 8 := 2;
     let two : Bool := false;
     let s : State := wCore;
     let k := s.part.dev.core p c;
     let x := (k.rp px).toNat;
     let y := (k.rp pc).toNat;
     let held := (tapWrites two x).any (fun v => rackHolds s.part.dev c v.toNat 4);
     s.part.dev.coreActive p c = true ∧ s.memWf = true ∧ tapCheck s.part.dev c two x y = none ∧ held = false) ∧
    (let p : Plane := .A;
     let c : Fin 10 := 0;
     let px : Fin 8 := 5;
     let pc : Fin 8 := 5;
     let two : Bool := false;
     let s : State := wHold;
     let k := s.part.dev.core p c;
     let x := (k.rp px).toNat;
     let y := (k.rp pc).toNat;
     let held := (tapWrites two x).any (fun v => rackHolds s.part.dev c v.toNat 4);
     s.part.dev.coreActive p c = true ∧ s.memWf = true ∧ tapCheck s.part.dev c two x y = none ∧ held = true) := by decide +kernel

theorem witness_SleepAndReturn :
    (let p : Plane := .A;
     let c : Fin 10 := 0;
     let s : State := wCore;
     s.part.dev.coreActive p c = true ∧ (s.part.dev.core p c).epc &&& 3 = 0) ∧
    (let p : Plane := .A;
     let c : Fin 10 := 0;
     let s : State := wAsleep;
     (s.part.dev.core p c).asleep = true ∧ s.part.dev.coreOff p c = false ∧ s.part.dev.wakes p c = true) := by decide +kernel

theorem witness_ExceptionEntry :
    (let p : Plane := .A;
     let c : Fin 10 := 0;
     let ga : Fin 32 := 4;
     let s : State := wCore;
     let k := s.part.dev.core p c;
     s.part.dev.coreActive p c = true ∧ k.rg ga &&& 3 ≠ 0) ∧
    (let p : Plane := .A;
     let c : Fin 10 := 0;
     let s : State := wEret;
     let k := s.part.dev.core p c;
     s.part.dev.coreActive p c = true ∧ k.epc &&& 3 ≠ 0) := by decide +kernel

theorem witness_AccessExceptions :
    (let p : Plane := .A;
     let c : Fin 10 := 0;
     let g : Fin 32 := 3;
     let pm : Bool := false;
     let size : Fin 4 := 3;
     let disp : BitVec 11 := 0;
     let s : State := wCore;
     s.part.dev.coreActive p c = true ∧ (¬ formOk g pm size disp) ∧ (pm = true ∨ size.val ≠ 2)) ∧
    (let p : Plane := .A;
     let c : Fin 10 := 0;
     let g : Fin 32 := 6;
     let pi : Fin 8 := 1;
     let pm : Bool := false;
     let size : Fin 4 := 2;
     let disp : BitVec 11 := 0;
     let e : Code := .BUS_REGION;
     let s : State := wRegion;
     let k := s.part.dev.core p c;
     let x := if pm then k.rp pi else k.rp pi + disp.signExtend 32;
     let n := 2 ^ size.val;
     s.part.dev.coreActive p c = true ∧ formOk g pm size disp ∧ accessCheck s.part.dev p c x.toNat n false false = .error e ∧
         accessCheck s.part.dev p c x.toNat n true false = .error e ∧ pm = false ∧ size.val = 2 ∧ accessCheck s.part.dev p c x.toNat 4
         true true = .error e) ∧
    (let p : Plane := .A;
     let c : Fin 10 := 0;
     let g : Fin 32 := 6;
     let pi : Fin 8 := 1;
     let pm : Bool := false;
     let size : Fin 4 := 2;
     let disp : BitVec 11 := 0;
     let t : Target := .loc 0x40;
     let s : State := wCore;
     let k := s.part.dev.core p c;
     let x := if pm then k.rp pi else k.rp pi + disp.signExtend 32;
     let n := 2 ^ size.val;
     s.part.dev.coreActive p c = true ∧ formOk g pm size disp ∧ accessCheck s.part.dev p c x.toNat n false false = .ok t ∧ hasEcc t =
         true) ∧
    (let p : Plane := .A;
     let c : Fin 10 := 0;
     let g : Fin 32 := 2;
     let pi : Fin 8 := 1;
     let pm : Bool := false;
     let size : Fin 4 := 2;
     let disp : BitVec 11 := 0;
     let o : Nat := 0x10;
     let s : State := wLost;
     let k := s.part.dev.core p c;
     let x := if pm then k.rp pi else k.rp pi + disp.signExtend 32;
     let n := 2 ^ size.val;
     s.part.dev.coreActive p c = true ∧ formOk g pm size disp ∧ accessCheck s.part.dev p c x.toNat n true false = .ok (.state o) ∧
         k.csw.getLsbD 2 = true ∧ rackHolds s.part.dev 10 o n = false) ∧
    (let p : Plane := .A;
     let c : Fin 10 := 0;
     let pi : Fin 8 := 1;
     let pc : Fin 8 := 2;
     let two : Bool := false;
     let y : Exc := excAlign 0x41;
     let s : State := wTap;
     let k := s.part.dev.core p c;
     s.part.dev.coreActive p c = true ∧ tapCheck s.part.dev c two (k.rp pi).toNat (k.rp pc).toNat = some y) := by
  dsimp only
  and_intros <;> first | decide +kernel | exact eq_ok (by decide +kernel) | exact eq_error (by decide +kernel)

theorem witness_RetiRestores :
    (let p : Plane := .A;
     let c : Fin 10 := 0;
     let s : State := wHandler;
     let d := s.part.dev;
     let k := d.core p c;
     let m := s.part.mems.loc p c;
     let f := d.rdP p .ICU_CORE_FBASE c + 8 * k.depth;
     let k' : Core := { k with pc := alignPc (m.read f 4), csw := BitVec.ofNat 32 (m.read (f + 4) 4) &&& 0xFFF, depth := k.depth - 1, entryWin := none, step := false };
     s.part.dev.coreActive p c = true ∧ k.depth ≠ 0 ∧ k.claims = [] ∧ (∀ x, d.rdP p .ICU_SRC_PEND x = 0) ∧ (d.setCore p c
         k').switchDue p c = none) ∧
    (let p : Plane := .A;
     let c : Fin 10 := 0;
     let s : State := wCore;
     let d := s.part.dev;
     let k := d.core p c;
     s.part.dev.coreActive p c = true ∧ k.depth = 0 ∧ k.csw.getLsbD 3 = false) := by
  dsimp only
  and_intros <;> first | decide +kernel | rfl | (intro q; rfl)

theorem witness_MailboxRefusals :
    (let i : Instr := .patActivate { code := 0x111, u := true, len := 8 };
     let h : MbxHdr := { code := 0x111, u := true, len := 8 };
     let c : Code := .MBX_FORMAT;
     let s : State := wMbx;
     headerOf i = some h ∧ s.part.dev.reads h = true ∧ mbxCheck h s.part.dev = some c) := by decide +kernel

theorem witness_HostWritesHeld :
    (let arm : Fin 24 := 7;
     let s : State := wPhase5;
     s.part.dev.rd .SYS_PHASE = 5 ∧ s.part.dev.cyc.running = true ∧ arm.val < 8) := by decide +kernel

theorem witness_InterruptSources :
    (let who : Actor := .host;
     let src : Fin 512 := 448;
     let x : Fin 512 := 15;
     let q : Plane := .A;
     let s : State := w0;
     who.actsIn s.part.dev q ∧ ((10 ≤ src.val ∧ src.val ≤ 13) ∨ 448 ≤ src.val) ∧ x.val ≠ 14) := by decide +kernel

theorem witness_InterruptClaims :
    (let p : Plane := .A;
     let src : Fin 512 := 5;
     let c : Nat := 0;
     let s : State := wSource;
     s.part.dev.claimer p src = some c) := by decide +kernel

theorem witness_InterruptEntry :
    (let p : Plane := .A;
     let c : Fin 10 := 0;
     let x : Nat × Nat := (9,4);
     let s : State := wSource;
     let d0 := s.part.dev;
     let k := d0.core p c;
     s.part.dev.coreActive p c = true ∧ s.memWf = true ∧ k.csw.getLsbD 1 = true ∧ k.csw.getLsbD 3 = false ∧ bestClaim (k.csw.toNat /
         256 % 16) k.claims = some x ∧ k.entryWin = none ∧ k.depth < 15 ∧ x.2 < 16 ∧ rackHolds d0 c (d0.rdP p .ICU_CORE_FBASE c + 8 *
         (k.depth + 1)) 8 = false) ∧
    (let p : Plane := .A;
     let c : Fin 10 := 0;
     let x : Nat × Nat := (9,4);
     let s : State := racking wSource;
     let d0 := s.part.dev;
     let k := d0.core p c;
     s.part.dev.coreActive p c = true ∧ s.memWf = true ∧ k.csw.getLsbD 1 = true ∧ k.csw.getLsbD 3 = false ∧ bestClaim (k.csw.toNat /
         256 % 16) k.claims = some x ∧ k.entryWin = none ∧ k.depth < 15 ∧ x.2 < 16 ∧ rackHolds d0 c (d0.rdP p .ICU_CORE_FBASE c + 8 *
         (k.depth + 1)) 8 = true) := by decide +kernel

theorem witness_TaskPosts :
    (let p : Plane := .A;
     let c : Fin 10 := 0;
     let t : Fin 1024 := 1;
     let a : Act := { arg := 8 };
     let r : List Act := [];
     let s : State := wTask;
     let d0 := s.part.dev;
     let td := d0.taskDesc t;
     let open_ := bit td.posters c = true ∧ td.qdepth ≠ 0;
     d0.coreActive p c = true ∧ open_ ∧ d0.taskParked p t = false ∧ d0.rdP p .TSK_TASK_EN t ≠ 0 ∧ d0.taskRoom p t = true ∧ (d0.tsk
         p).held.get t = a :: r) ∧
    (let p : Plane := .A;
     let c : Fin 10 := 0;
     let t : Fin 1024 := 2;
     let s : State := wTask;
     let d0 := s.part.dev;
     let td := d0.taskDesc t;
     let open_ := bit td.posters c = true ∧ td.qdepth ≠ 0;
     d0.coreActive p c = true ∧ open_ ∧ d0.taskParked p t = false ∧ d0.rdP p .TSK_TASK_EN t ≠ 0 ∧ d0.taskRoom p t = false ∧ td.core ≠
         c) ∧
    (let p : Plane := .A;
     let c : Fin 10 := 0;
     let t : Fin 1024 := 4;
     let s : State := wTask;
     let d0 := s.part.dev;
     let td := d0.taskDesc t;
     let open_ := bit td.posters c = true ∧ td.qdepth ≠ 0;
     d0.coreActive p c = true ∧ (¬open_)) ∧
    (let p : Plane := .A;
     let c : Fin 10 := 0;
     let x : StalledPost := ⟨1, {}, 0⟩;
     let s : State := wTask3;
     let d0 := s.part.dev;
     let k := d0.core p c;
     k.stall = some x ∧ d0.taskParked p x.task = false ∧ d0.taskRoom p x.task = true) := by decide +kernel

theorem witness_HostTaskPost :
    (let h : MbxHdr := { code := 0x14, len := 16 };
     let t : Fin 1024 := 1;
     let s : State := wMbx;
     let d0 := s.part.dev;
     let td := d0.taskDesc t;
     h.deliveredToPlanes s.part.dev ∧ bit td.posters 10 = true ∧ td.qdepth ≠ 0 ∧ (∀ p, d0.taskParked p t = false ∧ d0.rdP p
         .TSK_TASK_EN t ≠ 0 ∧ d0.taskRoom p t = true)) := by
  dsimp only
  and_intros <;> first | decide +kernel | exact eq_ok (by decide +kernel) | (intro q; cases q <;> decide +kernel)

theorem witness_TaskFlow :
    (let p : Plane := .A;
     let c : Fin 10 := 0;
     let t : Nat := 3;
     let a : Act := { arg := 7 };
     let r : List Act := [];
     let s : State := wTask;
     let d0 := s.part.dev;
     let k := d0.core p c;
     s.part.dev.coreActive p c = true ∧ k.intTask = none ∧ d0.chosen p c false = some t ∧ (d0.tsk p).q.get t = a :: r) ∧
    (let p : Plane := .A;
     let c : Fin 10 := 0;
     let s : State := wTask4;
     let d0 := s.part.dev;
     let k := d0.core p c;
     s.part.dev.coreActive p c = true ∧ k.intTask ≠ none) ∧
    (let p : Plane := .A;
     let c : Fin 10 := 0;
     let t : Nat := 1;
     let a : Act := { arg := 5 };
     let r : List Act := [];
     let s : State := wTask;
     let d0 := s.part.dev;
     s.part.dev.coreActive p c = true ∧ d0.switchDue p c = some t ∧ rackHolds d0 c (d0.saveArea p c) 0x110 = false ∧ (d0.tsk
         p).saved.get t = none ∧ (d0.tsk p).q.get t = a :: r) ∧
    (let p : Plane := .A;
     let c : Fin 10 := 0;
     let t : Nat := 1;
     let s : State := racking wTask;
     let d0 := s.part.dev;
     s.part.dev.coreActive p c = true ∧ d0.switchDue p c = some t ∧ rackHolds d0 c (d0.saveArea p c) 0x110 = true) := by decide +kernel

theorem witness_Timers :
    (let who : Actor := .host;
     let t : Fin 64 := 5;
     let cfg : Fin 16 := 0;
     let q : Plane := .A;
     let s : State := wTimer;
     let d0 := s.part.dev;
     let b := cfg.val % 8;
     let at_ (q : Plane) := t96 (d0.rdP q .TSK_TMR_T_NS t) (d0.rdP q .TSK_TMR_T_SL t) (d0.rdP q .TSK_TMR_T_SEC_HI t) (d0.rdP q
         .TSK_TMR_T_FRAC t);
     d0.baseState b ≠ 0 ∧ (∀ q, who.actsIn d0 q → d0.rdP q .TSK_TMR_CTL_ARMED t = 0 ∧ (cfg.val < 8 → d0.base b + 1000 * nsUnit ≤ at_
         q) ∧ (8 ≤ cfg.val → d0.rdP q .TSK_TMR_PER t ≠ 0)) ∧ who.actsIn d0 q) ∧
    (let t : Fin 64 := 4;
     let q : Plane := .A;
     let s : State := wTimer;
     let d0 := s.part.dev;
     d0.rdP q .TSK_TMR_CTL_ARMED t ≠ 0 ∧ (reachInstant (d0.tmr q t).base (d0.tmr q t).next d0).isSome = true) ∧
    (let t : Fin 64 := 4;
     let q : Plane := .A;
     let s : State := wTimerOff;
     let d0 := s.part.dev;
     d0.rdP q .TSK_TMR_CTL_ARMED t ≠ 0 ∧ reachInstant (d0.tmr q t).base (d0.tmr q t).next d0 = none) := by
  dsimp only
  and_intros <;> first | decide +kernel | exact eq_ok (by decide +kernel) | (intro q; cases q <;> decide +kernel)

theorem witness_BanksAndScrub :
    (let who : Actor := .host;
     let i : Fin 2 := 0;
     let w : Word := 0x55;
     let j : Fin 16 := 0;
     let st : BankPwr := .ret;
     let a : Nat := 0x0DFFFFFF;
     let q : Plane := .A;
     let s : State := wDram;
     let d0 := s.part.dev;
     who.actsIn d0 q ∧ BankPwr.ofNum (w.toNat / 4 ^ j.val % 4) = some st ∧ bankLocked d0 (16 * i + j) = false ∧ a < d0.dramUsable) := by decide +kernel

theorem witness_PaceWindows :
    (let laps : List Nat := [1300,1100,1100,1100,1100,1100,1100,1100,1100,1100,1100,1100,1100,1100,1100,1200];
     let m : Nat := 1100;
     let s : State := wPace;
     let d0 := s.part.dev;
     let v := d0.rd .PWR_AVS_VCMD;
     laps.length = 16 ∧ m ∈ laps ∧ (∀ x ∈ laps, m ≤ x) ∧ d0.ladder ≤ 2 ∧ d0.rd .SYS_STATE_STAGE ≠ 0 ∧ d0.pwr.paceFault = false ∧ d0.rd
         .PWR_AVS_AVS_ERR = 0 ∧ d0.rd .PWR_AVS_VMIN ≤ v ∧ v ≤ d0.rd .PWR_AVS_VMAX ∧ d0.rd .PWR_AVS_VMAX < 256 ∧ (m < 1000 → v ≠ d0.rd
         .PWR_AVS_VMAX)) := by decide +kernel

theorem witness_VoltageAndTemperature :
    (let tj : Int := -2048;
     let w : Word := 0;
     let s : State := wStage 3 none;
     let d0 := s.part.dev;
     let lo := w.toNat / 256 % 256;
     let hi := w.toNat / 65536 % 256;
     let top := if allSto d0 then hi else d0.rd .PWR_AVS_VMAX;
     d0.rd .SYS_STATE_STAGE ≠ 0 ∧ d0.rd .SYS_LADDER_STATE ≤ 3 ∧ -2048 ≤ tj ∧ tj ≤ 2047 ∧ (lo < 120 ∨ 180 < lo ∨ hi < 120 ∨ 180 < hi ∨
         top < lo)) ∧
    (let s : State := wAvs;
     let d0 := s.part.dev;
     d0.pwr.avsFails = 2 ∧ d0.pwr.avsPending = false) ∧
    (let s : State := wAvs3;
     let d0 := s.part.dev;
     d0.rd .PWR_AVS_AVS_ERR = 1 ∧ d0.pwr.avsPending = true) ∧
    (let w : Word := 0xB47800;
     let s : State := w0;
     let d0 := s.part.dev;
     let lo := w.toNat / 256 % 256;
     let hi := w.toNat / 65536 % 256;
     let top := if allSto d0 then hi else d0.rd .PWR_AVS_VMAX;
     120 ≤ lo ∧ lo ≤ 180 ∧ 120 ≤ hi ∧ hi ≤ 180 ∧ lo ≤ top) := by decide +kernel

theorem witness_LadderRequests :
    (let who : Actor := .core .A 8;
     let w : Word := 0x18;
     let h : MbxHdr := { code := 0x106, u := true, len := 8 };
     let s : State := wIdle;
     let d0 := s.part.dev;
     let entitled := who = .host ∨ [Plane.A, Plane.B].any (fun p => who == .core p 8 && d0.coreActive p 8) = true;
     d0.rd .SYS_LADDER_STATE = 2 ∧ d0.pwr.busyTo = none ∧ d0.pwr.target = none ∧ d0.rd .SAF_SO_ON = 0 ∧ leadsShared d0 = false ∧
         entitled ∧ w.toNat / 8 % 8 = 3 ∧ h.deliveredTo d0) ∧
    (let who : Actor := .host;
     let w : Word := 0x18;
     let h : MbxHdr := { code := 0x106, u := true, len := 8 };
     let s : State := wIdleOn;
     let d0 := s.part.dev;
     let entitled := who = .host ∨ [Plane.A, Plane.B].any (fun p => who == .core p 8 && d0.coreActive p 8) = true;
     d0.rd .SYS_LADDER_STATE = 2 ∧ d0.pwr.busyTo = none ∧ d0.pwr.target = none ∧ d0.rd .SAF_SO_ON ≠ 0 ∧ entitled ∧ w.toNat / 8 % 8 = 3
         ∧ h.deliveredTo d0) := by decide +kernel

theorem witness_LadderSteps :
    (let s : State := wSleep 3 { target := some 5 };
     let d0 := s.part.dev;
     let st := d0.rd .SYS_LADDER_STATE;
     d0.descends = true ∧ d0.pwr.later = none ∧ st = 3) ∧
    (let s : State := wSleep 4 { target := some 5 };
     let d0 := s.part.dev;
     let st := d0.rd .SYS_LADDER_STATE;
     d0.descends = true ∧ d0.pwr.later = none ∧ st = 4) ∧
    (let src : Fin 20 := 19;
     let s : State := wSleep 3 {};
     let d0 := s.part.dev;
     let st := d0.rd .SYS_LADDER_STATE;
     st = 3 ∧ wakeEnabled src d0 = true ∧ d0.pwr.busyTo = none ∧ d0.pwr.target = none ∧ d0.rd .SYS_LADDER_WAKE_TO < 3) ∧
    (let s : State := wSleep 3 { busyTo := some 2 };
     let d0 := s.part.dev;
     let st := d0.rd .SYS_LADDER_STATE;
     d0.pwr.later = none ∧ st = 3 ∧ d0.pwr.busyTo = some 2) ∧
    (let s : State := wSleep 4 { busyTo := some 3 };
     let d0 := s.part.dev;
     let st := d0.rd .SYS_LADDER_STATE;
     d0.pwr.later = none ∧ st = 4 ∧ d0.pwr.busyTo = some 3) := by decide +kernel

theorem witness_HostLinkRegisters :
    (let n : Nat := 8;
     let cmds : List MbxHdr := [{ code := 0x14, len := 16 }];
     let s : State := wHost;
     let d0 := s.part.dev;
     d0.rd .HST_STATUS_MBX_READY ≠ 0 ∧ (∀ x ∈ d0.host.ringB ++ d0.host.ringU ++ cmds, x.code ≠ 0) ∧ n < 2 ^ 20 ∧ n < 2 ^ 19 ∧
         d0.host.ringB = [] ∧ d0.host.ringU = [] ∧ d0.rd .HST_PROTO_MAX < 256 ∧ d0.rd .HST_WDOG_WDOG_T ≠ 0 ∧ d0.host.timedOut = false) ∧
    (let s : State := wHostDown;
     let d0 := s.part.dev;
     (d0.host.ringB ≠ [] ∨ d0.host.ringU ≠ [])) ∧
    (let n : Nat := 8;
     let s : State := w0;
     let d0 := s.part.dev;
     d0.rd .HST_STATUS_MBX_READY = 0 ∧ n < 2 ^ 20 ∧ (d0.rd .HST_WDOG_WDOG_T = 0 ∨ d0.host.timedOut = true)) := by decide +kernel

theorem witness_HostLinkEvents :
    (let len : Nat := 64;
     let n : Nat := 16;
     let t : BitVec 16 := 10;
     let s : State := wHost;
     let d0 := s.part.dev;
     d0.host.linkUp = true ∧ 64 ≤ len ∧ len ≤ 1522 ∧ n < 2 ^ 20 ∧ n < 2 ^ 19 ∧ d0.host.ringB = [] ∧ d0.host.ringU = [] ∧ 10 ≤ t.toNat
         ∧ d0.rd .HST_WDOG_WDOG_T ≠ 0 ∧ d0.host.timedOut = false) ∧
    (let s : State := wHostDown;
     let d0 := s.part.dev;
     d0.host.linkUp = false ∧ d0.rd .SYS_STATE_STAGE ≠ 0 ∧ d0.rd .SYS_LADDER_STATE ≤ 3) := by decide +kernel

theorem witness_HostWindow :
    (let o : Nat := 0x1FFC;
     let bs : List Byte := [1, 2, 3, 4];
     let s : State := wHost;
     let d0 := s.part.dev;
     let a := d0.rd .HST_WIN_BASE * 4096 + o;
     let w := d0.pat.mem.hostWin;
     s.memWf = true ∧ s.part.dev.rd .HST_STATUS_MBX_READY ≠ 0 ∧ w.base ≤ a ∧ a + bs.length ≤ w.base + w.size ∧ a + bs.length ≤
         d0.dramUsable) ∧
    (let o : Nat := 0x1FFD;
     let bs : List Byte := [1, 2, 3, 4];
     let s : State := wHost;
     let d0 := s.part.dev;
     let a := d0.rd .HST_WIN_BASE * 4096 + o;
     let w := d0.pat.mem.hostWin;
     s.memWf = true ∧ s.part.dev.rd .HST_STATUS_MBX_READY ≠ 0 ∧ (a < w.base ∨ w.base + w.size < a + bs.length) ∧ d0.host.winRefusedAt
         = none) := by decide +kernel

theorem witness_DebugAndNotes :
    (let h : MbxHdr := { code := 0x124, u := true, len := 96 };
     let tok : DbgToken := token 0xD8064B0 7 1 tokenSig;
     let text : List Nat := [65];
     let s : State := wSec 0;
     let d0 := s.part.dev;
     let locked := d0.rd .HST_DBG_UNLOCKED = 0;
     h.deliveredTo d0 ∧ tokenOk s.vault tok d0 = true ∧ d0.present = true ∧ locked ∧ text ≠ [] ∧ text.length ≤ 12 ∧ (∀ x ∈ text, x <
         256) ∧ d0.cellar.staging.length < 8192) ∧
    (let h : MbxHdr := { code := 0x125, u := true };
     let tok : DbgToken := token 0xD8064B0 7 1 0;
     let p : Plane := .A;
     let c : Fin 10 := 1;
     let s : State := wSec 1;
     let d0 := s.part.dev;
     let locked := d0.rd .HST_DBG_UNLOCKED = 0;
     h.deliveredTo d0 ∧ tokenOk s.vault tok d0 = false ∧ (¬locked) ∧ (d0.core p c).halted = true ∧ d0.rd .HST_DBG_UNLOCKED = 1 ∧
         allSto d0 = true ∧ d0.rd .SAF_SO_ON = 0) ∧
    (let p : Plane := .A;
     let c : Fin 10 := 2;
     let s : State := wSec 1;
     let d0 := s.part.dev;
     let locked := d0.rd .HST_DBG_UNLOCKED = 0;
     (¬locked) ∧ allSto d0 = true ∧ (d0.core p c).halted = false) := by decide +kernel

theorem witness_StartUp :
    (let pin : Bool := true;
     let rail : Bool := false;
     let s : State := wStage 1 none;
     let d0 := s.part.dev;
     let stage := d0.rd .SYS_STATE_STAGE;
     (pin || rail) = true ∧ d0.boot.inReset = true ∧ stage = 1) ∧
    (let s : State := wStage 2 none;
     let d0 := s.part.dev;
     let stage := d0.rd .SYS_STATE_STAGE;
     stage = 2) ∧
    (let s : State := wStage 3 none;
     let d0 := s.part.dev;
     let stage := d0.rd .SYS_STATE_STAGE;
     (stage = 3 ∨ stage = 4) ∧ d0.boot.keepExit = false ∧ loadCandidates s.part.mems d0 = []) ∧
    (let i : Nat := 0;
     let m : Image := img1;
     let l : List (Nat × Image) := [];
     let s : State := wStaged;
     let d0 := s.part.dev;
     let stage := d0.rd .SYS_STATE_STAGE;
     (stage = 3 ∨ stage = 4) ∧ d0.boot.keepExit = false ∧ loadCandidates s.part.mems d0 = (i, m) :: l ∧ slotCheck s.vault s.part.mems
         d0 (i, m) = none) ∧
    (let s : State := wStage 5 none;
     let d0 := s.part.dev;
     let stage := d0.rd .SYS_STATE_STAGE;
     stage = 5 ∧ d0.boot.stopped = false ∧ d0.boot.keepExit = false ∧ d0.boot.keepRing = false ∧ d0.runs .A = true ∧ d0.runs .B = true) := by
  dsimp only
  and_intros <;> first | with_reducible exact wStaged_candidates | with_reducible exact wStaged_check | decide +kernel

theorem witness_PatternWrites :
    (let h : MbxHdr := { code := 0x110, len := 16 };
     let win : Nat := 0;
     let len : Nat := 16;
     let last : Bool := false;
     let m : Image := img1;
     let s : State := wWrite none;
     let d0 := s.part.dev;
     h.deliveredTo d0 ∧ d0.boot.write = none ∧ len % 16 = 0 ∧ len ≤ 0x800000 ∧ win + len ≤ 0xE00000 ∧ len ≤ m.length ∧ (last = true →
         len = m.length) ∧ headerCheck s.vault d0 m = none ∧ genBad d0 m = false ∧ s.memWf = true ∧ len ≤ 0x100000 ∧ activateStatus d0 =
         0 ∧ slotCandidates s.part.mems d0 = [] ∧ d0.boot.active = none) ∧
    (let h : MbxHdr := { code := 0x110, len := 16 };
     let first : Bool := false;
     let w : PatWrite := write1 .erase;
     let s : State := wWrite (some (write1 .erase));
     let d0 := s.part.dev;
     let busy := d0.boot.write = some w;
     h.deliveredTo d0 ∧ busy ∧ (first = true ∨ w.step ≠ .wait) ∧ w.step = .erase) ∧
    (let w : PatWrite := write1 .program;
     let s : State := wWrite (some (write1 .program));
     let d0 := s.part.dev;
     let busy := d0.boot.write = some w;
     s.memWf = true ∧ busy ∧ w.step = .program ∧ w.last = true) ∧
    (let w : PatWrite := write1 .readBack;
     let s : State := wReadBack;
     let d0 := s.part.dev;
     let busy := d0.boot.write = some w;
     busy ∧ w.step = .readBack ∧ recordReads s.part.mems w = true ∧ loadCheck s.vault d0 (readImage s.part.mems w) = none ∧ genBad d0
         (readImage s.part.mems w) = false ∧ d0.present = true) ∧
    (let w : PatWrite := write1 .readBack;
     let s : State := wWrite (some (write1 .readBack));
     let d0 := s.part.dev;
     let busy := d0.boot.write = some w;
     busy ∧ w.step = .readBack ∧ recordReads s.part.mems w = false) ∧
    (let w : PatWrite := write1 .commit;
     let s : State := wWrite (some (write1 .commit));
     let d0 := s.part.dev;
     let busy := d0.boot.write = some w;
     s.memWf = true ∧ busy ∧ w.step = .commit) ∧
    (let x : FlashRead := ⟨0, 8, 0, ⟨0x113, 1, 0, 0, 0, 0, 0⟩⟩;
     let l : List FlashRead := [];
     let s : State := wWrite none;
     let d0 := s.part.dev;
     s.memWf = true ∧ d0.boot.reads = x :: l) ∧
    (let h : MbxHdr := { code := 0x111, u := true };
     let s : State := wSoOn;
     let d0 := s.part.dev;
     h.deliveredTo d0 ∧ activateStatus d0 ≠ 0) ∧
    (let h : MbxHdr := { code := 0x112, u := true };
     let i : Nat := 0;
     let e : Nat × Image := (1, img2);
     let s : State := wTwo;
     let d0 := s.part.dev;
     h.deliveredTo d0 ∧ d0.boot.active = some i ∧ (slotCandidates s.part.mems d0).find? (fun y => y.1 != i) = some e ∧ slotCheck
         s.vault s.part.mems d0 e = none ∧ d0.present = true) := by
  dsimp only
  and_intros <;> first | with_reducible exact wReadBack_reads | with_reducible exact wReadBack_check | with_reducible exact wReadBack_gen | with_reducible exact wTwo_candidates |
    with_reducible exact wTwo_check |
    decide +kernel

theorem witness_KeysAndPresence :
    (let h : MbxHdr := { code := 0x122, u := true, len := 40 };
     let slot : Fin 4 := 2;
     let signer : Fin 4 := 0;
     let key : Nat := 0;
     let sig : List Byte := [];
     let c : Code := .PAT_KEY;
     let s : State := wSec 0;
     let d0 := s.part.dev;
     h.deliveredTo d0 ∧ keyProgramFault s.vault d0 slot = none ∧ keyRevokeFault s.vault d0 slot signer key sig = some c ∧
         d0.boot.presAt ≠ none ∧ allSto d0 = true) ∧
    (let h : MbxHdr := { code := 0x122, u := true, len := 40 };
     let slot : Fin 4 := 0;
     let c : Code := .PAT_KEY;
     let s : State := wSec 0;
     let d0 := s.part.dev;
     h.deliveredTo d0 ∧ keyProgramFault s.vault d0 slot = some c) ∧
    (let h : MbxHdr := { code := 0x123, u := true, len := 40 };
     let slot : Fin 4 := 0;
     let signer : Fin 4 := 1;
     let key : Nat := key1;
     let sig : List Byte := revokeSig;
     let s : State := wSec 0;
     let d0 := s.part.dev;
     h.deliveredTo d0 ∧ keyRevokeFault s.vault d0 slot signer key sig = none) ∧
    (let s : State := wArmOn;
     let d0 := s.part.dev;
     d0.rd .SEC_PRESENCE_PRES_A = d0.rd .SEC_PRESENCE_PRES_B_N ∧ allSto d0 = false) := by decide +kernel

theorem witness_CellCycle :
    (let n : Fin 6 := 0;
     let s : State := wCycle 5;
     let d0 := s.part.dev;
     d0.boundaryDue = true ∧ d0.phaseDue n = false ∧ d0.cyc.running = true ∧ d0.rd .SYS_PHASE = 5 ∧ d0.cyc.rackDone = false ∧
         d0.red.taste.on = false) ∧
    (let n : Fin 6 := 1;
     let s : State := wCycle 0;
     let d0 := s.part.dev;
     d0.boundaryDue = false ∧ d0.phaseDue n = true ∧ n.val = 1 ∧ n.val ≤ 4 ∧ (d0.cyc.running = false ∨ d0.rd .SYS_PHASE ≠ 5 ∨
         d0.cyc.rackDone = true)) ∧
    (let n : Fin 6 := 5;
     let s : State := wCycle 4;
     let d0 := s.part.dev;
     d0.phaseDue n = true ∧ n.val = 5) ∧
    (let r : RackRun := { src := .A, join := false, ok := true, here := { mem := { state := [(64, 7)] } }, there := {} };
     let s : State := wRack;
     let d0 := s.part.dev;
     let dst := r.src.other;
     s.memWf = true ∧ d0.boundaryDue = true ∧ d0.rack = some r ∧ r.ok = true ∧ r.join = false ∧ r.written = [] ∧ (∀ b, b < 32 → (d0.pl
         dst).mem.bankReq.get b = none) ∧ d0.cyc.running = true ∧ d0.rd .SYS_PHASE = 5 ∧ d0.cyc.rackDone = false ∧ d0.red.taste.on =
         false) := by decide +kernel

theorem witness_SyncTracking :
    (let width : Nat := 100;
     let falling : Bool := false;
     let w : Word := 0;
     let s : State := wSync 0 0;
     let d0 := s.part.dev;
     d0.syncOn = true ∧ 100 ≤ width ∧ falling = (d0.rd .SYS_SYNC_CTL_EDGE == 1) ∧ d0.sync.hold = 0 ∧ d0.sync.acq = false ∧
         d0.sync.tracking = true ∧ d0.leads = false ∧ d0.rd .SYS_SYNC_CTL_SYNC_EN = 1 ∧ (w.toNat / 65536 % 4096 ≠ d0.syncM ∨ w.toNat % 2
         = 1)) ∧
    (let t : Nat := 1000 * nsUnit;
     let width : Nat := 100;
     let falling : Bool := false;
     let s : State := wSync 1 0;
     let d0 := s.part.dev;
     let target := t + d0.syncOfs;
     let ph : Int := (d0.nearestSync target : Int) - target;
     d0.syncOn = true ∧ 100 ≤ width ∧ falling = (d0.rd .SYS_SYNC_CTL_EDGE == 1) ∧ d0.sync.hold = 0 ∧ d0.sync.acq = false ∧
         d0.sync.tracking = true ∧ d0.leads = true ∧ absI ph * 2 ≤ d0.tCell) ∧
    (let width : Nat := 99;
     let s : State := wSync 1 20;
     let d0 := s.part.dev;
     (width < 100 ∨ d0.sync.hold ≠ 0) ∧ d0.syncOn = true ∧ d0.leads = true ∧ d0.sync.missArmed = true ∧ d0.syncM + 16 ≤
         d0.sync.missCnt) ∧
    (let w : Word := 0x40001;
     let s : State := wSyncOff;
     let d0 := s.part.dev;
     d0.rd .SYS_SYNC_CTL_SYNC_EN = 0 ∧ d0.rd .SYS_CYCLE_SYNC_PAT ≠ 0 ∧ w.getLsbD 0 = true) ∧
    (let w : Word := 0x40000;
     let s : State := wSync 0 0;
     let d0 := s.part.dev;
     d0.rd .SYS_SYNC_CTL_SYNC_EN = 1 ∧ d0.rd .SYS_SYNC_CTL_EDGE ≤ 1 ∧ d0.rd .SYS_SYNC_CTL_AUTO_RELOCK ≤ 1 ∧ w.toNat % 2 = 0 ∧ w.toNat
         / 2 % 2 = d0.rd .SYS_SYNC_CTL_EDGE ∧ w.toNat / 4 % 2 = d0.rd .SYS_SYNC_CTL_AUTO_RELOCK ∧ w.toNat / 65536 % 4096 = d0.syncM) := by decide +kernel

theorem witness_RegisterWrites :
    (let who : Actor := .host;
     let b : Blk := .lpe;
     let w : Word := 1;
     let a : Nat := 0x200000;
     let q : Plane := .A;
     let s : State := w0;
     let d0 := s.part.dev;
     who.actsIn d0 q ∧ stagedBlks.contains b = true ∧ w.getLsbD 0 = true ∧ d0.rd .SYS_PHASE ≠ 5 ∧ (0x200000 ≤ a ∨ a % 4 ≠ 0)) ∧
    (let b : Blk := .sys;
     stagedBlks.contains b = false) := by decide +kernel

theorem witness_SolverDeltas :
    (let p : Plane := .A;
     let c : Fin 10 := 0;
     let hi : Word := 7;
     let h : MbxHdr := { code := 0x13, len := 8, u := false };
     let l : List Delta := [⟨0, 0, 0, 0, 0, 0⟩];
     let s : State := wSolver 0 0 {};
     let d0 := s.part.dev;
     let x := Delta.ofWords ((d0.slv p).lo.get c) hi.toNat;
     d0.coreActive p c = true ∧ d0.deltaRoom p = true ∧ (∀ z ∈ (d0.slv p).stalled, z.core ≠ c.val) ∧ deltaEntry d0 c x ≠ none ∧
         (¬(d0.rd .SYS_PHASE = 5 ∧ d0.cyc.running = true)) ∧ (d0.slv .A).hostCnt < 64 ∧ h.deliveredToPlanes d0 ∧ deltasFit l.length d0 =
         true ∧ (d0.slv p).stalled = []) ∧
    (let p : Plane := .A;
     let c : Fin 10 := 0;
     let hi : Word := 7;
     let s : State := wSolver 0 1 { lo := ⟨0x100, []⟩ };
     let d0 := s.part.dev;
     let x := Delta.ofWords ((d0.slv p).lo.get c) hi.toNat;
     d0.coreActive p c = true ∧ d0.deltaRoom p = true ∧ (∀ z ∈ (d0.slv p).stalled, z.core ≠ c.val) ∧ deltaEntry d0 c x = none) ∧
    (let p : Plane := .A;
     let c : Fin 10 := 0;
     let s : State := wSolverFull;
     let d0 := s.part.dev;
     d0.coreActive p c = true ∧ d0.deltaRoom p = false) ∧
    (let p : Plane := .A;
     let y : StalledDelta := ⟨0, 0, ⟨0, 0, 0, 0, 0, 0⟩⟩;
     let t : List StalledDelta := [];
     let s : State := wSolver 0 0 { stalled := [⟨0, 0, ⟨0, 0, 0, 0, 0, 0⟩⟩] };
     let d0 := s.part.dev;
     (d0.slv p).stalled = y :: t ∧ y.core ≠ 10 ∧ d0.deltaRoom p = true ∧ deltaEntry d0 y.producer y.delta ≠ none) := by
  dsimp only
  and_intros <;> first | decide +kernel | simp [wSolverFull]

theorem witness_SolverBatches :
    (let p : Plane := .A;
     let c : Fin 10 := 0;
     let s : State := wSolver 3 0 {};
     let d0 := s.part.dev;
     d0.coreActive p c = true ∧ d0.rd .SYS_PHASE ≠ 4) ∧
    (let p : Plane := .A;
     let c : Fin 10 := 0;
     let s : State := wSolver 4 0 {};
     let d0 := s.part.dev;
     let ready := d0.rd .SYS_PHASE = 4 ∧ d0.rd .SYS_LADDER_STATE = 0 ∧ (d0.slv p).cut.get 0 = false ∧ d0.classMats 0 ≠ [];
     let others (n : Nat) : Prop := ∀ e ∈ d0.producers 0, e ≠ n → (d0.slv p).sig.contains (0, e) = true;
     d0.coreActive p c = true ∧ ready ∧ others c) ∧
    (let p : Plane := .A;
     let s : State := wSolver 4 0 { sig := [(0, 0)] };
     let d0 := s.part.dev;
     let ready := d0.rd .SYS_PHASE = 4 ∧ d0.rd .SYS_LADDER_STATE = 0 ∧ (d0.slv p).cut.get 0 = false ∧ d0.classMats 0 ≠ [];
     let others (n : Nat) : Prop := ∀ e ∈ d0.producers 0, e ≠ n → (d0.slv p).sig.contains (0, e) = true;
     ready ∧ others 10) ∧
    (let p : Plane := .A;
     let id : Fin 256 := 0;
     let m : MatDesc := { op := 6, k := 1, map := [0, 0], ent := [5, 6] };
     let s : State := wSolver 4 6 { mats := ⟨{ active := true }, []⟩ };
     let d0 := s.part.dev;
     d0.matDesc id = some m ∧ (d0.matSt p id).active = true ∧ (d0.matSt p id).final = false ∧ d0.inFlight p m id = true ∧ d0.rd
         .SYS_PHASE = 4 ∧ m.cls = 0 ∧ m.op = 6) ∧
    (let p : Plane := .A;
     let id : Fin 256 := 0;
     let m : MatDesc := { op := 0, k := 1, map := [0, 0], ent := [5, 6] };
     let s : State := wSolver 4 0 { mats := ⟨{ active := true }, []⟩ };
     let d0 := s.part.dev;
     d0.matDesc id = some m ∧ (d0.matSt p id).active = true ∧ (d0.matSt p id).final = false ∧ d0.inFlight p m id = true ∧ d0.rd
         .SYS_PHASE = 4 ∧ m.cls = 0 ∧ m.op ≠ 6 ∧ (d0.matSt p id).stage = 0) ∧
    (let p : Plane := .A;
     let s : State := wSolverDone;
     let d0 := s.part.dev;
     d0.rdP p .SLV_STATUS_TICK = 1 ∧ batchDone d0 p 1 = true ∧ d0.rdP p .SLV_STATUS_CYC = 1 ∧ batchDone d0 p 0 = true) := by decide +kernel

theorem witness_MotionCommands :
    (let h : MbxHdr := { code := 0x10, len := 264, u := false };
     let n : Fin 8 := 0;
     let m : Fin 64 := 0;
     let b : Fin 4 := 0;
     let a : Fin 128 := 0;
     let recs : List (List Nat) := [5 :: List.replicate 31 0, 9 :: List.replicate 31 0];
     let mv : Move := {};
     let who : Actor := .host;
     let q : Plane := .A;
     let s : State := wMotion;
     let d0 := s.part.dev;
     let x := d0.aux d0.active (64 + m);
     h.deliveredToPlanes d0 ∧ segRoom n recs.length d0 = true ∧ d0.notCarrier d0.active n = false ∧ moveOk mv = false ∧ (d0.auxSec (64
         + m)).stepper = true ∧ x.still = true ∧ (d0.auxSec (64 + m)).out = true ∧ coupleOk d0.active b (d0.meas d0.active) d0 = true ∧
         decoupleOk d0.active b d0 = false ∧ 2 ≤ (d0.lax d0.active a).zeroFor ∧ d0.rdP d0.active .LPE_AX_STAT_STALE_CNT a = 0 ∧
         who.actsIn d0 q) ∧
    (let h : MbxHdr := { code := 0x10, len := 136, u := false };
     let n : Fin 8 := 1;
     let b : Fin 4 := 0;
     let recs : List (List Nat) := [];
     let s : State := wCoupled;
     let d0 := s.part.dev;
     h.deliveredToPlanes d0 ∧ segRoom n recs.length d0 = true ∧ d0.notCarrier d0.active n = true ∧ decoupleOk d0.active b d0 = true) ∧
    (let h : MbxHdr := { code := 0x11, len := 32, u := false };
     let m : Fin 64 := 1;
     let mv : Move := { v := 1, a := 1, j := 1 };
     let s : State := wMotion;
     let d0 := s.part.dev;
     h.deliveredToPlanes d0 ∧ moveOk mv = true ∧ d0.rdP d0.active .PPE_AX_STAT_POS_LOST m ≠ 1 ∧ (d0.auxSec (64 + m)).stepper = false) ∧
    (let h : MbxHdr := { code := 0x12, len := 520, u := false };
     let b : Fin 4 := 3;
     let s : State := wMotion;
     let d0 := s.part.dev;
     h.deliveredToPlanes d0 ∧ coupleOk d0.active b (d0.meas d0.active) d0 = false) ∧
    (let h : MbxHdr := { code := 0x15, len := 16, u := false };
     let m : Fin 64 := 2;
     let s : State := wMotion;
     let d0 := s.part.dev;
     let x := d0.aux d0.active (64 + m);
     h.deliveredToPlanes d0 ∧ (d0.auxSec (64 + m)).stepper = true ∧ x.still = false) ∧
    (let h : MbxHdr := { code := 0x105, len := 8, u := true };
     let a : Fin 128 := 1;
     let s : State := wMotion;
     let d0 := s.part.dev;
     h.deliveredToPlanes d0 ∧ (d0.lax d0.active a).zeroFor < 2) := by
  dsimp only
  and_intros <;> first | decide +kernel | exact wMotion_coupleOk

theorem witness_MotionStops :
    (let h : MbxHdr := { code := 0x101, len := 8, u := true };
     let who : Actor := .host;
     let n : Fin 8 := 0;
     let q : Plane := .A;
     let s : State := wMotion;
     let d0 := s.part.dev;
     let team := d0.armGroup q n;
     h.deliveredToPlanes d0 ∧ (∀ e ∈ team, (resumeStatus q e d0).1 = 0) ∧ abortRefused q n d0 = false ∧ who.actsIn d0 q) ∧
    (let h : MbxHdr := { code := 0x101, len := 8, u := true };
     let n : Fin 8 := 0;
     let q : Plane := .A;
     let s : State := wArmFault;
     let d0 := s.part.dev;
     let team := d0.armGroup q n;
     h.deliveredToPlanes d0 ∧ team = [n.val] ∧ d0.active = q ∧ (resumeStatus q n d0).1 ≠ 0 ∧ abortRefused q n d0 = true) := by decide +kernel

theorem witness_FeedbackCounts :
    (let n : Fin 18 := 0;
     let t : PinLevels := ⟨0, 0⟩;
     let s : State := wFb 1 true false;
     let d0 := s.part.dev;
     t.seen ≤ d0.rd .FB_CFG_FILT n) ∧
    (let n : Fin 18 := 0;
     let a : Bool := true;
     let b : Bool := false;
     let t : PinLevels := ⟨0, 4⟩;
     let s : State := wFb 1 true false;
     let d0 := s.part.dev;
     let x := d0.fb n;
     let move := (quadPos a b + 4 - quadPos x.a x.b) % 4;
     d0.rd .FB_CFG_FILT n < t.seen ∧ d0.rd .FB_CFG_MODE n = 1 ∧ move = 0) ∧
    (let n : Fin 18 := 0;
     let a : Bool := true;
     let b : Bool := true;
     let t : PinLevels := ⟨0, 4⟩;
     let s : State := wFb 1 true false;
     let d0 := s.part.dev;
     let x := d0.fb n;
     let move := (quadPos a b + 4 - quadPos x.a x.b) % 4;
     d0.rd .FB_CFG_FILT n < t.seen ∧ d0.rd .FB_CFG_MODE n = 1 ∧ move = 1 ∧ d0.rd .FB_CFG_Z_USE n ≠ 1) ∧
    (let n : Fin 18 := 0;
     let a : Bool := false;
     let b : Bool := false;
     let t : PinLevels := ⟨0, 4⟩;
     let s : State := wFb 1 true false;
     let d0 := s.part.dev;
     let x := d0.fb n;
     let move := (quadPos a b + 4 - quadPos x.a x.b) % 4;
     d0.rd .FB_CFG_FILT n < t.seen ∧ d0.rd .FB_CFG_MODE n = 1 ∧ move = 3 ∧ d0.rd .FB_CFG_Z_USE n ≠ 1) ∧
    (let n : Fin 18 := 0;
     let a : Bool := false;
     let b : Bool := true;
     let t : PinLevels := ⟨0, 4⟩;
     let s : State := wFb 1 true false;
     let d0 := s.part.dev;
     let x := d0.fb n;
     let move := (quadPos a b + 4 - quadPos x.a x.b) % 4;
     d0.rd .FB_CFG_FILT n < t.seen ∧ d0.rd .FB_CFG_MODE n = 1 ∧ move = 2) ∧
    (let n : Fin 18 := 0;
     let a : Bool := true;
     let b : Bool := true;
     let z : Bool := true;
     let t : PinLevels := ⟨0, 4⟩;
     let s : State := wFbIdx;
     let d0 := s.part.dev;
     let x := d0.fb n;
     let move := (quadPos a b + 4 - quadPos x.a x.b) % 4;
     let index := d0.rd .FB_CFG_Z_USE n = 1 ∧ a = true ∧ b = true ∧ z = true ∧ x.zUsed = false ∧ d0.wire n 2 = 0;
     d0.rd .FB_CFG_FILT n < t.seen ∧ d0.rd .FB_CFG_MODE n = 1 ∧ move = 1 ∧ index ∧ d0.rd .FB_CFG_IDX_MODE n = 1 ∧ d0.rd .FB_STAT_ARMED
         n = 1) := by decide +kernel

theorem witness_FieldSignals :
    (let n : Fin 16 := 0;
     let m : Fin 18 := 0;
     let pair : Fin 3 := 2;
     let cls : Fin 8 := 6;
     let raw : Nat := 0x1FF;
     let low : Bool := false;
     let first : Bool := true;
     let par : Bool := false;
     let closing : Bool := false;
     let o : Fin 4 := 0;
     let code : Int := -32768;
     let e : WireEnd := ⟨2, 1⟩;
     let s : State := wFb 2 false false;
     let d0 := s.part.dev;
     let bits := d0.rd .FB_CFG_SSI_BITS n;
     let good := low = false ∧ first = true ∧ parityOk (d0.rd .FB_CFG_SSI_PAR n) (raw % 2 ^ bits) bits par = true ∧ closing = false;
     let y := d0.field.po.get o;
     d0.rd .FB_CFG_MODE n = 2 ∧ bits ≠ 0 ∧ good ∧ d0.rd .FB_CFG_SSI_EXT n ≠ 1 ∧ wireRank (d0.wire m pair) < wireRank cls ∧ d0.wire m
         e.pair ≠ e.cls ∧ d0.wireBad m = false ∧ -32768 ≤ code ∧ code ≤ 32767 ∧ (y.backlog = 0 ∨ d0.rd .PO_NUM o = 0)) ∧
    (let n : Fin 16 := 0;
     let raw : Nat := 0x1FF;
     let low : Bool := false;
     let first : Bool := false;
     let par : Bool := false;
     let closing : Bool := false;
     let s : State := wFb 2 false false;
     let d0 := s.part.dev;
     let bits := d0.rd .FB_CFG_SSI_BITS n;
     let good := low = false ∧ first = true ∧ parityOk (d0.rd .FB_CFG_SSI_PAR n) (raw % 2 ^ bits) bits par = true ∧ closing = false;
     d0.rd .FB_CFG_MODE n = 2 ∧ bits ≠ 0 ∧ (¬good)) ∧
    (let m : Fin 18 := 1;
     let pair : Fin 3 := 0;
     let cls : Fin 8 := 5;
     let o : Fin 4 := 0;
     let t : PoTick := ⟨100 * nsUnit, false⟩;
     let e : WireEnd := ⟨0, 1⟩;
     let s : State := wPo 3;
     let d0 := s.part.dev;
     let y := d0.field.po.get o;
     0 < wireRank cls ∧ wireRank cls ≤ wireRank (d0.wire m pair) ∧ d0.wire m e.pair = e.cls ∧ 0 < wireRank e.cls ∧ d0.wireBad m = true
         ∧ d0.rd .PO_CFG_EN o = 1 ∧ d0.rd .PO_NUM o ≠ 0 ∧ y.lastEdge + d0.rd .PO_CFG_MIN_SEP o * 5 * nsUnit ≤ t.time ∧ d0.rd
         .PAT_STATUS_TOILE = 0 ∧ d0.wireBad (d0.rd .PO_CFG_SRC o) = false ∧ 0 < y.backlog) ∧
    (let o : Fin 4 := 0;
     let t : PoTick := ⟨100 * nsUnit, true⟩;
     let s : State := wPo (-3);
     let d0 := s.part.dev;
     let y := d0.field.po.get o;
     d0.rd .PO_CFG_EN o = 1 ∧ d0.rd .PO_NUM o ≠ 0 ∧ y.lastEdge + d0.rd .PO_CFG_MIN_SEP o * 5 * nsUnit ≤ t.time ∧ d0.rd
         .PAT_STATUS_TOILE = 0 ∧ d0.wireBad (d0.rd .PO_CFG_SRC o) = false ∧ y.backlog < 0) := by decide +kernel

theorem witness_SafetyInputs :
    (let i : Fin 8 := 0;
     let o : Fin 8 := 0;
     let e : Fin 8 := 0;
     let out : Nat := 2;
     let s : State := wSaf 0;
     let d0 := s.part.dev;
     let on (d : Dev) (j : Nat) : Bool := bit (d.rd .SAF_SO_ON) j;
     d0.chans.any (fun c => d0.inDemand c (2 * i) != d0.inDemand c (2 * i + 1)) = false ∧ on d0 o = false ∧ Sparse.find
         d0.pat.safety.edOut e = some out ∧ on d0 out = false ∧ bit (d0.rd .SAF_ED_LOCK) e = false) ∧
    (let o : Fin 8 := 7;
     let e : Fin 8 := 0;
     let out : Nat := 2;
     let s : State := wSaf 0xFF;
     let d0 := s.part.dev;
     let on (d : Dev) (j : Nat) : Bool := bit (d.rd .SAF_SO_ON) j;
     on d0 o = true ∧ Sparse.find d0.pat.safety.edOut e = some out ∧ on d0 out = true) ∧
    (let n : Fin 16 := 2;
     let i : Fin 8 := 1;
     let k : Fin 4 := 2;
     let seen : Nat := 4;
     let own : Nat := 1;
     let s : State := wSi;
     let d0 := s.part.dev;
     d0.chans.any (fun c => d0.inDemand c (2 * i) != d0.inDemand c (2 * i + 1)) = true ∧ Sparse.find d0.pat.safety.tpOf n = some own ∧
         d0.chans.any (fun c => bit (d0.ch c).lvl n) = true ∧ own ≠ k.val ∧ bit seen n = true) ∧
    (let n : Fin 16 := 2;
     let k : Fin 4 := 1;
     let seen : Nat := 0;
     let own : Nat := 1;
     let s : State := wSi;
     let d0 := s.part.dev;
     Sparse.find d0.pat.safety.tpOf n = some own ∧ d0.chans.any (fun c => bit (d0.ch c).lvl n) = true ∧ own = k.val ∧ bit seen n =
         false ∧ 1 ≤ d0.saf.missTp.get n) := by decide +kernel

theorem witness_SafetyDecisions :
    (let seenA : Bool := false;
     let seenB : Bool := false;
     let arm : Fin 8 := 0;
     let s : State := wSelftest;
     let d0 := s.part.dev;
     let rs := d0.chans.map (fun c => (d0.ch c).ssm.get arm);
     d0.saf.selftest = true ∧ ((d0.saf.a.ok = true ∧ seenA = false) ∨ (d0.saf.b.ok = true ∧ seenB = false)) ∧ d0.rd .SAF_STATE_MODE ≠
         1 ∧ rs.any (·.stop) = false) ∧
    (let seenA : Bool := true;
     let seenB : Bool := true;
     let b : Fin 9 := 2;
     let arm : Fin 8 := 0;
     let s : State := wDegr .valid;
     let d0 := s.part.dev;
     let rs := d0.chans.map (fun c => (d0.ch c).ssm.get arm);
     d0.saf.selftest = false ∧ d0.rd .SAF_STATE_HANDOVER ≠ 0 ∧ d0.chans ≠ [] ∧ (d0.saf.a.ok = true → seenA = true) ∧ (d0.saf.b.ok =
         true → seenB = true) ∧ d0.rd .SAF_STATE_MODE = 1 ∧ d0.rd .SAF_DEGR_CAUSE ≠ 0 ∧ d0.rd .SAF_DEGR_REMAIN = 0 ∧ d0.saf.expired =
         false ∧ autoCause b = true ∧ d0.causeHolds b = false ∧ rs.any (·.stop) = true ∧ rs.all (fun r => !r.stop || r.clearOk) = true) := by decide +kernel

theorem witness_PlaneRoles :
    (let p : Plane := .A;
     let s : State := wPlane 1 0 false;
     let d0 := s.part.dev;
     let st := d0.planeState p;
     st = 1 ∧ d0.quiet = false ∧ d0.active = .A ∧ d0.rd .RED_TIMER_RIDDLE_REMAIN = 0) ∧
    (let p : Plane := .A;
     let s : State := wPlane 0 0 true;
     let d0 := s.part.dev;
     let st := d0.planeState p;
     st = 0 ∧ d0.tasteBusy p = true ∧ d0.runs p = true) ∧
    (let p : Plane := .A;
     let s : State := wPlane 3 0 false;
     let d0 := s.part.dev;
     let st := d0.planeState p;
     st ≠ 1 ∧ d0.tasteBusy p = false ∧ st = 3) ∧
    (let p : Plane := .A;
     let n : Nat := 1;
     let s : State := wPlane 4 63 false;
     let d0 := s.part.dev;
     let st := d0.planeState p;
     st = 4 ∧ n ≠ 0 ∧ d0.rd .RED_BULK_PASS < 64) ∧
    (let p : Plane := .A;
     let n : Nat := 1;
     let s : State := wPlane 4 64 false;
     let d0 := s.part.dev;
     let st := d0.planeState p;
     st = 4 ∧ n ≠ 0 ∧ 64 ≤ d0.rd .RED_BULK_PASS) ∧
    (let p : Plane := .A;
     let s : State := wPlane 2 0 false;
     let d0 := s.part.dev;
     let st := d0.planeState p;
     st = 2) ∧
    (let s : State := wRole 1 0;
     let d0 := s.part.dev;
     d0.quiet = true ∧ d0.active = .B ∧ d0.rd .RED_ROLE_RIDDLE = 0 ∧ d0.rd .RED_TIMER_REVERT_REMAIN = 0) ∧
    (let s : State := wRole 0 0;
     let d0 := s.part.dev;
     d0.quiet = true ∧ d0.active = .A ∧ d0.rd .RED_TIMER_RIDDLE_REMAIN = 0) ∧
    (let s : State := wRole 1 1;
     let d0 := s.part.dev;
     d0.quiet = true ∧ d0.active = .B ∧ d0.rd .RED_ROLE_RIDDLE = 1 ∧ 1024 ≤ d0.red.swap) := by decide +kernel

theorem witness_TimeCommands :
    (let h : MbxHdr := { code := 0x120, len := 16, u := true };
     let b : Fin 8 := 4;
     let q : Fin 2 := 0;
     let msg : Nat := 0;
     let s : State := wTime;
     let d0 := s.part.dev;
     let waits := (d0.src b = srcFree ∨ d0.src b = srcPtp) ∧ d0.baseState b = 0;
     let queue (d : Dev) : List PtpStamp := d.time.ptpq.get q;
     h.deliveredTo d0 ∧ waits ∧ stepRefused b d0 = true ∧ d0.base b < 2 ^ 48 * secUnit ∧ msg ≤ 3 ∧ (queue d0).length < 16 ∧ d0.rd
         .PTP_CFG_HOLD_SRC q = 1 ∧ d0.src 1 = srcPtp ∧ d0.baseState 1 = 1) ∧
    (let h : MbxHdr := { code := 0x120, len := 16, u := true };
     let b : Fin 8 := 1;
     let o : Fin 8 := 0;
     let t : Nat := 1000000;
     let s : State := wTime;
     let d0 := s.part.dev;
     let waits := (d0.src b = srcFree ∨ d0.src b = srcPtp) ∧ d0.baseState b = 0;
     let e := t - d0.rd .TEV_CFG_DLY o * nsUnit;
     h.deliveredTo d0 ∧ (¬waits) ∧ stepRefused b d0 = false ∧ (d0.time.tev.get o).next = some t ∧ d0.rd .TEV_CFG_ARM o ≠ 0 ∧
         (reachInstant (d0.rd .TEV_CFG_BASE o) e d0).isSome = true) ∧
    (let q : Fin 2 := 1;
     let msg : Nat := 0;
     let s : State := wTime;
     let d0 := s.part.dev;
     let queue (d : Dev) : List PtpStamp := d.time.ptpq.get q;
     msg ≤ 3 ∧ 16 ≤ (queue d0).length) ∧
    (let q : Fin 2 := 0;
     let x : PtpStamp := ⟨1, 0, false, false, 5⟩;
     let l : List PtpStamp := [];
     let s : State := wTime;
     let d0 := s.part.dev;
     let queue (d : Dev) : List PtpStamp := d.time.ptpq.get q;
     queue d0 = x :: l ∧ d0.rd .PTP_INFO_VALID q = 1) ∧
    (let q : Fin 2 := 0;
     let s : State := w0;
     let d0 := s.part.dev;
     let queue (d : Dev) : List PtpStamp := d.time.ptpq.get q;
     queue d0 = []) ∧
    (let o : Fin 8 := 2;
     let t : Nat := 1000000;
     let s : State := wTime;
     let d0 := s.part.dev;
     let e := t - d0.rd .TEV_CFG_DLY o * nsUnit;
     (d0.time.tev.get o).next = some t ∧ d0.rd .TEV_CFG_ARM o ≠ 0 ∧ reachInstant (d0.rd .TEV_CFG_BASE o) e d0 = none) := by decide +kernel

theorem witness_RingColdStart :
    (let n : Fin 4 := 0;
     let rank : Fin 16 := 4;
     let sched : Nat := 0;
     let r : TackRx := tackOf 4 0;
     let x : Fin 512 := 3;
     let s : State := wPort 1 0 {};
     let d0 := s.part.dev;
     let st := d0.lsState n;
     let p0 := d0.port n;
     let mine := (d0.portSec n).rank;
     let pay := tackBytes rank r.lsVer r.res sched r.ident;
     let crc := r.head.crcBad r.src pay;
     let good := d0.frameOk n r.head crc (r.head.formBad tyTack 16 16 (r.res != 0) pay);
     st = lsListen ∧ p0.silent = false ∧ p0.openWait = false ∧ good = true ∧ sched = d0.rd .LS_DIGEST_SCHED n ∧ rank.val < mine ∧ st ≠
         lsOff ∧ portSto n d0 = true ∧ x.val = (d0.portSec n).self) ∧
    (let n : Fin 4 := 0;
     let rank : Fin 16 := 6;
     let sched : Nat := 0;
     let r : TackRx := tackOf 6 0;
     let x : Fin 512 := 7;
     let s : State := wPort 1 0 {};
     let d0 := s.part.dev;
     let st := d0.lsState n;
     let p0 := d0.port n;
     let mine := (d0.portSec n).rank;
     let pay := tackBytes rank r.lsVer r.res sched r.ident;
     let crc := r.head.crcBad r.src pay;
     let good := d0.frameOk n r.head crc (r.head.formBad tyTack 16 16 (r.res != 0) pay);
     good = true ∧ st = lsListen ∧ sched = d0.rd .LS_DIGEST_SCHED n ∧ mine < rank.val ∧ p0.silent = false ∧ x.val ≠ (d0.portSec
         n).self) ∧
    (let n : Fin 4 := 0;
     let rank : Fin 16 := 5;
     let sched : Nat := 0;
     let r : TackRx := tackOf 5 0;
     let s : State := wPort 1 0 {};
     let d0 := s.part.dev;
     let st := d0.lsState n;
     let mine := (d0.portSec n).rank;
     let pay := tackBytes rank r.lsVer r.res sched r.ident;
     let crc := r.head.crcBad r.src pay;
     let good := d0.frameOk n r.head crc (r.head.formBad tyTack 16 16 (r.res != 0) pay);
     good = true ∧ st = lsListen ∧ sched = d0.rd .LS_DIGEST_SCHED n ∧ rank.val = mine) ∧
    (let n : Fin 4 := 0;
     let s : State := wPort 1 0 { silent := true };
     let d0 := s.part.dev;
     let p0 := d0.port n;
     p0.silent = true) ∧
    (let n : Fin 4 := 0;
     let rank : Fin 16 := 4;
     let sched : Nat := 0;
     let r : TackRx := tackOf 4 0;
     let s : State := wPort 2 0 { tackP := true, tackS := true };
     let d0 := s.part.dev;
     let st := d0.lsState n;
     let p0 := d0.port n;
     let mine := (d0.portSec n).rank;
     let pay := tackBytes rank r.lsVer r.res sched r.ident;
     let crc := r.head.crcBad r.src pay;
     let good := d0.frameOk n r.head crc (r.head.formBad tyTack 16 16 (r.res != 0) pay);
     st = lsTack ∧ p0.openWait = false ∧ p0.tackP = true ∧ p0.tackS = true ∧ good = true ∧ rank.val < mine) ∧
    (let n : Fin 4 := 0;
     let rank : Fin 16 := 6;
     let sched : Nat := 0;
     let r : TackRx := tackOf 6 0;
     let s : State := wPort 2 0 {};
     let d0 := s.part.dev;
     let st := d0.lsState n;
     let p0 := d0.port n;
     let mine := (d0.portSec n).rank;
     let pay := tackBytes rank r.lsVer r.res sched r.ident;
     let crc := r.head.crcBad r.src pay;
     let good := d0.frameOk n r.head crc (r.head.formBad tyTack 16 16 (r.res != 0) pay);
     st = lsTack ∧ p0.openWait = false ∧ (p0.tackP = false ∨ p0.tackS = false) ∧ good = true ∧ mine ≤ rank.val) ∧
    (let n : Fin 4 := 0;
     let rank : Fin 16 := 0;
     let sched : Nat := 0;
     let r : TackRx := tackOf 4 0;
     let s : State := wPort 2 0 { openWait := true };
     let d0 := s.part.dev;
     let st := d0.lsState n;
     let p0 := d0.port n;
     let pay := tackBytes rank r.lsVer r.res sched r.ident;
     let crc := r.head.crcBad r.src pay;
     let good := d0.frameOk n r.head crc (r.head.formBad tyTack 16 16 (r.res != 0) pay);
     st = lsTack ∧ p0.openWait = true ∧ good = false ∧ r.head.fin = .good ∧ st ≠ lsOff) ∧
    (let n : Fin 4 := 0;
     let s : State := wPortOn;
     let d0 := s.part.dev;
     portSto n d0 = false) ∧
    (let n : Fin 4 := 0;
     let rank : Fin 16 := 4;
     let sched : Nat := 1;
     let r : TackRx := tackOf 4 1;
     let s : State := wPort 1 0 {};
     let d0 := s.part.dev;
     let st := d0.lsState n;
     let pay := tackBytes rank r.lsVer r.res sched r.ident;
     let crc := r.head.crcBad r.src pay;
     let good := d0.frameOk n r.head crc (r.head.formBad tyTack 16 16 (r.res != 0) pay);
     good = true ∧ st = lsListen ∧ sched ≠ d0.rd .LS_DIGEST_SCHED n) := by decide +kernel

theorem witness_RingFrames :
    (let n : Fin 4 := 0;
     let x : Fin 512 := 7;
     let src : Fin 512 := 7;
     let f : SyncRx := sync0;
     let ws : CycleRx := cycleOf 3;
     let map : List Nat := permMap 1 [7];
     let h : PermHead := permOf false 11 [7];
     let seq : Nat := 11;
     let slot : Nat := 9;
     let err : Int := 0;
     let fh : RxHead := slotHead;
     let pay : SlotPayload := procPay;
     let tr : Nat := 4;
     let c : ClaimRx := claim8;
     let s : State := wPort 5 1 {};
     let d0 := s.part.dev;
     let self := (d0.portSec n).self;
     let y := d0.node n x;
     let role := d0.rd .LS_STATE_ROLE n;
     let st := d0.lsState n;
     let heard := st ≥ lsBasting;
     let passes (fr : RxHead) (bad1 bad2 : Bool) : Prop := fr.fin = .good ∧ bad1 = false ∧ bad2 = false;
     let g := f.frame;
     let goodSync := passes f.head (f.head.crcBad f.src f.pay) (f.head.formBad tySync 44 44 f.res f.pay);
     let goodCycle := passes ws.head (ws.head.crcBad src ws.pay) (ws.head.formBad tyCycle 8 16384 (cycleRes ws.pay) ws.pay) ∧
         ws.head.cyc = d0.rd .SYS_CYCNT % 65536 ∧ (src.val = self → (onPath ws.path (d0.port n).outP (d0.port n).outS).any (fun t =>
         t.same ws.head ws.pay) = true);
     let goodPerm (b : Bool) := h.sfType = permType b ∧ h.ver = (d0.nodeSec n x).sfVer ∧ map.length = (if h.ver = 2 then 64 else 32) ∧
         h.crcOk (safInit (d0.ownerId n x) b) seq map = true;
     let bytes := d0.slotBytes n src pay;
     let crc := fh.crcBad src bytes;
     let form := fh.formBad tySlot 0 ((Sparse.find (d0.portSec n).slots slot).elim 0 (·.lenMax)) pay.res bytes;
     let goodClaim := passes c.head (c.head.crcBad src (claimBytes c.slot c.lsVer tr c.sched c.ident)) (c.head.formBad tyClaim 16 16
         false (claimBytes c.slot c.lsVer tr c.sched c.ident));
     role = 1 ∧ goodSync ∧ g.sched = d0.rd .LS_DIGEST_SCHED n ∧ x.val ≠ self ∧ (¬goodCycle) ∧ goodPerm false ∧ y.permA.seq = none ∧
         (¬goodPerm true) ∧ heard ∧ passes fh crc form ∧ 2 * absI err ≤ d0.guard5 n ∧ d0.slotSender n slot = some src.val ∧ ((d0.port
         n).slots.get slot).first = none ∧ d0.slotDue n slot = some x.val ∧ st = lsSewn ∧ (¬goodClaim)) ∧
    (let n : Fin 4 := 0;
     let x : Fin 512 := 3;
     let f : SyncRx := sync0;
     let s : State := wPort 5 2 { missP := 1, missS := 2 };
     let d0 := s.part.dev;
     let self := (d0.portSec n).self;
     let role := d0.rd .LS_STATE_ROLE n;
     let st := d0.lsState n;
     let heard := st ≥ lsBasting;
     let passes (fr : RxHead) (bad1 bad2 : Bool) : Prop := fr.fin = .good ∧ bad1 = false ∧ bad2 = false;
     let g := f.frame;
     let goodSync := passes f.head (f.head.crcBad f.src f.pay) (f.head.formBad tySync 44 44 f.res f.pay);
     role ≠ 1 ∧ goodSync ∧ g.sched = d0.rd .LS_DIGEST_SCHED n ∧ x.val = self ∧ heard ∧ role = 2 ∧ 1 ≤ (d0.port n).missP ∧ 2 ≤ (d0.port
         n).missS) ∧
    (let n : Fin 4 := 0;
     let x : Fin 512 := 3;
     let s : State := wPort 5 2 { missP := 1 };
     let d0 := s.part.dev;
     let self := (d0.portSec n).self;
     let role := d0.rd .LS_STATE_ROLE n;
     let st := d0.lsState n;
     let heard := st ≥ lsBasting;
     x.val = self ∧ role = 2 ∧ heard ∧ 1 ≤ (d0.port n).missP ∧ (d0.port n).missS = 0) ∧
    (let n : Fin 4 := 0;
     let x : Fin 512 := 7;
     let f : SyncRx := syncOf 7 1;
     let s : State := wPort 5 2 {};
     let d0 := s.part.dev;
     let self := (d0.portSec n).self;
     let passes (fr : RxHead) (bad1 bad2 : Bool) : Prop := fr.fin = .good ∧ bad1 = false ∧ bad2 = false;
     let g := f.frame;
     let goodSync := passes f.head (f.head.crcBad f.src f.pay) (f.head.formBad tySync 44 44 f.res f.pay);
     goodSync ∧ g.sched ≠ d0.rd .LS_DIGEST_SCHED n ∧ x.val ≠ self) ∧
    (let n : Fin 4 := 0;
     let x : Fin 512 := 3;
     let f : SyncRx := syncOf 7 1;
     let s : State := wPort 5 2 {};
     let d0 := s.part.dev;
     let self := (d0.portSec n).self;
     let role := d0.rd .LS_STATE_ROLE n;
     let st := d0.lsState n;
     let passes (fr : RxHead) (bad1 bad2 : Bool) : Prop := fr.fin = .good ∧ bad1 = false ∧ bad2 = false;
     let g := f.frame;
     let goodSync := passes f.head (f.head.crcBad f.src f.pay) (f.head.formBad tySync 44 44 f.res f.pay);
     goodSync ∧ g.sched ≠ d0.rd .LS_DIGEST_SCHED n ∧ x.val = self ∧ st ≠ lsOff ∧ role ≠ 1) ∧
    (let n : Fin 4 := 0;
     let x : Fin 512 := 7;
     let f : SyncRx := syncBad;
     let s : State := wPort 5 2 {};
     let d0 := s.part.dev;
     let self := (d0.portSec n).self;
     let passes (fr : RxHead) (bad1 bad2 : Bool) : Prop := fr.fin = .good ∧ bad1 = false ∧ bad2 = false;
     let goodSync := passes f.head (f.head.crcBad f.src f.pay) (f.head.formBad tySync 44 44 f.res f.pay);
     (¬goodSync) ∧ x.val ≠ self) ∧
    (let n : Fin 4 := 0;
     let x : Fin 512 := 7;
     let src : Fin 512 := 3;
     let ws : CycleRx := cycleOf 3;
     let r : List Int := [1, 2, 3];
     let slot : Nat := 9;
     let fh : RxHead := slotHead;
     let pay : SlotPayload := procPay;
     let s : State := wPort 5 2 { outP := some (tx tyCycle 3 0 cycleBytes) };
     let d0 := s.part.dev;
     let self := (d0.portSec n).self;
     let y := d0.node n x;
     let st := d0.lsState n;
     let heard := st ≥ lsBasting;
     let passes (fr : RxHead) (bad1 bad2 : Bool) : Prop := fr.fin = .good ∧ bad1 = false ∧ bad2 = false;
     let goodCycle := passes ws.head (ws.head.crcBad src ws.pay) (ws.head.formBad tyCycle 8 16384 (cycleRes ws.pay) ws.pay) ∧
         ws.head.cyc = d0.rd .SYS_CYCNT % 65536 ∧ (src.val = self → (onPath ws.path (d0.port n).outP (d0.port n).outS).any (fun t =>
         t.same ws.head ws.pay) = true);
     let bytes := d0.slotBytes n src pay;
     let crc := fh.crcBad src bytes;
     let form := fh.formBad tySlot 0 ((Sparse.find (d0.portSec n).slots slot).elim 0 (·.lenMax)) pay.res bytes;
     x.val ≠ self ∧ heard ∧ goodCycle ∧ d0.sewnNext n = true ∧ src.val = (d0.nodeSec n x).owner ∧ y.taken = none ∧ d0.recordsIn n x
         (cmdArea ws.pay) = some r ∧ fh.fin = .good ∧ (crc = true ∨ form = true)) ∧
    (let n : Fin 4 := 0;
     let x : Fin 512 := 7;
     let src : Fin 512 := 3;
     let ws : CycleRx := cycleOf 3;
     let map : List Nat := permMap 1 [7];
     let h : PermHead := permOf false 10 [7];
     let seq : Nat := 10;
     let k : Nat := 10;
     let s : State := wPort 5 2 { outP := some (tx tyCycle 3 0 cycleBytes), nodes := ⟨{}, [(7, { permA := ⟨some 10, permMap 1 [7, 8], 0⟩, taken := some [], state := 3, emptyRun := 15, integ := true })]⟩ };
     let d0 := s.part.dev;
     let self := (d0.portSec n).self;
     let y := d0.node n x;
     let step := (seq + 2 ^ 32 - k) % 2 ^ 32;
     let st := d0.lsState n;
     let heard := st ≥ lsBasting;
     let passes (fr : RxHead) (bad1 bad2 : Bool) : Prop := fr.fin = .good ∧ bad1 = false ∧ bad2 = false;
     let goodCycle := passes ws.head (ws.head.crcBad src ws.pay) (ws.head.formBad tyCycle 8 16384 (cycleRes ws.pay) ws.pay) ∧
         ws.head.cyc = d0.rd .SYS_CYCNT % 65536 ∧ (src.val = self → (onPath ws.path (d0.port n).outP (d0.port n).outS).any (fun t =>
         t.same ws.head ws.pay) = true);
     let goodPerm (b : Bool) := h.sfType = permType b ∧ h.ver = (d0.nodeSec n x).sfVer ∧ map.length = (if h.ver = 2 then 64 else 32) ∧
         h.crcOk (safInit (d0.ownerId n x) b) seq map = true;
     x.val ≠ self ∧ heard ∧ goodCycle ∧ d0.sewnNext n = true ∧ src.val = (d0.nodeSec n x).owner ∧ y.taken ≠ none ∧ goodPerm false ∧
         y.permA.seq = some k ∧ step = 0) ∧
    (let n : Fin 4 := 0;
     let x : Fin 512 := 3;
     let src : Fin 512 := 5;
     let ws : CycleRx := cycleOf 5;
     let s : State := wPort 5 2 {};
     let d0 := s.part.dev;
     let self := (d0.portSec n).self;
     let st := d0.lsState n;
     let heard := st ≥ lsBasting;
     let passes (fr : RxHead) (bad1 bad2 : Bool) : Prop := fr.fin = .good ∧ bad1 = false ∧ bad2 = false;
     let goodCycle := passes ws.head (ws.head.crcBad src ws.pay) (ws.head.formBad tyCycle 8 16384 (cycleRes ws.pay) ws.pay) ∧
         ws.head.cyc = d0.rd .SYS_CYCNT % 65536 ∧ (src.val = self → (onPath ws.path (d0.port n).outP (d0.port n).outS).any (fun t =>
         t.same ws.head ws.pay) = true);
     x.val = self ∧ heard ∧ goodCycle) ∧
    (let n : Fin 4 := 0;
     let x : Fin 512 := 7;
     let map : List Nat := permMap 1 [7];
     let h : PermHead := permOf false 11 [7];
     let seq : Nat := 11;
     let k : Nat := 10;
     let s : State := wPort 5 2 { nodes := ⟨{}, [(7, { permA := ⟨some 10, permMap 1 [7, 8], 0⟩, taken := some [], state := 3, emptyRun := 15, integ := true })]⟩ };
     let d0 := s.part.dev;
     let y := d0.node n x;
     let wd := (d0.nodeSec n x).sfWd;
     let step := (seq + 2 ^ 32 - k) % 2 ^ 32;
     let goodPerm (b : Bool) := h.sfType = permType b ∧ h.ver = (d0.nodeSec n x).sfVer ∧ map.length = (if h.ver = 2 then 64 else 32) ∧
         h.crcOk (safInit (d0.ownerId n x) b) seq map = true;
     goodPerm false ∧ y.permA.seq = some k ∧ 1 ≤ step ∧ step ≤ wd) ∧
    (let n : Fin 4 := 0;
     let x : Fin 512 := 7;
     let map : List Nat := permMap 1 [7];
     let h : PermHead := permOf false 13 [7];
     let seq : Nat := 13;
     let k : Nat := 10;
     let s : State := wPort 5 2 { nodes := ⟨{}, [(7, { permA := ⟨some 10, permMap 1 [7, 8], 0⟩, taken := some [], state := 3, emptyRun := 15, integ := true })]⟩ };
     let d0 := s.part.dev;
     let y := d0.node n x;
     let wd := (d0.nodeSec n x).sfWd;
     let step := (seq + 2 ^ 32 - k) % 2 ^ 32;
     let goodPerm (b : Bool) := h.sfType = permType b ∧ h.ver = (d0.nodeSec n x).sfVer ∧ map.length = (if h.ver = 2 then 64 else 32) ∧
         h.crcOk (safInit (d0.ownerId n x) b) seq map = true;
     goodPerm false ∧ y.permA.seq = some k ∧ wd < step ∧ 1 ≤ step) ∧
    (let n : Fin 4 := 0;
     let fh : RxHead := { slotHead with fin := .aborted };
     let s : State := wPort 5 2 {};
     let d0 := s.part.dev;
     let st := d0.lsState n;
     let heard := st ≥ lsBasting;
     heard ∧ fh.fin = .aborted) ∧
    (let n : Fin 4 := 0;
     let src : Fin 512 := 7;
     let slot : Nat := 9;
     let inTime : Bool := true;
     let err : Int := 251;
     let fh : RxHead := slotHead;
     let pay : SlotPayload := procPay;
     let s : State := wPort 5 2 {};
     let d0 := s.part.dev;
     let st := d0.lsState n;
     let heard := st ≥ lsBasting;
     let passes (fr : RxHead) (bad1 bad2 : Bool) : Prop := fr.fin = .good ∧ bad1 = false ∧ bad2 = false;
     let bytes := d0.slotBytes n src pay;
     let crc := fh.crcBad src bytes;
     let form := fh.formBad tySlot 0 ((Sparse.find (d0.portSec n).slots slot).elim 0 (·.lenMax)) pay.res bytes;
     heard ∧ passes fh crc form ∧ (d0.guard5 n < 2 * absI err ∨ inTime = false) ∧ slot < 1024) ∧
    (let n : Fin 4 := 0;
     let x : Fin 512 := 3;
     let src : Fin 512 := 7;
     let q : Path := .P;
     let f : SyncRx := sync0;
     let slot : Nat := 9;
     let fh : RxHead := slotHead;
     let pay : SlotPayload := procPay;
     let s : State := wPort 3 0 { lastP := some syncPrev };
     let d0 := s.part.dev;
     let self := (d0.portSec n).self;
     let role := d0.rd .LS_STATE_ROLE n;
     let st := d0.lsState n;
     let heard := st ≥ lsBasting;
     let passes (fr : RxHead) (bad1 bad2 : Bool) : Prop := fr.fin = .good ∧ bad1 = false ∧ bad2 = false;
     let g := f.frame;
     let goodSync := passes f.head (f.head.crcBad f.src f.pay) (f.head.formBad tySync 44 44 f.res f.pay);
     let second (p s : Option SyncFrame) : Prop := (onPath q p s).any (fun a => consistent a g (d0.guard5 n)) = true;
     let bytes := d0.slotBytes n src pay;
     let crc := fh.crcBad src bytes;
     let form := fh.formBad tySlot 0 ((Sparse.find (d0.portSec n).slots slot).elim 0 (·.lenMax)) pay.res bytes;
     goodSync ∧ g.sched = d0.rd .LS_DIGEST_SCHED n ∧ x.val = self ∧ st = lsInteg ∧ role ≠ 1 ∧ second (d0.port n).lastP (d0.port
         n).lastS ∧ (¬heard) ∧ fh.fin = .good ∧ crc = false ∧ form = false) ∧
    (let n : Fin 4 := 0;
     let x : Fin 512 := 3;
     let f : SyncRx := sync0;
     let s : State := wPort 1 0 {};
     let d0 := s.part.dev;
     let self := (d0.portSec n).self;
     let role := d0.rd .LS_STATE_ROLE n;
     let st := d0.lsState n;
     let passes (fr : RxHead) (bad1 bad2 : Bool) : Prop := fr.fin = .good ∧ bad1 = false ∧ bad2 = false;
     let g := f.frame;
     let goodSync := passes f.head (f.head.crcBad f.src f.pay) (f.head.formBad tySync 44 44 f.res f.pay);
     goodSync ∧ g.sched = d0.rd .LS_DIGEST_SCHED n ∧ x.val = self ∧ (st = lsListen ∨ st = lsTack) ∧ role ≠ 1) ∧
    (let n : Fin 4 := 0;
     let x : Fin 512 := 6;
     let src : Fin 512 := 8;
     let slot : Nat := 10;
     let tr : Nat := 4;
     let c : ClaimRx := claim8;
     let s : State := wPort 5 1 { nodes := ⟨{}, [(6, { claimTry := 2 })]⟩, slots := ⟨{}, [(10, { claims := [6] })]⟩ };
     let d0 := s.part.dev;
     let y := d0.node n x;
     let role := d0.rd .LS_STATE_ROLE n;
     let passes (fr : RxHead) (bad1 bad2 : Bool) : Prop := fr.fin = .good ∧ bad1 = false ∧ bad2 = false;
     let goodClaim := passes c.head (c.head.crcBad src (claimBytes c.slot c.lsVer tr c.sched c.ident)) (c.head.formBad tyClaim 16 16
         false (claimBytes c.slot c.lsVer tr c.sched c.ident));
     let window (d : Dev) : SlotSt := (d.port n).slots.get (c.slot % 1024);
     d0.slotDue n slot = none ∧ x ≠ src ∧ goodClaim ∧ d0.claimOk n src c = true ∧ (d0.node n src).claimMute = false ∧ src.val ∉
         (window d0).claims ∧ y.claimTry ≠ 0 ∧ y.claimTry < 15 ∧ role = 1 ∧ (window d0).claims.length = 1 ∧ (window d0).claimBad = false) ∧
    (let n : Fin 4 := 0;
     let x : Fin 512 := 6;
     let src : Fin 512 := 8;
     let tr : Nat := 4;
     let c : ClaimRx := claim8;
     let s : State := wPort 5 1 { nodes := ⟨{}, [(6, { claimTry := 15 })]⟩ };
     let d0 := s.part.dev;
     let y := d0.node n x;
     let passes (fr : RxHead) (bad1 bad2 : Bool) : Prop := fr.fin = .good ∧ bad1 = false ∧ bad2 = false;
     let goodClaim := passes c.head (c.head.crcBad src (claimBytes c.slot c.lsVer tr c.sched c.ident)) (c.head.formBad tyClaim 16 16
         false (claimBytes c.slot c.lsVer tr c.sched c.ident));
     x ≠ src ∧ goodClaim ∧ 15 ≤ y.claimTry) := by
  dsimp only
  and_intros <;> decide +kernel

theorem witness_Capture :
    (let c : Fin 16 := 3;
     let k : Nat := 62;
     let l : Fin 4 := 0;
     let width : Nat := 300;
     let o : TrgOut := { line := 0 };
     let os : List TrgOut := [];
     let r : CelRec := ⟨0, 0, false, 0, 0, 0, 0, 0, []⟩;
     let s : State := wCap 1 2 1 8;
     let d0 := s.part.dev;
     let live := d0.rd .CAP_STAT_STATE = 1 ∨ d0.rd .CAP_STAT_STATE = 2;
     let ofs := k * d0.rd .CAP_CH_CFG_DIV c * 1000 * nsUnit;
     let flt := d0.rd .CAP_TBUS_STAT_LINE_FLT;
     let size := d0.rd .CEL_SIZE;
     let at_ := d0.cellar.written;
     live ∧ d0.rd .CAP_STAT_STATE ≠ 2 ∧ d0.chOn c = true ∧ ofs < d0.cycLen ∧ bit flt l = false ∧ d0.cap.calAt = none ∧ senderOf width
         = none ∧ d0.baseState 0 ≠ 0 ∧ d0.rd .SYS_STATE_STAGE = 8 ∧ (d0.cap.calReq = true ∨ d0.cap.calFirst = false) ∧ d0.cap.outs = o
         :: os ∧ o.line = l ∧ d0.lineFree l = true ∧ o.due.all (fun u => decide (u ≤ d0.base 0)) = true ∧ (∀ i, i < 9 →
         d0.cellar.discarded.get i = 0) ∧ s.memWf = true ∧ d0.cellar.staging = [r] ∧ 32 ≤ size ∧ size < 2 ^ 32 ∧ at_ + 32 <
         d0.cellar.readTo + size) ∧
    (let c : Fin 16 := 3;
     let k : Nat := 63;
     let l : Fin 4 := 1;
     let s : State := wCap 2 2 1 8;
     let d0 := s.part.dev;
     let ofs := k * d0.rd .CAP_CH_CFG_DIV c * 1000 * nsUnit;
     let flt := d0.rd .CAP_TBUS_STAT_LINE_FLT;
     d0.rd .CAP_STAT_STATE = 2 ∧ (d0.chOn c = false ∨ d0.cycLen ≤ ofs) ∧ bit flt l = true ∧ d0.cap.calAt = none ∧ d0.lineFree l =
         false ∧ (∀ x ∈ d0.cap.outs, x.line ≠ l)) ∧
    (let l : Fin 4 := 2;
     let width : Nat := 240;
     let t : Nat := 0;
     let j : Nat := 1;
     let s : State := wCap 0 2 1 7;
     let d0 := s.part.dev;
     let live := d0.rd .CAP_STAT_STATE = 1 ∨ d0.rd .CAP_STAT_STATE = 2;
     let ready := d0.chsOn ≠ [] ∧ d0.baseState d0.capBase ≠ 0;
     let own := d0.ctrl;
     (¬live) ∧ ready ∧ d0.cap.calAt = none ∧ senderOf width = some j ∧ d0.calSender l t = none ∧ j ≠ own ∧ d0.rdAt .CAP_TBUS_DLY_VALID
         .A l j ≠ 1 ∧ (d0.baseState 0 = 0 ∨ d0.rd .SYS_STATE_STAGE ≠ 8 ∨ (d0.cap.calReq = false ∧ d0.cap.calFirst = true))) ∧
    (let s : State := wCap 3 0 0 8;
     let d0 := s.part.dev;
     let live := d0.rd .CAP_STAT_STATE = 1 ∨ d0.rd .CAP_STAT_STATE = 2;
     let ready := d0.chsOn ≠ [] ∧ d0.baseState d0.capBase ≠ 0;
     (¬live) ∧ (¬ready) ∧ (∀ i, i < 9 → d0.cellar.discarded.get i = 0) ∧ d0.cellar.staging = []) ∧
    (let l : Fin 4 := 0;
     let width : Nat := 240;
     let t : Nat := 40000*nsUnit;
     let t0 : Nat := 0;
     let j : Nat := 1;
     let s : State := wCap 1 2 1 8;
     let d0 := s.part.dev;
     let own := d0.ctrl;
     d0.cap.calAt = none ∧ senderOf width = some j ∧ j ≠ own ∧ d0.calSender l t = some own ∧ d0.cap.lead.get l = some (own, t0) ∧ t0 ≤
         t ∧ t < t0 + calWin) ∧
    (let l : Fin 4 := 2;
     let width : Nat := 240;
     let t : Nat := 6*calWin + 5000*nsUnit;
     let j : Nat := 1;
     let s : State := wCap 1 2 1 8;
     let d0 := s.part.dev;
     d0.cap.calAt = none ∧ senderOf width = some j ∧ d0.calSender l t = some j ∧ t % (4 * secUnit) % calWin < 10000 * nsUnit) := by
  dsimp only
  and_intros <;> decide +kernel

theorem witness_FusesKept :
    ∃ t, exec (.keyProgram { code := 0x122, u := true, len := 40 } 2 1) (wSec 0) = .next t ∧ (t.vault.slots.get 2).hash = some 1 :=
  ⟨_, rfl, by decide +kernel⟩

/-- A state with a listed byte whose memories are canonical, and which takes a step. -/
theorem witness_StepKeepsMemWf :
    let s : State := { part := { mems := { dram := [(5, 1)] } }, pending := [.boundary] }
    s.memWf = true ∧ ∃ t, step s = .next t := ⟨by decide +kernel, _, rfl⟩

theorem witness_Fd32RoundTrip :
    let i : Instr := .norm .B 8 7 5 6
    i.wf = true ∧ fd32Encode i = some 0x04E62811 := by decide +kernel

end Sys2Proof.Tests
end

section
/-! PROOFS of the family 00_scope: every step completes and keeps the memories canonical; host writes through BAR4; register writes by
access code, and APPLY. -/

namespace Sys2Proof.Machine

/-! ### Every command completes and keeps the canonical form (R22, R465) -/

/-- The answer is a next state whose memories are in canonical form. -/
def Out.nextWf (o : Out) : Prop := ∃ t : State, o = .next t ∧ t.memWf = true

theorem doDev_nextWf (f : Dev → Dev) {s : State} (h : s.part.memWf) : (doDev f s).nextWf := ⟨_, rfl, h⟩

theorem doPart_nextWf {f : Part → Part} {s : State} (h : (f s.part).memWf) : (doPart f s).nextWf := ⟨_, rfl, h⟩

theorem doState_nextWf {f : State → State} {s : State} (h : (f s).part.memWf) : (doState f s).nextWf := ⟨_, rfl, h⟩

theorem tasteDonePart_memWf (passA passB chA chB agree : Bool) (ed vf : Nat) {s : Part} (h : s.memWf) :
    (tasteDonePart passA passB chA chB agree ed vf s).memWf :=
  forL_keeps Part.memWf _ (fun p s => reloadPlane p s) (fun p _ _ hs => reloadPlane_memWf p hs) (Part.onDev_memWf _ h)

theorem keyProgramS_memWf (x : MbxHdr) (slot hash : Nat) {s : State} (h : s.part.memWf) : (keyProgramS x slot hash s).part.memWf := by
  unfold keyProgramS
  exact Part.onDev_memWf _ h

theorem keyRevokeS_memWf (x : MbxHdr) (slot signer key : Nat) (sig : List Byte) {s : State} (h : s.part.memWf) :
    (keyRevokeS x slot signer key sig s).part.memWf := by
  unfold keyRevokeS
  exact Part.onDev_memWf _ h

theorem execPatternLoaded_nextWf {s : State} (h : s.part.memWf) : (execPatternLoaded s).nextWf := by
  unfold execPatternLoaded
  refine doPart_nextWf ?_
  exact Part.onDev_memWf _ (patternLoaded_memWf _ h)

theorem execTasteDone_nextWf (passA passB chA chB agree : Bool) (ed vf : Nat) {s : State} (h : s.part.memWf) :
    (execTasteDone passA passB chA chB agree ed vf s).nextWf := by
  unfold execTasteDone
  refine doPart_nextWf ?_
  exact Part.onDev_memWf _ (tasteDonePart_memWf _ _ _ _ _ _ _ h)

/-- A command that writes a memory does so by one of the units' operations, each of which keeps the form; the others reach the device
alone. -/
theorem exec_nextWf (i : Instr) {s : State} (h : s.part.memWf) : Out.nextWf (exec i s) := by
  cases i with
  | powerUp => exact doPart_nextWf (powerUp_memWf h)
  | reset => exact doPart_nextWf (reset_memWf _ _ _ h)
  | patternLoaded => exact execPatternLoaded_nextWf h
  | tasteDone => exact execTasteDone_nextWf _ _ _ _ _ _ _ h
  | patWrite => exact doPart_nextWf (patWrite_memWf _ _ _ _ _ _ _ _ h)
  | patActivate => exact doPart_nextWf (patActivate_memWf _ h)
  | patSwitch => exact doPart_nextWf (patSwitch_memWf _ _ h)
  | keyProgram => exact doState_nextWf (keyProgramS_memWf _ _ _ h)
  | keyRevoke => exact doState_nextWf (keyRevokeS_memWf _ _ _ _ _ h)
  | cellarLoss => exact doPart_nextWf (cellarDrain_memWf h)
  | trgPulse => exact doPart_nextWf (trgPulse_memWf _ _ _ h)
  | fastChannelSample => exact doPart_nextWf (fastSample_memWf _ _ h)
  | ld => exact doPart_nextWf (ldI_memWf _ _ _ _ _ _ _ _ _ _ h)
  | st => exact doPart_nextWf (stI_memWf _ _ _ _ _ _ _ _ _ _ h)
  | postedStoreWritten => exact doPart_nextWf (postedWritten_memWf _ _ h)
  | amoadd => exact doPart_nextWf (amoI_memWf _ _ _ _ _ _ _ _ _ _ h)
  | swap => exact doPart_nextWf (amoI_memWf _ _ _ _ _ _ _ _ _ _ h)
  | ftap => exact doPart_nextWf (tapI_memWf _ _ _ _ _ _ _ _ _ _ _ h)
  | ftap2 => exact doPart_nextWf (tapI_memWf _ _ _ _ _ _ _ _ _ _ _ h)
  | reti => exact doPart_nextWf (reti_memWf _ _ h)
  | boundary => exact doPart_nextWf (boundary_memWf h)
  | phaseStart => exact doPart_nextWf (phaseStart_memWf _ _ _ _ h)
  | apply => exact doPart_nextWf (applyRow_memWf _ _ _ h)
  | registerWrite => exact doPart_nextWf (hostWrite_memWf _ _ h)
  | interruptDelivery => exact doPart_nextWf (interruptDelivery_memWf _ _ h)
  | preemptSwitch => exact doPart_nextWf (preemptSwitch_memWf _ _ h)
  | tskDone => exact doPart_nextWf (coreDoP_memWf _ _ (tskDone_memWf _ _ h) h)
  | bar4Write => exact doPart_nextWf (bar4Write_memWf _ _ h)
  | flashOperationDone => exact doPart_nextWf (flashOpDone_memWf _ _ _ h)
  | debugPortAccess => exact doPart_nextWf (debugPort_memWf _ h)
  | slvDeltaHi => exact doPart_nextWf (regWrite_memWf _ _ _ _ h)
  | reloadDone => exact doPart_nextWf (reloadDone_memWf _ _ h)
  | ladderDescentTimer => exact doPart_nextWf (descentTimer_memWf h)
  | wake => exact doPart_nextWf (wake_memWf _ h)
  | ascentStepDone => exact doPart_nextWf (ascentStepDone_memWf _ _ h)
  | _ => exact doDev_nextWf _ h

/-- Settles O59: an empty queue lets the device idle; otherwise the front command is executed. -/
theorem stepKeepsMemWf : Obligations.StepKeepsMemWf := by
  intro s h
  unfold step
  split
  · exact ⟨_, rfl, h⟩
  · exact exec_nextWf _ h

/-! ### Host writes through BAR4 (R4, R517) -/

theorem Runs.of_doPart {i : Instr} {s : State} {f : Part → Part} {post : Part → Prop} (h : exec i s = doPart f s)
    (hp : post (f s.part)) : Runs i s post := ⟨f s.part, h, hp⟩

theorem RunsDev.of_doPart {i : Instr} {s : State} {f : Part → Part} {d : Dev} {post : Dev → Prop} (h : exec i s = doPart f s)
    (hf : f s.part = { s.part with dev := d }) (hp : post d) : RunsDev i s post :=
  Runs.of_doPart h (by rw [hf]; exact ⟨rfl, hp⟩)

/-- What a byte reads as after a list of bytes is written from `a`. -/
theorem Mem.byte_writeBytes {m : Mem} (a x : Nat) (l : List Byte) (h : m.wf = true) :
    (m.writeBytes a l).byte x = if a ≤ x ∧ x < a + l.length then l.getD (x - a) 0 else m.byte x := by
  induction l generalizing m a with
  | nil => rw [if_neg (by simp only [List.length_nil]; omega)]; rfl
  | cons b t ih =>
    simp only [Mem.writeBytes, List.length_cons]
    rw [ih (a + 1) (Mem.put_wf _ _ h), Mem.byte_put _ _ _ h]
    by_cases ha : a = x
    · subst ha
      rw [if_neg (by omega), if_pos rfl, if_pos (by omega), Nat.sub_self, List.getD_cons_zero]
    · by_cases hx : a + 1 ≤ x ∧ x < a + 1 + t.length
      · obtain ⟨k, rfl⟩ : ∃ k, x = a + 1 + k := ⟨x - (a + 1), by omega⟩
        rw [if_pos hx, if_pos (by omega), show a + 1 + k - a = k + 1 by omega, Nat.add_sub_cancel_left, List.getD_cons_succ]
      · rw [if_neg hx, if_neg ha, if_neg (by omega)]

section
variable {o : Nat} {bs : List Byte} {s : Part} {a : Nat} {win : Place} (ha : s.dev.rd .HST_WIN_BASE * 4096 + o = a)
  (hwin : s.dev.pat.mem.hostWin = win) (hr : s.dev.rd .HST_STATUS_MBX_READY ≠ 0)
include ha hwin hr

/-- A write inside the host window and usable DRAM reaches DRAM. -/
theorem bar4Write_inside (hlo : win.base ≤ a) (hhi : a + bs.length ≤ win.base + win.size) (hd : a + bs.length ≤ s.dev.dramUsable) :
    bar4Write o bs s = s.onMems (fun m => { m with dram := m.dram.writeBytes a bs }) := by
  simp [bar4Write, ha, hwin, hr, hlo, hhi, hd]

/-- The first write outside the host window is dropped and reported. -/
theorem bar4Write_outside (hw : a < win.base ∨ win.base + win.size < a + bs.length) (hn : s.dev.host.winRefusedAt = none) :
    bar4Write o bs s = s.onDev (fun d =>
      raise .WIN_WRITE_REFUSED wShared [o] (d.updHost (fun x => { x with winRefusedAt := some d.time.tr }))) := by
  have h : ¬ (win.base ≤ a ∧ a + bs.length ≤ win.base + win.size ∧ a + bs.length ≤ s.dev.dramUsable) := by omega
  simp only [bar4Write, ha, hwin, hr, if_false, Bool.and_eq_true, decide_eq_true_eq, and_assoc, h, hn, Option.any_none,
    Bool.false_eq_true]
end

/-- Settles O36: inside the window the bytes reach DRAM alone; the refusal is reported with its instant. -/
theorem hostWindow : Obligations.HostWindow := by
  intro o bs s hwf hr
  refine ⟨fun hlo hhi hd => ?_, fun hw hn => ?_⟩
  · refine Runs.of_doPart (f := bar4Write o bs) rfl ?_
    rw [bar4Write_inside rfl rfl hr hlo hhi hd]
    exact ⟨rfl, rfl, fun x => Mem.byte_writeBytes _ x bs (Mems.dram_wf hwf)⟩
  · exact RunsDev.of_doPart (f := bar4Write o bs) rfl (bar4Write_outside rfl rfl hr hw hn) (by rw [raise_host]; rfl)

/-! ### Writes by access code (R8) -/

theorem bit_eq_testBit (n i : Nat) : bit n i = n.testBit i := by
  rw [bit, Nat.testBit_eq_decide_div_mod_eq, Bool.eq_iff_iff, beq_iff_eq, decide_eq_true_iff]

theorem and_mod_two (x y : Nat) : (x &&& y) % 2 = x % 2 * (y % 2) := by
  rw [← Nat.pow_one 2, Nat.and_mod_two_pow]
  rcases Nat.mod_two_eq_zero_or_one x with hx | hx <;> rcases Nat.mod_two_eq_zero_or_one y with hy | hy <;> simp [hx, hy]

/-- Taking away the bits that `y` shares with `x` clears them: the W1C rule. -/
theorem testBit_sub_and (x y j : Nat) : (x - (x &&& y)).testBit j = (x.testBit j && !y.testBit j) := by
  induction j generalizing x y with
  | zero =>
    have hmod := and_mod_two x y
    have hle : (x &&& y) ≤ x := Nat.and_le_left
    simp only [Nat.testBit_zero]
    generalize x &&& y = z at hmod hle
    rcases Nat.mod_two_eq_zero_or_one y with hy | hy <;> simp [hy] at hmod ⊢ <;> omega
  | succ j ih =>
    have hdiv : (x - (x &&& y)) / 2 = x / 2 - (x / 2 &&& y / 2) := by
      have hmod : (x &&& y) % 2 ≤ x % 2 := by
        rw [and_mod_two]
        rcases Nat.mod_two_eq_zero_or_one y with hy | hy <;> simp [hy]
      have hle : (x &&& y) ≤ x := Nat.and_le_left
      rw [← Nat.and_div_two]
      omega
    rw [Nat.testBit_succ, hdiv, ih, ← Nat.testBit_succ, ← Nat.testBit_succ]

/-- What a write of the word `w` does to one field of it, by the field's access code. -/
def fieldWrite (p : Plane) (w : Nat) (e : Fld × Nat × Nat) (d : Dev) : Dev :=
  match e.1.acc with
  | .rw => d.wrAt e.1 p e.2.1 e.2.2 (mask e.1.width (w / 2 ^ e.1.lo))
  | .rws => d.stage e.1 p e.2.1 e.2.2 (mask e.1.width (w / 2 ^ e.1.lo))
  | .w1c => d.wrAt e.1 p e.2.1 e.2.2
      (d.rdAt e.1 p e.2.1 e.2.2 - (d.rdAt e.1 p e.2.1 e.2.2 &&& mask e.1.width (w / 2 ^ e.1.lo)))
  | _ => d

theorem plainWrite_eq (p : Plane) (b : Blk) (off w : Nat) (d : Dev) :
    plainWrite p b off w d = forL (fieldsAt b off) (fieldWrite p w) d := rfl

section
variable {f : Fld} (p : Plane) (w i j : Nat) (d : Dev)

theorem fieldWrite_rw (h : f.acc = .rw) :
    fieldWrite p w (f, i, j) d = d.wrAt f p i j (mask f.width (w / 2 ^ f.lo)) := by simp [fieldWrite, h]

theorem fieldWrite_rws (h : f.acc = .rws) :
    fieldWrite p w (f, i, j) d = d.stage f p i j (mask f.width (w / 2 ^ f.lo)) := by simp [fieldWrite, h]

theorem fieldWrite_w1c (h : f.acc = .w1c) : fieldWrite p w (f, i, j) d =
    d.wrAt f p i j (d.rdAt f p i j - (d.rdAt f p i j &&& mask f.width (w / 2 ^ f.lo))) := by simp [fieldWrite, h]

theorem fieldWrite_ro (h : f.acc = .ro) : fieldWrite p w (f, i, j) d = d := by simp [fieldWrite, h]

theorem fieldWrite_wo (h : f.acc = .wo) : fieldWrite p w (f, i, j) d = d := by simp [fieldWrite, h]
end

theorem forL_nil {σ α : Type} (f : α → σ → σ) (s : σ) : forL [] f s = s := rfl
theorem forL_cons {σ α : Type} (x : α) (l : List α) (f : α → σ → σ) (s : σ) : forL (x :: l) f s = forL l f (f x s) := rfl

/-- A read of a staging copy after a write of one. -/
theorem Dev.staged_stage (d : Dev) (f g : Fld) (p q : Plane) (i j k l v : Nat) :
    (d.stage g q k l v).staged f p i j = if g.key q k l = f.key p i j then mask g.width v else d.staged f p i j := by
  simp only [Dev.staged, Dev.stage, Sparse.find_put]
  split <;> rfl

/-! ### The words of the register map that the statement names -/

theorem fieldsAt_apply {b : Blk} (hb : b ∈ stagedBlks) : fieldsAt b 4 = [(.APPLY b, 0, 0), (.APPLY_PEND b, 0, 0), (.APPLY_ERR b, 0, 0),
    (.APPLY_STAGE_VIEW b, 0, 0), (.APPLY_ERR_FIELD b, 0, 0), (.APPLY_CNT b, 0, 0)] := by
  revert b; decide +kernel

theorem fieldsAt_irq : fieldsAt .hst 0x38 = [(.HST_IRQ_MASK, 0, 0), (.HST_IRQ_PEND, 0, 0)] := by decide +kernel

theorem fieldsAt_cycnt : fieldsAt .sys 0x104 = [(.SYS_CYCNT, 0, 0)] := by decide +kernel

theorem fieldsAt_proxDist : fieldsAt .ppe 0x1200 = [(.PPE_PROX_DIST_D_HOLD, 0, 0), (.PPE_PROX_DIST_D_SLOW, 0, 0)] := by decide +kernel

section
variable (p : Plane) (w : Nat) (d : Dev)

/-- A word of a RW and a W1C field: the one is set, of the other the written bits are cleared. -/
theorem plainWrite_irq : plainWrite .A .hst 0x38 w d = (d.wr .HST_IRQ_MASK (mask 8 (w / 2 ^ 0))).wr .HST_IRQ_PEND
    (d.rd .HST_IRQ_PEND - (d.rd .HST_IRQ_PEND &&& mask 8 (w / 2 ^ 8))) := by
  rw [plainWrite_eq, fieldsAt_irq, forL_cons, forL_cons, forL_nil, fieldWrite_w1c _ _ _ _ _ rfl, fieldWrite_rw _ _ _ _ _ rfl,
    Dev.rdAt_wrAt_ne _ _ (by decide)]
  rfl

/-- HST_IRQ.MASK takes its bits of the word. -/
theorem plainWrite_irq_mask : (plainWrite .A .hst 0x38 w d).rd .HST_IRQ_MASK = w % 256 := by
  rw [plainWrite_irq, Dev.wr_eq, Dev.rd_eq, Dev.rdAt_wrAt_ne _ _ (by decide), Dev.wr_eq, Dev.rdAt_wrAt_same]
  simp [mask, Fld.HST_IRQ_MASK]

/-- HST_IRQ.PEND keeps the bits at which the word has 0. -/
theorem plainWrite_irq_pend {j : Nat} (hj : j < 8) :
    bit ((plainWrite .A .hst 0x38 w d).rd .HST_IRQ_PEND) j = (bit (d.rd .HST_IRQ_PEND) j && !w.testBit (8 + j)) := by
  have hp : Fld.HST_IRQ_PEND.width = 8 := rfl
  rw [plainWrite_irq, Dev.wr_eq, Dev.rd_eq, Dev.rdAt_wrAt_same, bit_eq_testBit, bit_eq_testBit, mask, hp, Nat.testBit_mod_two_pow,
    testBit_sub_and, mask, Nat.testBit_mod_two_pow, Nat.testBit_div_two_pow]
  simp [hj, Nat.add_comm 8 j]

/-- A word of a RO field: nothing. -/
theorem plainWrite_cycnt : plainWrite .A .sys 0x104 w d = d := by
  rw [plainWrite_eq, fieldsAt_cycnt, forL_cons, forL_nil, fieldWrite_ro _ _ _ _ _ rfl]

/-- A word of RWS fields: their staging copies. -/
theorem plainWrite_proxDist : plainWrite p .ppe 0x1200 w d =
    (d.stage .PPE_PROX_DIST_D_HOLD p 0 0 (mask 16 (w / 2 ^ 0))).stage .PPE_PROX_DIST_D_SLOW p 0 0 (mask 16 (w / 2 ^ 16)) := by
  rw [plainWrite_eq, fieldsAt_proxDist, forL_cons, forL_cons, forL_nil, fieldWrite_rws _ _ _ _ _ rfl, fieldWrite_rws _ _ _ _ _ rfl]
  rfl

/-- A host's word to both planes stages both fields in each, and no live register changes. -/
theorem plainWrite_proxDist_both (hw : w < 2 ^ 32) (q : Plane) :
    let e := plainWrite .B .ppe 0x1200 w (plainWrite .A .ppe 0x1200 w d)
    e.staged .PPE_PROX_DIST_D_HOLD q 0 0 = w % 65536 ∧ e.staged .PPE_PROX_DIST_D_SLOW q 0 0 = w / 65536 ∧ e.regs = d.regs := by
  have hlo : mask 16 (mask 16 (w / 2 ^ 0)) = w % 65536 := by simp [mask]
  have hhi : mask 16 (mask 16 (w / 2 ^ 16)) = w / 65536 := by simp only [mask]; omega
  rw [plainWrite_proxDist, plainWrite_proxDist]
  refine ⟨?_, ?_, rfl⟩
  · cases q with
    | A => rw [Dev.staged_stage, if_neg (by decide), Dev.staged_stage, if_neg (by decide), Dev.staged_stage, if_neg (by decide),
        Dev.staged_stage, if_pos rfl]; exact hlo
    | B => rw [Dev.staged_stage, if_neg (by decide), Dev.staged_stage, if_pos rfl]; exact hlo
  · cases q with
    | A => rw [Dev.staged_stage, if_neg (by decide), Dev.staged_stage, if_neg (by decide), Dev.staged_stage, if_pos rfl]; exact hhi
    | B => rw [Dev.staged_stage, if_pos rfl]; exact hhi

/-- The APPLY word: APPLY_ERR is W1C and STAGE_VIEW is RW. -/
theorem plainWrite_apply {b : Blk} (hb : b ∈ stagedBlks) : ∃ x y, plainWrite p b 4 w d =
    (d.wrP p (.APPLY_ERR b) x).wrP p (.APPLY_STAGE_VIEW b) y := by
  rw [plainWrite_eq, fieldsAt_apply hb, forL_cons, forL_cons, forL_cons, forL_cons, forL_cons, forL_cons, forL_nil,
    fieldWrite_ro _ _ _ _ _ rfl, fieldWrite_ro _ _ _ _ _ rfl, fieldWrite_rw _ _ _ _ _ rfl, fieldWrite_w1c _ _ _ _ _ rfl,
    fieldWrite_ro _ _ _ _ _ rfl, fieldWrite_wo _ _ _ _ _ rfl]
  exact ⟨_, _, rfl⟩
end

/-! ### APPLY (R9, R11, R15) -/

/-- The staged values `v` of block `b` wait in plane `p`, or APPLY_ERR shows that they were refused. -/
def Dev.applied (d : Dev) (b : Blk) (p : Plane) (v : List (Nat × Nat)) : Prop :=
  (d.rdP p (.APPLY_PEND b) = 1 ∧ (⟨b, p, v⟩ : ApplySet) ∈ d.applySets) ∨ d.rdP p (.APPLY_ERR b) = 1

theorem Fld.key_zero (f : Fld) (p : Plane) :
    f.key p 0 0 = ((if f.blk.starred then p.num * 0x100000 else 0) + f.blk.num * 0x10000 + f.off) * 32 + f.lo := by
  simp only [Fld.key, Fld.word, Nat.zero_mul, Nat.add_zero]

section
variable {f g : Fld} (p : Plane)

/-- Two fields of a word lie at different bits. -/
theorem Fld.key_bit_ne (hb : g.blk = f.blk) (ho : g.off = f.off) (hl : g.lo ≠ f.lo) : g.key p 0 0 ≠ f.key p 0 0 := by
  rw [Fld.key_zero, Fld.key_zero, hb, ho]; omega

/-- The same word of a starred block in the other plane is another word. -/
theorem Fld.key_other_ne (hs : f.blk.starred = true) (hb : g.blk = f.blk) (ho : g.off = f.off) (hg : g.lo < 32) (hf : f.lo < 32) :
    g.key p.other 0 0 ≠ f.key p 0 0 := by
  rw [Fld.key_zero, Fld.key_zero, hb, ho, if_pos hs, if_pos hs]
  have hp : p.other.num + p.num = 1 := by cases p <;> rfl
  omega
end

section
variable {b : Blk} (p : Plane) (d : Dev)

theorem applyError_of_ne_cap (n : Nat) (h : b ≠ .cap) :
    applyError b p n d = (d.wrP p (.APPLY_ERR b) 1).wrP p (.APPLY_ERR_FIELD b) n := if_neg h

/-- A refusal sets APPLY_ERR; the registers of CAP that name the trigger are others. -/
theorem applyError_err (n : Nat) : (applyError b p n d).rdP p (.APPLY_ERR b) = 1 := by
  have hk : (Fld.APPLY_ERR_FIELD b).key p 0 0 ≠ (Fld.APPLY_ERR b).key p 0 0 := Fld.key_bit_ne p rfl rfl (of_decide_eq_true rfl)
  have herr : ∀ e : Dev, e.rdP p (.APPLY_ERR b) = 1 → ∀ x, (e.wrP p (.APPLY_ERR_FIELD b) x).rdP p (.APPLY_ERR b) = 1 := fun e he x =>
    (Dev.rdAt_wrAt_ne e x hk).trans he
  have h : ((d.wrP p (.APPLY_ERR b) 1).wrP p (.APPLY_ERR_FIELD b) n).rdP p (.APPLY_ERR b) = 1 :=
    herr (d.wrP p (.APPLY_ERR b) 1) (Dev.rdAt_wrAt_same d _ p 0 0 1) n
  by_cases hc : b = .cap
  · subst hc
    have hcap : ∀ g ∈ [Fld.CAP_STAT_TRG_ERR, Fld.CAP_STAT_BAD_TRG], ∀ e : Dev, e.rdP p (.APPLY_ERR .cap) = 1 → ∀ x,
        (e.wr g x).rdP p (.APPLY_ERR .cap) = 1 := fun g hg e he x =>
      (Dev.rdAt_wrAt_ne e x (by revert g; cases p <;> decide)).trans he
    unfold applyError
    extract_lets e
    rw [if_pos rfl]
    split
    · exact hcap _ (by simp) _ (hcap _ (by simp) _ (herr _ h _) _) _
    · exact hcap _ (by simp) _ h _
  · rw [applyError_of_ne_cap p d n hc]
    exact h

/-- What a 1 written to APPLY does: it refuses, or the staged set of the block replaces a waiting one and PEND shows it. -/
theorem applyWrite_cases : (∃ n, applyWrite b p d = applyError b p n d) ∨
    ((applyWrite b p d).regs = (d.wrP p (.APPLY_PEND b) 1).regs ∧ (applyWrite b p d).staging = d.staging ∧
      (applyWrite b p d).applySets =
        d.applySets.filter (fun x => !(x.blk == b && x.plane == p)) ++ [⟨b, p, stagedOf b p d⟩]) := by
  unfold applyWrite
  split
  · exact .inl ⟨_, rfl⟩
  · right
    extract_lets others d1 d2
    split
    · refine forN_keeps (fun e : Dev => e.regs = d2.regs ∧ e.staging = d2.staging ∧ e.applySets = d2.applySets) 8 _ (fun n _ e he => ?_)
        ⟨rfl, rfl, rfl⟩
      split
      · exact he
      · exact he
    · exact ⟨rfl, rfl, rfl⟩

theorem applyWrite_applied : (applyWrite b p d).applied b p (stagedOf b p d) := by
  rcases applyWrite_cases p d with ⟨n, hn⟩ | ⟨hr, -, ha⟩
  · exact .inr (hn ▸ applyError_err p d n)
  · refine .inl ⟨?_, ha ▸ List.mem_append_right _ (List.mem_singleton.mpr rfl)⟩
    exact (Dev.rdAt_congr _ _ _ _ hr).trans (Dev.rdAt_wrAt_same _ _ _ _ _ _)

/-- A word with bit 0 set asks for the set as staged before it. -/
theorem applyWord_applied {w : Nat} (hb : b ∈ stagedBlks) (hw : bit w 0 = true) : (applyWord b p w d).applied b p (stagedOf b p d) := by
  obtain ⟨x, y, h⟩ := plainWrite_apply p w d hb
  rw [applyWord, h, whenD, if_pos hw]
  exact applyWrite_applied p _
end

/-- The field is one of the APPLY word of block `b`. -/
def Fld.inApply (f : Fld) (b : Blk) : Prop := f.blk = b ∧ f.off = 4 ∧ f.lo < 32

theorem Fld.inApply_pend (b : Blk) : (Fld.APPLY_PEND b).inApply b := ⟨rfl, rfl, of_decide_eq_true rfl⟩
theorem Fld.inApply_err (b : Blk) : (Fld.APPLY_ERR b).inApply b := ⟨rfl, rfl, of_decide_eq_true rfl⟩
theorem Fld.inApply_view (b : Blk) : (Fld.APPLY_STAGE_VIEW b).inApply b := ⟨rfl, rfl, of_decide_eq_true rfl⟩
theorem Fld.inApply_errField (b : Blk) : (Fld.APPLY_ERR_FIELD b).inApply b := ⟨rfl, rfl, of_decide_eq_true rfl⟩

/-! The planes of a starred block are apart: a write of APPLY in one leaves the other's as it is. -/

section
variable {b : Blk} (q : Plane) {d : Dev} {v : List (Nat × Nat)} (hs : b.starred = true)
include hs

theorem applied_wrP_other {f : Fld} (hf : f.inApply b) (x : Nat) (h : d.applied b q v) : (d.wrP q.other f x).applied b q v := by
  have keep : ∀ g : Fld, g.inApply b → (d.wrP q.other f x).rdP q g = d.rdP q g := by
    rintro g ⟨rfl, hgo, hgl⟩
    obtain ⟨hb, ho, hl⟩ := hf
    exact Dev.rdAt_wrAt_ne _ _ (Fld.key_other_ne q hs hb (ho.trans hgo.symm) hl hgl)
  unfold Dev.applied
  rw [keep _ (Fld.inApply_pend b), keep _ (Fld.inApply_err b)]
  exact h

theorem starred_ne_cap : b ≠ .cap := by rintro rfl; cases hs

theorem applyWrite_keeps_other (h : d.applied b q v) : (applyWrite b q.other d).applied b q v := by
  rcases applyWrite_cases (b := b) q.other d with ⟨n, hn⟩ | ⟨hr, -, ha⟩
  · rw [hn, applyError_of_ne_cap _ _ _ (starred_ne_cap hs)]
    exact applied_wrP_other q hs (Fld.inApply_errField b) _ (applied_wrP_other q hs (Fld.inApply_err b) _ h)
  · have hq : q ≠ q.other := by cases q <;> decide
    have h1 := applied_wrP_other q hs (Fld.inApply_pend b) 1 h
    simp only [Dev.applied, Dev.rdP_eq, Dev.rdAt_congr _ _ _ _ hr, ha] at h1 ⊢
    exact h1.imp_left (fun ⟨hp, hm⟩ => ⟨hp, List.mem_append_left _ (List.mem_filter.mpr ⟨hm, by simp [hq]⟩)⟩)

theorem applyWord_keeps_other (w : Nat) (hb : b ∈ stagedBlks) (h : d.applied b q v) : (applyWord b q.other w d).applied b q v := by
  obtain ⟨x, y, hp⟩ := plainWrite_apply q.other w d hb
  have h1 := applied_wrP_other q hs (Fld.inApply_view b) y (applied_wrP_other q hs (Fld.inApply_err b) x h)
  rw [applyWord, hp, whenD]
  split
  · exact applyWrite_keeps_other q hs h1
  · exact h1

theorem applyWord_staging (w : Nat) (hb : b ∈ stagedBlks) : (applyWord b q w d).staging = d.staging := by
  obtain ⟨x, y, hp⟩ := plainWrite_apply q w d hb
  rw [applyWord, hp, whenD]
  split
  · rcases applyWrite_cases (b := b) q ((d.wrP q (.APPLY_ERR b) x).wrP q (.APPLY_STAGE_VIEW b) y) with ⟨n, hn⟩ | ⟨-, ht, -⟩
    · rw [hn, applyError_of_ne_cap _ _ _ (starred_ne_cap hs)]; rfl
    · exact ht
  · rfl
end

theorem stagedOf_congr (b : Blk) (p : Plane) {d e : Dev} (h : d.staging = e.staging) : stagedOf b p d = stagedOf b p e := by
  rw [stagedOf, stagedOf, h]

/-! ### A register write reaches its block (R20, R21, R280) -/

section
variable (b : Blk) (off w : Nat) {s : Part}

/-- A host write to a shared block acts at once. -/
theorem hostWord_shared (hb : b.starred = false) : hostWord b off w s = writeWord none .A b off w s := by
  simp [hostWord, hostWordNow, hb]

/-- A host write to a starred block acts in both planes, plane A first, unless it is held in φ5. -/
theorem hostWord_starred (hb : b.starred = true) (h : ¬(s.dev.rd .SYS_PHASE = 5 ∧ s.dev.cyc.running = true)) :
    hostWord b off w s = writeWord none .B b off w (writeWord none .A b off w s) := by
  have hc : ¬(b.starred && decide (s.dev.rd .SYS_PHASE = 5) && s.dev.cyc.running) = true := by
    simpa only [hb, Bool.true_and, Bool.and_eq_true, decide_eq_true_eq] using h
  rw [hostWord, if_neg hc, hostWordNow, if_pos hb]

/-- A host write at BAR0 address `a`. -/
theorem hostWrite_at {a : Nat} (w : Word) (ha : a < 0x200000) (h4 : a % 4 = 0) :
    hostWrite a w.toNat s = hostWord (Blk.ofNum (a / 65536 % 16)) (a % 65536) w.toNat s := by
  rw [hostWrite, if_pos (by simp [ha, h4]), mask, Nat.mod_eq_of_lt w.isLt]

theorem hostWrite_nowhere {a : Nat} (h : 0x200000 ≤ a ∨ a % 4 ≠ 0) : hostWrite a w s = s := by
  rw [hostWrite, if_neg (by simp only [Bool.and_eq_true, decide_eq_true_eq]; omega)]

theorem Part.onDev_onDev (f g : Dev → Dev) (s : Part) : (s.onDev f).onDev g = s.onDev (fun d => g (f d)) := rfl

theorem writeWord_apply (c : Option Nat) (p : Plane) (hb : stagedBlks.contains b = true) :
    writeWord c p b 4 w s = s.onDev (applyWord b p w) := by
  unfold writeWord
  rw [if_pos (by rw [hb]; rfl)]

theorem writeWord_proxDist (c : Option Nat) (p : Plane) :
    writeWord c p .ppe 0x1200 w s = s.onDev (plainWrite p .ppe 0x1200 w) := by
  unfold writeWord
  rfl
end

section
variable (w : Word) {s : Part}

theorem hostWrite_irq : hostWrite 0xF0038 w.toNat s = s.onDev (plainWrite .A .hst 0x38 w.toNat) := by
  rw [hostWrite_at w (by decide) (by decide)]
  exact hostWord_shared .hst 0x38 w.toNat rfl

theorem hostWrite_cycnt : hostWrite 0x104 w.toNat s = s.onDev (plainWrite .A .sys 0x104 w.toNat) := by
  rw [hostWrite_at w (by decide) (by decide)]
  exact hostWord_shared .sys 0x104 w.toNat rfl

theorem hostWrite_proxDist (h : s.dev.rd .SYS_PHASE ≠ 5) : hostWrite 0x71200 w.toNat s =
    s.onDev (fun d => plainWrite .B .ppe 0x1200 w.toNat (plainWrite .A .ppe 0x1200 w.toNat d)) := by
  rw [hostWrite_at w (by decide) (by decide)]
  refine (hostWord_starred .ppe 0x1200 w.toNat rfl (fun hc => h hc.1)).trans ?_
  rw [writeWord_proxDist, writeWord_proxDist]
  exact Part.onDev_onDev _ _ _
end

/-- A write of APPLY with bit 0 set, by a writer that acts in plane `q`, asks there for the set staged before it. -/
theorem applyRow_applied {who : Actor} {b : Blk} {q : Plane} {w : Nat} {s : Part} (hact : who.actsIn s.dev q = true)
    (hb : stagedBlks.contains b = true) (hw : bit w 0 = true) :
    ∃ d, applyRow who b w s = { s with dev := d } ∧ d.applied b (b.home q) (stagedOf b (b.home q) s.dev) := by
  have hm : b ∈ stagedBlks := List.contains_iff_mem.mp hb
  rw [applyRow, if_pos hb]
  cases who with
  | core p c =>
    obtain ⟨rfl, ha⟩ : q = p ∧ s.dev.coreActive p c = true := by simpa [Actor.actsIn] using hact
    exact ⟨_, by rw [regWrite, coreDoP, if_pos ha, writeWord_apply _ _ _ _ hb]; rfl, applyWord_applied _ _ hm hw⟩
  | host =>
    have hn : ¬(s.dev.rd .SYS_PHASE = 5 ∧ s.dev.cyc.running = true) := by
      rintro ⟨h5, hr⟩
      simp only [Actor.actsIn, h5, hr, decide_true, Bool.and_true, Bool.not_true, Bool.false_eq_true] at hact
    cases hs : b.starred with
    | false =>
      have hh : b.home q = .A := by simp [Blk.home, hs]
      rw [hh]
      exact ⟨_, by rw [regWrite, hostWord_shared _ _ _ hs, writeWord_apply _ _ _ _ hb]; rfl, applyWord_applied _ _ hm hw⟩
    | true =>
      have hh : b.home q = q := by simp [Blk.home, hs]
      rw [hh]
      refine ⟨applyWord b .B w (applyWord b .A w s.dev),
        by rw [regWrite, hostWord_starred _ _ _ hs hn, writeWord_apply _ _ _ _ hb, writeWord_apply _ _ _ _ hb]; rfl, ?_⟩
      cases q with
      | A => exact applyWord_keeps_other .A hs w hm (applyWord_applied .A s.dev hm hw)
      | B =>
        rw [stagedOf_congr b .B (applyWord_staging (d := s.dev) .A hs w hm).symm]
        exact applyWord_applied .B _ hm hw

/-- Settles O44: APPLY by the set it asks for; a word of RW and W1C fields, of a RO field, and of RWS fields, each by its access code. -/
theorem registerWrites : Obligations.RegisterWrites := by
  intro who b w a q s
  refine ⟨fun hact hb hw => ?_, fun hb => ?_, ?_, ?_, fun hph => ?_, fun ha => ?_⟩
  · have hbit : bit w.toNat 0 = true := by rw [bit_eq_testBit]; exact hw
    obtain ⟨d, hd, hset⟩ := applyRow_applied hact hb hbit
    exact RunsDev.of_doPart (f := applyRow who b w.toNat) rfl hd hset
  · have hn : ¬stagedBlks.contains b = true := by rw [hb]; decide
    exact RunsDev.of_doPart (f := applyRow who b w.toNat) rfl (if_neg hn) rfl
  · refine RunsDev.of_doPart (f := hostWrite 0xF0038 w.toNat) rfl (hostWrite_irq w) ⟨plainWrite_irq_mask _ _, fun j hj => ?_⟩
    rw [plainWrite_irq_pend _ _ hj, BitVec.testBit_toNat]
  · exact RunsDev.of_doPart (f := hostWrite 0x104 w.toNat) rfl (hostWrite_cycnt w) (plainWrite_cycnt _ _)
  · exact RunsDev.of_doPart (f := hostWrite 0x71200 w.toNat) rfl (hostWrite_proxDist w hph) (plainWrite_proxDist_both _ _ w.isLt q)
  · exact RunsDev.of_doPart (f := hostWrite a w.toNat) rfl (hostWrite_nowhere _ ha) rfl

end Sys2Proof.Machine
end

section
/-! PROOFS of the family 01_cell_cycle: SYNC_IN edges, terms, loss and control; the boundary at which TB0 steps. -/

namespace Sys2Proof.Machine

theorem RunsDev.of_doDev {i : Instr} {s : State} {f : Dev → Dev} {post : Dev → Prop} (h : exec i s = doDev f s)
    (hp : post (f s.part.dev)) : RunsDev i s post := ⟨s.part.onDev f, h, rfl, hp⟩

/-! ### The SYNC_IN state and the registers beside it -/

@[simp] theorem Dev.updSync_sync (d : Dev) (g : SyncSt → SyncSt) : (d.updSync g).sync = g d.sync := rfl

section
variable (d : Dev) (f : Fld) (v i : Nat)

theorem Dev.rd_wr_same : (d.wr f v i).rd f i = mask f.width v := Dev.rdAt_wrAt_same _ _ _ _ _ _

theorem Dev.rd_wr_ne {g : Fld} {j : Nat} (h : g.key .A j 0 ≠ f.key .A i 0) : (d.wr g v j).rd f i = d.rd f i :=
  Dev.rdAt_wrAt_ne _ _ h
end

/-- A field of another word than the roles of the ports does not decide who leads. -/
theorem Dev.leads_wr (d : Dev) {f : Fld} (v : Nat) (h : ∀ n, n < 4 → f.key .A 0 0 ≠ Fld.LS_STATE_ROLE.key .A n 0) :
    (d.wr f v).leads = d.leads := by
  have hrole : ∀ n, n < 4 → (d.wr f v).rd .LS_STATE_ROLE n = d.rd .LS_STATE_ROLE n := fun n hn => Dev.rd_wr_ne d _ v n (h n hn)
  simp [Dev.leads, List.range_succ, hrole]

theorem mask_unsigned (w : Nat) (x : Int) : mask w (unsigned w x) = unsigned w x := by
  have hpos : (0 : Int) < (2 ^ w : Nat) := Int.natCast_pos.mpr (Nat.two_pow_pos w)
  have hlt := Int.emod_lt_of_pos x hpos
  have hge := Int.emod_nonneg x (Int.ne_of_gt hpos)
  rw [mask, unsigned]
  exact Nat.mod_eq_of_lt (by omega)

/-! ### An accepted edge (R42, R43, R45, R46) -/

/-- The phase error of an edge stamped `t`: the sync boundary nearest to it less its instant (R43). -/
def Dev.phaseErr (d : Dev) (t : T96) : Int := (d.nearestSync (t + d.syncOfs) : Int) - (t + d.syncOfs : Nat)

/-- A phase error as PH_ERR shows it: whole nanoseconds, saturated. -/
def shownErr (ph : Int) : Nat := unsigned 24 (clampI (-(2 ^ 23 - 1)) (2 ^ 23 - 1) (rdiv ph nsUnit))

/-- What an accepted edge with phase error `ph` leaves on a follower and on a leader alike: the hold, the count of misses, PH_ERR. -/
def edgeSeen (t : T96) (ph : Int) (d : Dev) : Dev :=
  (d.updSync (fun s => { s with
    hold := if d.syncM < 2 then 0 else d.syncM / 2 + 1, missCnt := 0, missArmed := true, edges := (t :: s.edges).take 4 })).wr
    .SYS_SYNC_STAT_PH_ERR (shownErr ph)

section
variable {t width : Nat} {falling : Bool} {d : Dev}

theorem syncEdge_ignored (h : width < 100 ∨ d.sync.hold ≠ 0) : syncEdge t width falling d = d := by
  unfold syncEdge
  rw [if_pos]
  rcases h with h | h <;> simp [h]

/-- While tracking, an edge of the selected polarity that is no glitch is accepted once no hold runs; terms and lock follow it on a leader
alone. -/
theorem syncEdge_tracking (hon : d.syncOn = true) (hw : 100 ≤ width) (hpol : falling = (d.rd .SYS_SYNC_CTL_EDGE == 1))
    (hhold : d.sync.hold = 0) (hacq : d.sync.acq = false) (htrk : d.sync.tracking = true) :
    syncEdge t width falling d =
      if d.leads then
        syncBig (d.phaseErr t) (syncFreq (syncLock (d.phaseErr t) (syncTerms (d.phaseErr t) (edgeSeen t (d.phaseErr t) d))))
      else edgeSeen t (d.phaseErr t) d := by
  have hleads : (edgeSeen t (d.phaseErr t) d).leads = d.leads := Dev.leads_wr _ _ (by decide)
  have hnot : ¬width < 100 := by omega
  unfold syncEdge
  rw [if_neg (by simp [hon, hnot, hpol, hhold, htrk]), hacq, ← hleads]
  cases h : (edgeSeen t (d.phaseErr t) d).leads with
  | true => exact if_neg (by rw [Bool.not_eq_true']; exact fun hf => Bool.noConfusion (h.symm.trans hf))
  | false => exact if_pos (by rw [Bool.not_eq_true']; exact h)

theorem edgeSeen_phErr (ph : Int) : (edgeSeen t ph d).rd .SYS_SYNC_STAT_PH_ERR = shownErr ph :=
  (Dev.rd_wr_same _ _ _ _).trans (mask_unsigned 24 _)

theorem edgeSeen_tCell (ph : Int) : (edgeSeen t ph d).tCell = d.tCell := by
  rw [Dev.tCell, edgeSeen, Dev.rd_wr_ne _ _ _ _ (by decide)]
  rfl

theorem edgeSeen_syncM (ph : Int) : (edgeSeen t ph d).syncM = d.syncM := Dev.rd_wr_ne _ _ _ _ (by decide)
end

/-- `e` shows the phase error of `d` and has its terms, its count of misses and its cycle length. -/
def Dev.sameTerms (d e : Dev) : Prop :=
  e.rd .SYS_SYNC_STAT_PH_ERR = d.rd .SYS_SYNC_STAT_PH_ERR ∧ e.sync.r = d.sync.r ∧ e.sync.p = d.sync.p ∧
    e.sync.missCnt = d.sync.missCnt ∧ e.tCell = d.tCell

section
variable {d e : Dev}

theorem Dev.sameTerms.trans {f : Dev} (h : d.sameTerms e) (h' : e.sameTerms f) : d.sameTerms f := by
  obtain ⟨h1, h2, h3, h4, h5⟩ := h
  obtain ⟨h1', h2', h3', h4', h5'⟩ := h'
  exact ⟨h1'.trans h1, h2'.trans h2, h3'.trans h3, h4'.trans h4, h5'.trans h5⟩

theorem Dev.sameTerms.tCell_eq (h : d.sameTerms e) : e.tCell = d.tCell := by
  obtain ⟨-, -, -, -, hcell⟩ := h
  exact hcell

theorem Dev.sameTerms_wr (d : Dev) {f : Fld} (v : Nat) (hph : f.key .A 0 0 ≠ Fld.SYS_SYNC_STAT_PH_ERR.key .A 0 0)
    (hk : f.key .A 0 0 ≠ Fld.SYS_CYCLE_K.key .A 0 0) : d.sameTerms (d.wr f v) :=
  ⟨Dev.rd_wr_ne _ _ _ _ hph, rfl, rfl, rfl, by rw [Dev.tCell, Dev.rd_wr_ne _ _ _ _ hk]; rfl⟩

theorem icuBoth_sameTerms (d : Dev) : d.sameTerms (icuBoth 81 d) := by
  have hrd : ∀ f : Fld, f.notSrc .A 0 0 .A 81 = true → f.notSrc .A 0 0 .B 81 = true → (icuBoth 81 d).rd f = d.rd f :=
    fun f ha hb => icuBoth_rdAt d 81 ha hb
  refine ⟨hrd _ (by decide) (by decide), by simp, by simp, by simp, ?_⟩
  rw [Dev.tCell, hrd _ (by decide) (by decide)]
  rfl

/-- The lock follows the phase error and leaves the terms. -/
theorem syncLock_sameTerms (ph : Int) (d : Dev) : d.sameTerms (syncLock ph d) := by
  unfold syncLock
  extract_lets T atClamp small d1
  have h1 : d.sameTerms d1 := ⟨rfl, rfl, rfl, rfl, rfl⟩
  have h2 : ∀ v, d.sameTerms (d1.wr .SYS_SYNC_STAT_LOCKED v) := fun v => h1.trans (Dev.sameTerms_wr _ _ (by decide) (by decide))
  split
  · exact h2 0
  · split
    · exact (h2 1).trans (icuBoth_sameTerms _)
    · exact h1

theorem syncFreq_sameTerms (d : Dev) : d.sameTerms (syncFreq d) := by
  unfold syncFreq
  extract_lets want
  split
  · exact Dev.sameTerms_wr _ _ (by decide) (by decide)
  · exact Dev.sameTerms_wr _ _ (by decide) (by decide)

/-- An error of at most half a cycle ends a run of large ones and loses no lock. -/
theorem syncBig_sameTerms {ph : Int} (h : absI ph * 2 ≤ d.tCell) : d.sameTerms (syncBig ph d) := by
  unfold syncBig
  rw [if_neg (by omega)]
  exact ⟨rfl, rfl, rfl, rfl, rfl⟩

/-- On a leader an accepted edge with an error of at most half a cycle changes the terms as R45 gives and nothing of them after. -/
theorem leaderEdge_sameTerms {ph : Int} (h : absI ph * 2 ≤ d.tCell) :
    (syncTerms ph d).sameTerms (syncBig ph (syncFreq (syncLock ph (syncTerms ph d)))) := by
  have hl := (syncLock_sameTerms ph (syncTerms ph d)).trans (syncFreq_sameTerms _)
  exact hl.trans (syncBig_sameTerms (by rw [hl.tCell_eq]; exact h))
end

/-! ### The loss of the lock (R46, R47) -/

section
variable (d : Dev)

/-- The fault of a loss writes no register of SYNC_IN. -/
theorem syncLost_rd {f : Fld} (h : f.calm .A 0 0 = true) (hs : ∀ q, f.notSrc .A 0 0 q 80 = true) :
    (syncLost d).rd f = ((d.wr .SYS_SYNC_STAT_SYNC_LOST 1).wr .SYS_SYNC_STAT_LOCKED 0).rd f :=
  raise_rdAt _ _ _ _ h (fun q _ hn => Option.some.inj hn ▸ hs q)

/-- The loss clears the terms, ends tracking, shows SYNC_LOST and takes LOCKED back. -/
theorem syncLost_shows : (syncLost d).rd .SYS_SYNC_STAT_SYNC_LOST = 1 ∧ (syncLost d).rd .SYS_SYNC_STAT_LOCKED = 0 ∧
    (syncLost d).sync.r = 0 ∧ (syncLost d).sync.p = 0 ∧ (syncLost d).sync.tracking = false := by
  have hsync : (syncLost d).sync = { d.sync with
      r := 0, p := 0, tracking := false, bigRun := none, small := 0, edges := [], acq := d.rd .SYS_SYNC_CTL_AUTO_RELOCK == 1 } :=
    raise_sync _ _ _ _
  rw [hsync]
  refine ⟨?_, ?_, rfl, rfl, rfl⟩
  · rw [syncLost_rd d (by decide) (by rintro (_ | _) <;> decide), Dev.rd_wr_ne _ _ _ _ (by decide), Dev.rd_wr_same]
    rfl
  · rw [syncLost_rd d (by decide) (by rintro (_ | _) <;> decide), Dev.rd_wr_same]
    rfl

theorem syncLost_edgeMiss : (syncLost d).rd .SYS_SYNC_STAT_EDGE_MISS = d.rd .SYS_SYNC_STAT_EDGE_MISS := by
  rw [syncLost_rd d (by decide) (by rintro (_ | _) <;> decide), Dev.rd_wr_ne _ _ _ _ (by decide), Dev.rd_wr_ne _ _ _ _ (by decide)]
end

theorem edgeMiss_due {d : Dev} (hon : d.syncOn = true) (hl : d.leads = true) (ha : d.sync.missArmed = true)
    (hm : d.syncM + 16 ≤ d.sync.missCnt) :
    edgeMiss d = syncLost ((d.updSync (fun s => { s with missArmed := false })).wr .SYS_SYNC_STAT_EDGE_MISS 1) :=
  if_pos (by simp [hon, hl, ha, hm])

/-! ### SYS_SYNC_CTL (R48) -/

section
variable {d : Dev} {w : Nat}

/-- SYNC_EN 0 to 1: DIV is taken and acquisition begins with terms of zero. -/
theorem syncCtlWrite_enables (hen : d.rd .SYS_SYNC_CTL_SYNC_EN = 0) (hpat : d.rd .SYS_CYCLE_SYNC_PAT ≠ 0) (hw : w % 2 = 1) :
    (syncCtlWrite w d).rd .SYS_SYNC_CTL_SYNC_EN = 1 ∧ (syncCtlWrite w d).rd .SYS_SYNC_CTL_DIV = w / 65536 % 4096 ∧
      (syncCtlWrite w d).sync.acq = true ∧ (syncCtlWrite w d).sync.r = 0 := by
  unfold syncCtlWrite
  rw [if_neg (by omega), if_neg (by rw [if_neg hpat]; omega)]
  exact ⟨Dev.rd_wr_same _ _ _ _, (Dev.rd_wr_ne _ _ _ _ (by decide)).trans (Dev.rd_wr_same _ _ _ _), rfl, rfl⟩

/-- While SYNC_EN reads 1, a write that changes DIV or keeps SYNC_EN is ignored. -/
theorem syncCtlWrite_ignored (hen : d.rd .SYS_SYNC_CTL_SYNC_EN = 1) (h : w / 65536 % 4096 ≠ d.syncM ∨ w % 2 = 1) :
    syncCtlWrite w d = d := by
  unfold syncCtlWrite
  rw [if_pos hen]
  split
  · rfl
  · next hkeep =>
    have hdiv : w / 65536 % 4096 = d.syncM := by
      simp only [Bool.or_eq_true, bne_iff_ne, not_or, Decidable.not_not] at hkeep
      exact hkeep.2
    exact if_pos (h.resolve_left (fun hne => hne hdiv))

/-- SYNC_EN 1 to 0 with the other fields as they read. -/
theorem syncCtlWrite_disables (hen : d.rd .SYS_SYNC_CTL_SYNC_EN = 1) (hw : w % 2 = 0)
    (he : bit w 1 = (d.rd .SYS_SYNC_CTL_EDGE == 1)) (ha : bit w 2 = (d.rd .SYS_SYNC_CTL_AUTO_RELOCK == 1))
    (hdiv : w / 65536 % 4096 = d.syncM) :
    (syncCtlWrite w d).rd .SYS_SYNC_CTL_SYNC_EN = 0 ∧ (syncCtlWrite w d).rd .SYS_SYNC_STAT_LOCKED = 0 ∧
      (syncCtlWrite w d).sync.r = 0 ∧ (syncCtlWrite w d).sync.p = 0 := by
  unfold syncCtlWrite
  rw [if_pos hen, if_neg (by simp [he, ha, hdiv]), if_neg (by omega)]
  exact ⟨((Dev.rd_wr_ne _ _ _ _ (by decide)).trans (Dev.rd_wr_ne _ _ _ _ (by decide))).trans (Dev.rd_wr_same _ _ _ _),
    (Dev.rd_wr_ne _ _ _ _ (by decide)).trans (Dev.rd_wr_same _ _ _ _), rfl, rfl⟩
end

/-- Settles O43: an accepted edge, one that is ignored, the loss of the lock, and the three writes of SYS_SYNC_CTL, each by its lemma. -/
theorem syncTracking : Obligations.SyncTracking := by
  intro t width falling w s
  have hbit : ∀ i v, w.toNat / 2 ^ i % 2 = v → bit w.toNat i = (v == 1) := fun i v h => by rw [bit, h]
  refine ⟨fun hon hw hpol hhold hacq htrk => ?_, fun h => ?_, fun hon hl ha hm => ?_, fun hen hpat hw => ?_, fun hen h => ?_,
    fun hen _ _ hw he hr hdiv => ?_⟩
  · have hedge := syncEdge_tracking (t := t) hon hw hpol hhold hacq htrk
    refine ⟨fun hl => ?_, fun hl hph => ?_⟩
    · rw [if_neg (by rw [hl]; decide)] at hedge
      refine RunsDev.of_doDev (f := syncEdge t width falling) rfl ?_
      rw [hedge]
      exact ⟨edgeSeen_phErr _, rfl, rfl, rfl⟩
    · rw [if_pos hl] at hedge
      refine RunsDev.of_doDev (f := syncEdge t width falling) rfl ?_
      obtain ⟨hshown, hr, hp, hmiss, -⟩ := leaderEdge_sameTerms (d := edgeSeen t (s.part.dev.phaseErr t) s.part.dev)
        (ph := s.part.dev.phaseErr t) (by rw [edgeSeen_tCell]; exact hph)
      rw [hedge]
      refine ⟨hshown.trans (edgeSeen_phErr _), hmiss, hr.trans ?_, hp.trans ?_⟩
      · simp only [syncTerms, Dev.updSync_sync, edgeSeen_tCell, edgeSeen_syncM]
        rfl
      · simp only [syncTerms, Dev.updSync_sync, edgeSeen_syncM]
        rfl
  · exact RunsDev.of_doDev (f := syncEdge t width falling) rfl (syncEdge_ignored h)
  · refine RunsDev.of_doDev (f := edgeMiss) rfl ?_
    rw [edgeMiss_due hon hl ha hm]
    exact ⟨(syncLost_edgeMiss _).trans (Dev.rd_wr_same _ _ _ _), syncLost_shows _⟩
  · have hodd : w.toNat % 2 = 1 := by simpa [BitVec.getLsbD, Nat.testBit_zero] using hw
    exact RunsDev.of_doDev (f := syncCtlWrite w.toNat) rfl (syncCtlWrite_enables hen hpat hodd)
  · exact RunsDev.of_doDev (f := syncCtlWrite w.toNat) rfl (syncCtlWrite_ignored hen h)
  · exact RunsDev.of_doDev (f := syncCtlWrite w.toNat) rfl
      (syncCtlWrite_disables hen hw (hbit 1 _ he) (hbit 2 _ hr) hdiv)

/-! ### The boundary at which TB0 steps (R316, R317, R343) -/

/-- What holds after BOUNDARY holds of the part that the boundary gives. -/
theorem Runs.boundary {s : State} {post : Part → Prop} (h : Runs .boundary s post) : post (Machine.boundary s.part) := by
  obtain ⟨q, hq, hp⟩ := h
  have hnext : Host.Outcome.next { s with part := Machine.boundary s.part } = .next { s with part := q } := hq
  injection hnext with hpart
  have hq' : Machine.boundary s.part = q := congrArg State.part hpart
  exact hq' ▸ hp

/-- A follower in φ5 at the instant of its boundary, 125 µs after the one that opened the cycle: a step of TB0 by 1 µs, which the leader's
sync frame announced, is due there. Plane B is retired. -/
def stepAtBoundary : State :=
  let d : Dev := {
    cyc := { running := true, started := true, rackDone := true, closeAt := 125000 * nsUnit, nextAt := some (250000 * nsUnit) }
    red := { a := { mark := true } }
    time := { bases := ⟨{}, [(0, { acc := 125000 * nsUnit * 65536, pendStep := some (.off (1000 * nsUnit)), stepSent := true })]⟩ } }
  { part := { dev := ((((d.wr .SYS_PHASE 5).wr .TB_STAT_STATE 1).wr .SYS_CYCLE_K 4).wr .LS_STATE_ROLE 2).wr .RED_ROLE_B_STATE 5 } }

theorem stepAtBoundary_due : stepAtBoundary.part.dev.boundaryDue = true := by decide +kernel

/-- The step moves the instant that opens the cycle with TB0, as it moves every placed boundary. -/
theorem boundary_stepAtBoundary_openAt :
    (boundary stepAtBoundary.part).dev.cyc.openAt = stepAtBoundary.part.dev.cyc.closeAt + 1000 * nsUnit := by decide +kernel

/-- Refutes O42: where a step of TB0 takes effect at the boundary, the cycle opens at the instant that closed the one before it as TB0 reads
it after the step (R317), which differs by the step. -/
theorem not_cellCycle : ¬ Obligations.CellCycle := by
  intro h
  obtain ⟨hopen, -⟩ := h 0 [] false false false [] none none 0 { src := .A, join := false, here := {}, there := {} } stepAtBoundary
  obtain ⟨-, -, -, -, -, hat⟩ := (hopen stepAtBoundary_due).boundary
  exact absurd (hat.symm.trans boundary_stepAtBoundary_openAt) (Nat.ne_of_lt (Nat.lt_add_of_pos_right (by decide)))

end Sys2Proof.Machine
end

section
/-! PROOFS of the family 03_paths_profiles: the motion commands of the mailbox and the override write; STOP, QSTOP, ABORT and RESUME. -/

namespace Sys2Proof.Machine

/-! ### The block of a register entry -/

/-- The block that a register file key lies in: 0 to 15 in the view of plane A, 16 more in that of plane B. -/
def viewBlk (k : Nat) : Nat := k / 0x200000

/-- Entry `i`, `j` of the field lies in the words of its block. -/
abbrev Fld.inside (f : Fld) (i j : Nat) : Prop := f.off + i * f.s1 + j * f.s2 < 0x10000 ∧ f.lo < 32

theorem viewBlk_key {f : Fld} {i j : Nat} (p : Plane) (h : f.inside i j) :
    viewBlk (f.key p i j) = (if f.blk.starred then 16 * p.num else 0) + f.blk.num := by
  obtain ⟨hw, hlo⟩ := h
  unfold viewBlk Fld.key Fld.word
  split <;> omega

/-- A starred field of plane B lies in the view of plane B, whatever its index. -/
theorem viewBlk_key_B {f : Fld} (i j : Nat) (h : f.blk.starred = true) : 16 ≤ viewBlk (f.key .B i j) := by
  unfold viewBlk Fld.key Fld.word
  rw [if_pos h, Plane.num]
  omega

/-! ### What the motion commands of a plane act on -/

/-- The blocks whose registers the motion commands of a plane read or show: the Pattern's status, and in plane A the PPE, in plane B the
whole view. -/
def Plane.sees (q : Plane) (n : Nat) : Bool :=
  n == 1 || match q with
    | .A => n == 7
    | .B => decide (16 ≤ n)

theorem Plane.sees_ppe (q : Plane) : q.sees (16 * q.num + Blk.ppe.num) = true := by cases q <;> decide

theorem Plane.sees_shared (q : Plane) {b : Blk} (hs : b.starred = false) (hb : b ≠ .pat) : q.sees b.num = false := by
  revert hs hb
  cases b <;> cases q <;> decide

theorem Plane.other_sees_starred (p : Plane) {b : Blk} (hs : b.starred = true) : p.other.sees (16 * p.num + b.num) = false := by
  revert hs
  cases b <;> cases p <;> decide

/-- `e` has the motion units, the Pattern and the registers that plane `q` sees as `d` has them. -/
structure Dev.sameIn (d : Dev) (q : Plane) (e : Dev) : Prop where
  pat : e.pat = d.pat
  ppe : (e.pl q).ppe = (d.pl q).ppe
  lpe : (e.pl q).lpe = (d.pl q).lpe
  regs : ∀ k, q.sees (viewBlk k) = true → Sparse.find e.regs k = Sparse.find d.regs k

/-- `e` is what a unit of plane `p` leaves of `d`: the host link and the other plane are as before. -/
structure Dev.changesIn (d : Dev) (p : Plane) (e : Dev) : Prop where
  host : e.host = d.host
  other : d.sameIn p.other e

section
variable {d e : Dev} {p q : Plane}

theorem Dev.sameIn.refl (d : Dev) (q : Plane) : d.sameIn q d := ⟨rfl, rfl, rfl, fun _ _ => rfl⟩

theorem Dev.sameIn.trans {x : Dev} (h : d.sameIn q e) (h' : e.sameIn q x) : d.sameIn q x :=
  ⟨h'.pat.trans h.pat, h'.ppe.trans h.ppe, h'.lpe.trans h.lpe, fun k hk => (h'.regs k hk).trans (h.regs k hk)⟩

theorem Dev.sameIn.of_pl (hpat : e.pat = d.pat) (hpl : e.pl q = d.pl q)
    (hregs : ∀ k, q.sees (viewBlk k) = true → Sparse.find e.regs k = Sparse.find d.regs k) : d.sameIn q e :=
  ⟨hpat, by rw [hpl], by rw [hpl], hregs⟩

theorem Dev.changesIn.refl (d : Dev) (p : Plane) : d.changesIn p d := ⟨rfl, .refl _ _⟩

theorem Dev.changesIn.trans {x : Dev} (h : d.changesIn p e) (h' : e.changesIn p x) : d.changesIn p x :=
  ⟨h'.host.trans h.host, h.other.trans h'.other⟩

theorem forL_changesIn {α : Type} (l : List α) (f : α → Dev → Dev) (h : ∀ x ∈ l, ∀ s : Dev, s.changesIn p (f x s)) :
    d.changesIn p (forL l f d) :=
  forL_keeps (d.changesIn p) l f (fun x hx s hs => hs.trans (h x hx s)) (.refl _ _)

theorem Dev.sameIn.arm (h : d.sameIn q e) (n : Nat) : e.arm q n = d.arm q n := by rw [Dev.arm, h.ppe]; rfl
theorem Dev.sameIn.aux (h : d.sameIn q e) (m : Nat) : e.aux q m = d.aux q m := by rw [Dev.aux, h.ppe]; rfl
theorem Dev.sameIn.lax (h : d.sameIn q e) (a : Nat) : e.lax q a = d.lax q a := by rw [Dev.lax, h.lpe]; rfl

/-- A field of the path engine is one that its plane sees. -/
theorem Dev.sameIn.rdP_ppe (h : d.sameIn q e) {f : Fld} {i : Nat} (hb : f.blk = .ppe) (hi : f.inside i 0) : e.rdP q f i = d.rdP q f i := by
  have hk : q.sees (viewBlk (f.key q i 0)) = true := by
    rw [viewBlk_key q hi, hb]
    exact q.sees_ppe
  rw [Dev.rdP, Dev.rdAt, h.regs _ hk]
  rfl
end

/-! ### What a write, a change of a unit and a code leave of the other plane -/

section
variable (d : Dev) (p : Plane)

/-- A write of an entry that a plane does not see leaves it as it is. -/
theorem Dev.wrAt_sameIn {f : Fld} {q r : Plane} {i j : Nat} (v : Nat) (h : q.sees (viewBlk (f.key r i j)) = false) :
    d.sameIn q (d.wrAt f r i j v) := by
  refine .of_pl rfl (Dev.wrAt_pl _ _ _ _ _ _ _) (fun k hk => ?_)
  have hne : f.key r i j ≠ k := fun he => Bool.noConfusion ((he ▸ h).symm.trans hk)
  simp only [Dev.wrAt, Sparse.find_put, hne, if_false]

/-- No plane's motion sees a shared block but the Pattern's. -/
theorem Dev.wr_sameIn {f : Fld} {i : Nat} (q : Plane) (v : Nat) (hs : f.blk.starred = false) (hb : f.blk ≠ .pat) (hi : f.inside i 0) :
    d.sameIn q (d.wr f v i) := by
  refine d.wrAt_sameIn v ?_
  rw [viewBlk_key _ hi, if_neg (by rw [hs]; decide), Nat.zero_add]
  exact q.sees_shared hs hb

/-- A write of a starred block reaches its own plane. -/
theorem Dev.wrP_changesIn {f : Fld} {i : Nat} (v : Nat) (hs : f.blk.starred = true) (hi : f.inside i 0) :
    d.changesIn p (d.wrP p f v i) := by
  refine ⟨rfl, d.wrAt_sameIn v ?_⟩
  rw [viewBlk_key _ hi, if_pos hs]
  exact p.other_sees_starred hs

theorem Dev.updPl_changesIn (g : PlaneDev → PlaneDev) : d.changesIn p (d.updPl p g) :=
  ⟨by simp [Dev.updPl], .of_pl (by simp [Dev.updPl]) (by simp [Dev.updPl]) (fun k _ => by simp [Dev.updPl])⟩

theorem Dev.updPpe_changesIn (g : PpeSt → PpeSt) : d.changesIn p (d.updPpe p g) := d.updPl_changesIn p _
theorem Dev.updArm_changesIn (n : Nat) (g : ArmSt → ArmSt) : d.changesIn p (d.updArm p n g) := d.updPpe_changesIn p _
theorem Dev.updAux_changesIn (m : Nat) (g : AuxSt → AuxSt) : d.changesIn p (d.updAux p m g) := d.updPpe_changesIn p _
theorem Dev.updBlk_changesIn (b : Nat) (g : BlkSt → BlkSt) : d.changesIn p (d.updBlk p b g) := d.updPpe_changesIn p _
theorem Dev.updLax_changesIn (a : Nat) (g : LpeAx → LpeAx) : d.changesIn p (d.updLax p a g) := d.updPl_changesIn p _

theorem hostVector_sameIn (q : Plane) (v : Nat) : d.sameIn q (hostVector v d) := d.wr_sameIn q _ rfl (by decide) (by decide)

theorem recordAt_sameIn (q : Plane) (t : T96) (b code kind w : Nat) (l : List Int) : d.sameIn q (recordAt t b code kind w l d) := by
  have hloss := d.wr_sameIn (f := .CEL_LOSS) (i := 0) q (satU 32 (d.rd .CEL_LOSS + 1)) rfl (by decide) (by decide)
  refine .of_pl (recordAt_pat ..) (by cases q <;> simp [Dev.pl]) (fun k hk => ?_)
  unfold recordAt
  dsimp only
  split
  · rfl
  · exact hloss.regs k hk

theorem noteFault_sameIn (q : Plane) (c : Code) : d.sameIn q (noteFault c d) := by
  unfold noteFault
  split
  · exact (d.wr_sameIn q c.num rfl (by decide) (by decide)).trans (hostVector_sameIn _ q 2)
  · exact .refl _ _

theorem icuRaise_changesIn {n : Nat} (hn : n < 512) : d.changesIn p (icuRaise p n d) := by
  unfold icuRaise
  split
  · exact d.wrP_changesIn p 1 rfl ⟨by simp only [Fld.ICU_SRC_MERGED]; omega, by decide⟩
  · exact d.wrP_changesIn p 1 rfl ⟨by simp only [Fld.ICU_SRC_PEND]; omega, by decide⟩

variable (c : Code) (l : List Int)

theorem raiseP_changesIn (hc : ∀ n ∈ c.irq, n < 512) : d.changesIn p (raiseP p c l d) := by
  have hform : d.changesIn p (formRec p c.num l d) := d.updPl_changesIn p _
  have hnote : ∀ e : Dev, e.changesIn p (if e.active = p then noteFault c (record c.num c.kind.num wPlane l e) else e) := by
    intro e
    split
    · exact ⟨by simp [record], (recordAt_sameIn _ _ _ _ _ _ _ _).trans (noteFault_sameIn _ _ _)⟩
    · exact .refl _ _
  unfold raiseP
  extract_lets d1 d2
  have h2 : d.changesIn p d2 := hform.trans (hnote d1)
  clear_value d2
  split
  · next n hn => exact h2.trans (icuRaise_changesIn d2 p (hc n hn))
  · exact h2

/-- Raising a code adds a record to the plane and changes nothing of its units. -/
theorem raiseP_pl (q : Plane) : (raiseP p c l d).pl q = (formRec p c.num l d).pl q := by
  have hnote : ∀ e : Dev, (if e.active = p then noteFault c (record c.num c.kind.num wPlane l e) else e).pl q = e.pl q := by
    intro e
    split
    · cases q <;> simp [record, Dev.pl]
    · rfl
  have hicu : ∀ (n : Nat) (e : Dev), (icuRaise p n e).pl q = e.pl q := by intro n e; cases q <;> simp [Dev.pl]
  unfold raiseP
  dsimp only
  split
  · rw [hicu, hnote]
  · exact hnote _

theorem raiseP_ppe (q : Plane) : ((raiseP p c l d).pl q).ppe = (d.pl q).ppe := by
  rw [raiseP_pl]; cases p <;> cases q <;> rfl

@[simp] theorem raiseP_arm (q : Plane) (n : Nat) : (raiseP p c l d).arm q n = d.arm q n := by rw [Dev.arm, raiseP_ppe]; rfl
@[simp] theorem raiseP_aux (q : Plane) (m : Nat) : (raiseP p c l d).aux q m = d.aux q m := by rw [Dev.aux, raiseP_ppe]; rfl
end

/-! ### A unit read back after a change of it -/

section
variable (d : Dev) (p : Plane) (i j : Nat)
@[simp] theorem Dev.arm_updArm (g : ArmSt → ArmSt) : (d.updArm p i g).arm p j = if i = j then g (d.arm p j) else d.arm p j := by
  simp [Dev.arm, Dev.updArm, Dev.updPpe, Dev.updPl]
@[simp] theorem Dev.aux_updAux (g : AuxSt → AuxSt) : (d.updAux p i g).aux p j = if i = j then g (d.aux p j) else d.aux p j := by
  simp [Dev.aux, Dev.updAux, Dev.updPpe, Dev.updPl]
@[simp] theorem Dev.lax_updLax (g : LpeAx → LpeAx) : (d.updLax p i g).lax p j = if i = j then g (d.lax p j) else d.lax p j := by
  simp [Dev.lax, Dev.updLax, Dev.updPl]
@[simp] theorem Dev.arm_wrP (f : Fld) (v : Nat) : (d.wrP p f v i).arm p j = d.arm p j := by simp [Dev.arm, Dev.wrP]
@[simp] theorem Dev.aux_wrP (f : Fld) (v : Nat) : (d.wrP p f v i).aux p j = d.aux p j := by simp [Dev.aux, Dev.wrP]
@[simp] theorem Dev.updArm_rdP (g : ArmSt → ArmSt) (f : Fld) : (d.updArm p i g).rdP p f j = d.rdP p f j := Dev.setPl_rdAt ..
end

/-! ### A change made in both planes -/

/-- What plane `q` finds when both planes change the device, plane A first: plane A the device as it was, plane B its own part of it. -/
def Dev.foundBy (d : Dev) : Plane → Dev → Prop
  | .A, e => e = d
  | .B, e => d.sameIn .B e

section
variable {d e : Dev} {q : Plane}

theorem Dev.foundBy.refl (d : Dev) (q : Plane) : d.foundBy q d := by
  cases q
  · rfl
  · exact Dev.sameIn.refl _ _

theorem Dev.foundBy.sameIn (h : d.foundBy q e) : d.sameIn q e := by
  cases q
  · exact h ▸ .refl _ _
  · exact h

/-- A plane finds every entry of its starred blocks as it was. -/
theorem Dev.foundBy.rdP (h : d.foundBy q e) {f : Fld} (hs : f.blk.starred = true) (i : Nat) : e.rdP q f i = d.rdP q f i := by
  cases q
  · rw [show e = d from h]
  · have hsees : Plane.B.sees (viewBlk (f.key .B i 0)) = true := by simp [Plane.sees, viewBlk_key_B i 0 hs]
    rw [Dev.rdP, Dev.rdAt, Dev.sameIn.regs h _ hsees]
    rfl

theorem Dev.foundBy.rd_toile (h : d.foundBy q e) : e.rd .PAT_STATUS_TOILE = d.rd .PAT_STATUS_TOILE := by
  rw [Dev.rd, Dev.rdAt, h.sameIn.regs _ (by cases q <;> decide)]
  rfl

/-- A change that stays in its plane, made in both, does in each plane what it does there alone. -/
theorem bothPlanes_foundBy {f : Plane → Dev → Dev} (hf : ∀ p (e : Dev), e.changesIn p (f p e)) (d : Dev) (q : Plane) :
    (bothPlanes f d).host = d.host ∧ ∃ e, d.foundBy q e ∧ (f q e).sameIn q (bothPlanes f d) := by
  refine ⟨(hf .B _).host.trans (hf .A d).host, ?_⟩
  cases q
  · exact ⟨d, rfl, (hf .B (f .A d)).other⟩
  · exact ⟨f .A d, (hf .A d).other, .refl _ _⟩
end

/-! ### The delivery of a plane command (R510, R512) -/

section
variable (h : MbxHdr) (d : Dev)

theorem skipHead_sameIn (q : Plane) (u : Bool) : d.sameIn q (skipHead u d) := by
  have hhost : ∀ x : HostSt, d.sameIn q { d with host := x } := fun x => .of_pl rfl (by cases q <;> rfl) (fun _ _ => rfl)
  unfold skipHead
  split
  · split
    · exact .refl _ _
    · split
      · exact (hhost _).trans (Dev.wr_sameIn _ q 0 rfl (by decide) (by decide))
      · exact (hhost _).trans (Dev.wr_sameIn _ q 0 rfl (by decide) (by decide))
  · exact .refl _ _

theorem skipHead_waiting (u : Bool) : (skipHead u d).host.waiting = d.host.waiting := by
  unfold skipHead
  split
  · split
    · rfl
    · split <;> rfl
  · rfl

/-- Taking a command off its ring touches no plane and no reply that waits. -/
theorem passCommand_sameIn (q : Plane) : d.sameIn q (passCommand h d) := by
  have hhost : ∀ x : HostSt, d.sameIn q { d with host := x } := fun x => .of_pl rfl (by cases q <;> rfl) (fun _ _ => rfl)
  have hring : ∀ (x : HostSt) (f : Fld) (v : Nat), f.blk = .hst → f.inside 0 0 →
      d.sameIn q (hostVector 1 (skipHead h.u (({ d with host := x } : Dev).wr f v))) := fun x f v hb hi =>
    (((hhost x).trans (Dev.wr_sameIn _ q v (by rw [hb]; rfl) (by rw [hb]; decide) hi)).trans (skipHead_sameIn _ q _)).trans
      (hostVector_sameIn _ q 1)
  cases hu : h.u
  · simp only [passCommand, hu, Bool.false_eq_true, if_false]
    exact hu ▸ hring _ .HST_CMDB_RP _ rfl (by decide)
  · simp only [passCommand, hu, if_true]
    exact hu ▸ hring _ .HST_CMDU_RP _ rfl (by decide)

theorem passCommand_waiting : (passCommand h d).host.waiting = d.host.waiting := by
  rw [passCommand, hostVector_host, skipHead_waiting]
  cases h.u <;> rfl
end

section
variable {h : MbxHdr} {exe : Dev → Dev × Nat × Nat} {f : Plane → Dev → Dev} {d : Dev} {st ix : Nat}

/-- A delivered plane command is executed and leaves the reply that it answers. -/
theorem mailboxP_delivered (hd : h.deliveredToPlanes d) :
    h.answers (exe d).2.1 (exe d).2.2 (exe d).1.host.waiting (mailboxP h true exe d).host.waiting ∧
      ∀ q, (exe d).1.sameIn q (mailboxP h true exe d) := by
  obtain ⟨⟨hreads, hcheck⟩, hcnt, hbytes⟩ := hd
  have hroom : ¬(!true || decide (64 ≤ d.host.deliverCnt) || decide (32768 < d.host.deliverBytes + h.len)) = true := by
    simp only [Bool.not_true, Bool.false_or, Bool.or_eq_true, decide_eq_true_eq]
    omega
  unfold mailboxP
  rw [hcheck, if_neg (by rw [hreads]; decide)]
  dsimp only
  rw [if_neg hroom]
  refine ⟨⟨mkReply h (exe d).2.1 (exe d).2.2 d, ?_, rfl, rfl, rfl, rfl, rfl⟩, fun q => ?_⟩
  · exact congrArg (· ++ _) (passCommand_waiting h (exe d).1)
  · exact (passCommand_sameIn h _ q).trans (.of_pl rfl (by cases q <;> rfl) (fun _ _ => rfl))

/-- A delivered plane command whose execution is a change in both planes: its reply, and what it does in a plane. -/
theorem mailboxP_both (hd : h.deliveredToPlanes d) (hexe : exe d = (bothPlanes f d, st, ix)) (hf : ∀ p (e : Dev), e.changesIn p (f p e))
    (q : Plane) : h.answers st ix d.host.waiting (mailboxP h true exe d).host.waiting ∧
      ∃ e, d.foundBy q e ∧ (f q e).sameIn q (mailboxP h true exe d) := by
  obtain ⟨ha, hs⟩ := mailboxP_delivered (exe := exe) hd
  obtain ⟨hhost, e, he, hq⟩ := bothPlanes_foundBy hf d q
  rw [hexe] at ha hs
  exact ⟨hhost ▸ ha, e, he, hq.trans (hs q)⟩

/-- A row that delivers such a command answers, and leaves what each plane makes of what it finds. -/
theorem RunsDev.of_mailboxP {i : Instr} {s : State} {post : Dev → Prop} (q : Plane) (hi : exec i s = doDev (mailboxP h true exe) s)
    (hd : h.deliveredToPlanes s.part.dev) (hexe : exe s.part.dev = (bothPlanes f s.part.dev, st, ix))
    (hf : ∀ p (e : Dev), e.changesIn p (f p e)) (hp : ∀ e d, s.part.dev.foundBy q e → (f q e).sameIn q d → post d) :
    RunsDev i s (fun d => h.answers st ix s.part.dev.host.waiting d.host.waiting ∧ post d) := by
  obtain ⟨ha, e, he, hq⟩ := mailboxP_both hd hexe hf q
  exact RunsDev.of_doDev hi ⟨ha, hp e _ he hq⟩
end

theorem RunsDev.mono {i : Instr} {s : State} {post post' : Dev → Prop} (h : RunsDev i s post) (hp : ∀ d, post d → post' d) :
    RunsDev i s post' := by
  obtain ⟨q, hq, hm, hd⟩ := h
  exact ⟨q, hq, hm, hp _ hd⟩

/-! ### A register write in a plane (R21, R280) -/

/-- A write that acts now changes plane `q` as it stood. -/
theorem writeBy_acts {who : Actor} {b : Blk} {off w : Nat} {f : Plane → Dev → Dev} {d : Dev} {q : Plane}
    (hf : ∀ p (e : Dev), e.changesIn p (f p e)) (hw : who.actsIn d q) :
    ∃ e, d.foundBy q e ∧ (f q e).sameIn q (writeBy who b off w f d) := by
  cases who with
  | host =>
    obtain ⟨-, e, he, hq⟩ := bothPlanes_foundBy hf d q
    have hnot : ¬(decide (d.rd .SYS_PHASE = 5) && d.cyc.running) = true := by
      simpa only [Actor.actsIn, Bool.not_eq_true', Bool.not_eq_true] using hw
    refine ⟨e, he, ?_⟩
    simp only [writeBy]
    rwa [if_neg hnot]
  | core p c =>
    obtain ⟨rfl, hc⟩ : q = p ∧ d.coreActive p c = true := by simpa [Actor.actsIn] using hw
    exact ⟨d, .refl _ _, by rw [writeBy, coreDo, if_pos hc]; exact .refl _ _⟩

/-! ### SEG_APPEND (R73, R75, R155) -/

section
variable {d e : Dev} (h : e.pat = d.pat)
include h

theorem Dev.armSec_congr : e.armSec = d.armSec := by funext n; rw [Dev.armSec, h]; rfl

theorem Dev.armAxes_congr : e.armAxes = d.armAxes := by funext n; rw [Dev.armAxes, Dev.armSec_congr h]; rfl

theorem Dev.axLim_congr : e.axLim = d.axLim := by funext a; rw [Dev.axLim, h]; rfl

/-- Which records are good depends on the Pattern alone. -/
theorem goodPrefix_congr (n : Nat) (l : List Seg) (i : Nat) : goodPrefix e n l i = goodPrefix d n l i := by
  have hok : ∀ g, segOk e n g = segOk d n g := fun g => by
    rw [segOk, Dev.armAxes_congr h, Dev.axLim_congr h]; rfl
  induction l generalizing i with
  | nil => rfl
  | cons g t ih => simp only [goodPrefix, hok, ih]
end

theorem showLevel_changesIn (p : Plane) {n : Nat} (hn : n < 8) (d : Dev) : d.changesIn p (showLevel p n d) :=
  d.wrP_changesIn p _ rfl ⟨by simp only [Fld.PPE_ARM_STAT_QLEVEL]; omega, by decide⟩

theorem appendSegs_changesIn (p : Plane) {n : Nat} (hn : n < 8) (recs : List (List Nat)) (d : Dev) :
    d.changesIn p (appendSegs p n recs d) := by
  unfold appendSegs
  extract_lets r d1
  have h1 : d.changesIn p d1 := (d.updArm_changesIn p n _).trans (showLevel_changesIn p hn _)
  split
  · exact h1.trans (raiseP_changesIn d1 p _ _ (by decide))
  · exact h1

theorem appendSegs_queue (p : Plane) (n : Nat) (recs : List (List Nat)) (d : Dev) :
    ((appendSegs p n recs d).arm p n).q =
      (d.arm p n).q ++ (goodPrefix d n (recs.map (Seg.ofWords (d.armSec n).joints)) 0).1 := by
  unfold appendSegs
  extract_lets r d1
  have h1 : (d1.arm p n).q = (d.arm p n).q ++ r.1 := by
    show ((showLevel p n _).arm p n).q = _
    simp [showLevel]
  split
  · rw [raiseP_arm, h1]
  · exact h1

theorem segAppend_carrier {d : Dev} {n : Nat} (h : d.notCarrier d.active n = false) (recs : List (List Nat)) :
    let r := (goodPrefix d n (recs.map (Seg.ofWords (d.armSec n).joints)) 0).2
    segAppend n recs d =
      (bothPlanes (fun p => appendSegs p n recs) d, if r.isSome then Code.SEG_REFUSED.num else 0, r.getD 0) := by
  simp [segAppend, h]

theorem segAppend_notCarrier {d : Dev} {n : Nat} (h : d.notCarrier d.active n = true) (recs : List (List Nat)) :
    segAppend n recs d = (bothPlanes (fun p => raiseP p .COUPLE_REFUSED [n]) d, Code.COUPLE_REFUSED.num, 0) := by
  simp [segAppend, h]

/-! ### Auxiliary axes (R97, R109 to R111) -/

theorem axPosLost_inside {m : Nat} (hm : m < 64) : Fld.PPE_AX_STAT_POS_LOST.inside m 0 :=
  ⟨by simp only [Fld.PPE_AX_STAT_POS_LOST]; omega, by decide⟩

theorem axParked_inside {m : Nat} (hm : m < 64) : Fld.PPE_AX_STAT_PARKED.inside m 0 :=
  ⟨by simp only [Fld.PPE_AX_STAT_PARKED]; omega, by decide⟩

/-- What AXIS_SETPOS does in a plane, at axis `64 + m`. -/
def setposPlane (m : Nat) (pos : Int) (p : Plane) (d : Dev) : Dev :=
  ((d.updAux p (64 + m) (fun x => { x with setPos := some pos })).wrP p .PPE_AX_STAT_POS_LOST 0 m).wrP p .PPE_AX_STAT_PARKED 0 m

section
variable (p : Plane) (d : Dev) {m : Nat}

theorem auxMovePlane_changesIn (hm : m < 64) (mv : Move) : d.changesIn p (auxMovePlane p (64 + m) mv d) := by
  unfold auxMovePlane
  extract_lets d1
  have h1 : d.changesIn p d1 := d.updAux_changesIn p _ _
  split
  · rw [Nat.add_sub_cancel_left]
    exact h1.trans (d1.wrP_changesIn p 0 rfl (axParked_inside hm))
  · exact h1

theorem auxMovePlane_newMove (m : Nat) (mv : Move) :
    ((auxMovePlane p m mv d).aux p m).newMove = some (afterPending (d.aux p m).newMove mv) := by
  unfold auxMovePlane
  extract_lets d1
  split
  · simp [d1]
  · simp [d1]

theorem setposPlane_changesIn (hm : m < 64) (pos : Int) : d.changesIn p (setposPlane m pos p d) :=
  ((d.updAux_changesIn p _ _).trans (Dev.wrP_changesIn _ p 0 rfl (axPosLost_inside hm))).trans
    (Dev.wrP_changesIn _ p 0 rfl (axParked_inside hm))

theorem setposPlane_setPos (m : Nat) (pos : Int) : ((setposPlane m pos p d).aux p (64 + m)).setPos = some pos := by
  simp [setposPlane]

theorem setposPlane_posLost (m : Nat) (pos : Int) : (setposPlane m pos p d).rdP p .PPE_AX_STAT_POS_LOST m = 0 := by
  have hk : Fld.PPE_AX_STAT_PARKED.key p m 0 ≠ Fld.PPE_AX_STAT_POS_LOST.key p m 0 := by
    simp only [Fld.key, Fld.word, Fld.PPE_AX_STAT_PARKED, Fld.PPE_AX_STAT_POS_LOST]
    omega
  exact (Dev.rdAt_wrAt_ne _ _ hk).trans (Dev.rdAt_wrAt_same _ _ _ _ _ _)
end

section
variable {d : Dev} {m : Nat}

theorem auxMove_taken {mv : Move} (hmv : moveOk mv = true) (h : d.rdP d.active .PPE_AX_STAT_POS_LOST m ≠ 1) :
    auxMove (64 + m) mv d = (bothPlanes (fun p => auxMovePlane p (64 + m) mv) d, 0, 0) := by
  simp [auxMove, hmv, h]

theorem auxMove_refused (d : Dev) (m : Nat) {mv : Move} (hmv : moveOk mv = false) :
    auxMove m mv d = (bothPlanes (fun p => raiseP p .SEG_REFUSED [m, 0]) d, Code.SEG_REFUSED.num, 0) := by
  simp [auxMove, hmv]

theorem axisSetpos_taken (hs : (d.auxSec (64 + m)).stepper = true) (h : (d.aux d.active (64 + m)).still = true) (pos : Int) :
    axisSetpos (64 + m) pos d = (bothPlanes (setposPlane m pos) d, 0, 0) := by
  simp only [axisSetpos, hs, h, Nat.add_sub_cancel_left]
  rfl

theorem axisSetpos_moving (hs : (d.auxSec m).stepper = true) (h : (d.aux d.active m).still = false) (pos : Int) :
    axisSetpos m pos d = (d, Code.SETPOS_MOVING.num, 0) := by
  simp [axisSetpos, hs, h]

theorem axisSetpos_notStepper (hs : (d.auxSec m).stepper = false) (pos : Int) :
    axisSetpos m pos d = (d, Code.NOT_STEPPER.num, 0) := by
  simp [axisSetpos, hs]

theorem msPark_taken (hs : (d.auxSec (64 + m)).stepper = true) (ho : (d.auxSec (64 + m)).out = true) :
    msPark (64 + m) d = (bothPlanes (fun p d => d.wrP p .PPE_AX_STAT_PARKED 1 m) d, 0, 0) := by
  simp [msPark, hs, ho]

theorem msPark_notStepper (hs : (d.auxSec m).stepper = false) : msPark m d = (d, Code.NOT_STEPPER.num, 0) := by
  simp [msPark, hs]
end

/-! ### Tables, blocks and loops (R106, R155, R161, R190) -/

theorem msTableLoad_waits (p : Plane) (d : Dev) {t : Nat} (ht : t < 4) (vals : List Nat) :
    Sparse.find ((d.updPpe p (fun x => { x with tablesNew := Sparse.put x.tablesNew (t % 4) (vals.map (mask 16)) })).pl p).ppe.tablesNew t =
      some (vals.map (· % 65536)) := by
  simp only [Dev.updPpe, Dev.updPl, Dev.setPl_same, Sparse.find_put, Nat.mod_eq_of_lt ht, if_true]
  rfl

theorem updBlk_blk (p : Plane) (d : Dev) (b : Nat) (g : BlkSt → BlkSt) :
    ((d.updBlk p b g).pl p).ppe.blks.get b = g ((d.pl p).ppe.blks.get b) := by
  simp [Dev.updBlk, Dev.updPpe, Dev.updPl]

section
variable {d : Dev} {b a : Nat}

theorem coupleCmd_taken {meas : Nat → Int} (h : coupleOk d.active b meas d = true) :
    coupleCmd b meas d = (bothPlanes (fun p d => d.updBlk p b (fun x => { x with want := true })) d, 0, 0) := by
  simp [coupleCmd, h]

theorem coupleCmd_refused {meas : Nat → Int} (h : coupleOk d.active b meas d = false) :
    coupleCmd b meas d = (bothPlanes (fun p => raiseP p .COUPLE_REFUSED [b]) d, Code.COUPLE_REFUSED.num, 0) := by
  simp [coupleCmd, h]

theorem decoupleCmd_taken (h : decoupleOk d.active b d = true) :
    decoupleCmd b d = (bothPlanes (fun p d => d.updBlk p b (fun x => { x with decoup := 1 })) d, 0, 0) := by
  simp [decoupleCmd, h]

theorem decoupleCmd_refused (h : decoupleOk d.active b d = false) :
    decoupleCmd b d = (bothPlanes (fun p => raiseP p .COUPLE_REFUSED [b]) d, Code.COUPLE_REFUSED.num, 0) := by
  simp [decoupleCmd, h]

theorem loopClear_taken (hz : 2 ≤ (d.lax d.active a).zeroFor) (hc : d.rdP d.active .LPE_AX_STAT_STALE_CNT a = 0) :
    loopClear a d = (bothPlanes (fun q d => d.updLax q a (fun x => { x with clearPend := true })) d, 0, 0) := by
  simp [loopClear, Nat.not_lt.mpr hz, hc]

theorem loopClear_moving (hz : (d.lax d.active a).zeroFor < 2) : loopClear a d = (d, Code.CLEAR_MOVING.num, 0) := by
  simp [loopClear, hz]
end

/-! ### The rows of the commands -/

/-- SEG_APPEND with room is delivered as it is read. -/
theorem exec_segAppend (h : MbxHdr) {n : Fin 8} {recs : List (List Nat)} {s : State}
    (hroom : segRoom n recs.length s.part.dev = true) :
    exec (.segAppend h n recs) s = doDev (mailboxP h true (segAppend n recs)) s := by
  have h1 : exec (.segAppend h n recs) s = execSegAppend h n recs s := rfl
  rw [h1]
  simp only [execSegAppend, doDev, Part.onDev, hroom]

/-- COUPLE measures the block on the part as it stands. -/
theorem exec_couple (h : MbxHdr) (b : Fin 4) (s : State) :
    exec (.couple h b) s = doDev (mailboxP h true (coupleCmd b (s.part.dev.meas s.part.dev.active))) s := by
  have h1 : exec (.couple h b) s = execCouple h b s := rfl
  rw [h1]
  simp only [execCouple, doDev, Part.onDev]

section
variable {h : MbxHdr} {s : State} (hd : h.deliveredToPlanes s.part.dev)
include hd

/-- A row that delivers a command which changes nothing answers it and leaves each plane's motion as it is. -/
theorem RunsDev.of_mailboxP_none {i : Instr} {exe : Dev → Dev × Nat × Nat} {st ix : Nat} (q : Plane)
    (hi : exec i s = doDev (mailboxP h true exe) s) (hexe : exe s.part.dev = (s.part.dev, st, ix)) :
    RunsDev i s (fun d => h.answers st ix s.part.dev.host.waiting d.host.waiting ∧ s.part.dev.sameIn q d) :=
  RunsDev.of_mailboxP (f := fun _ d => d) q hi hd hexe (fun _ _ => .refl _ _) (fun _ _ he hq => he.sameIn.trans hq)

/-- A row that delivers a command which raises a fault in both planes. -/
theorem RunsDev.of_mailboxP_raise {i : Instr} {exe : Dev → Dev × Nat × Nat} {st ix : Nat} {c : Code} {l : List Int} (q : Plane)
    (hi : exec i s = doDev (mailboxP h true exe) s) (hc : ∀ n ∈ c.irq, n < 512)
    (hexe : exe s.part.dev = (bothPlanes (fun p => raiseP p c l) s.part.dev, st, ix)) :
    RunsDev i s (fun d => h.answers st ix s.part.dev.host.waiting d.host.waiting ∧
      (∀ n, d.arm q n = s.part.dev.arm q n) ∧ ∀ m, d.aux q m = s.part.dev.aux q m) :=
  RunsDev.of_mailboxP q hi hd hexe (fun p e => raiseP_changesIn e p c l hc) (fun e _ he hq =>
    ⟨fun n => by rw [hq.arm, raiseP_arm, he.sameIn.arm], fun m => by rw [hq.aux, raiseP_aux, he.sameIn.aux]⟩)

theorem segAppend_runs (n : Fin 8) (recs : List (List Nat)) (q : Plane) (hroom : segRoom n recs.length s.part.dev = true) :
    let r := goodPrefix s.part.dev n (recs.map (Seg.ofWords (s.part.dev.armSec n).joints)) 0
    (s.part.dev.notCarrier s.part.dev.active n = false → RunsDev (.segAppend h n recs) s (fun d =>
      h.answers (if r.2.isSome then Code.SEG_REFUSED.num else 0) (r.2.getD 0) s.part.dev.host.waiting d.host.waiting ∧
        (d.arm q n).q = (s.part.dev.arm q n).q ++ r.1)) ∧
    (s.part.dev.notCarrier s.part.dev.active n = true → RunsDev (.segAppend h n recs) s (fun d =>
      h.answers Code.COUPLE_REFUSED.num 0 s.part.dev.host.waiting d.host.waiting ∧ d.arm q n = s.part.dev.arm q n)) := by
  have hi := exec_segAppend h hroom
  refine ⟨fun hc => ?_, fun hc => ?_⟩
  · refine RunsDev.of_mailboxP q hi hd (segAppend_carrier hc recs) (fun p e => appendSegs_changesIn p n.isLt recs e) (fun e d he hq => ?_)
    rw [hq.arm, appendSegs_queue, he.sameIn.arm, Dev.armSec_congr he.sameIn.pat, goodPrefix_congr he.sameIn.pat]
  · exact (RunsDev.of_mailboxP_raise hd q hi (by decide) (segAppend_notCarrier hc recs)).mono (fun d ⟨ha, harm, _⟩ => ⟨ha, harm n⟩)
end

/-- The override written stands in the plane's register. -/
theorem ppeOvr_runs {who : Actor} {q : Plane} {s : State} (i : Fin 24) (v : BitVec 16) (hw : who.actsIn s.part.dev q) :
    RunsDev (.ppeOvr who i v) s (fun d => d.rdP q .PPE_OVR i = v.toNat) := by
  have hin : Fld.PPE_OVR.inside i 0 := ⟨by simp only [Fld.PPE_OVR]; omega, by decide⟩
  obtain ⟨e, -, hq⟩ := writeBy_acts (b := .ppe) (off := 0x40 + 4 * i) (w := v.toNat) (f := fun p d => d.wrP p .PPE_OVR v.toNat i)
    (fun p e => e.wrP_changesIn p _ rfl hin) hw
  refine RunsDev.of_doDev (f := writeBy who .ppe (0x40 + 4 * i) v.toNat (fun p d => d.wrP p .PPE_OVR v.toNat i)) rfl ?_
  rw [hq.rdP_ppe rfl hin]
  exact (Dev.rdAt_wrAt_same _ _ _ _ _ _).trans (Nat.mod_eq_of_lt v.isLt)

/-- Settles O47: each command is taken by a change in both planes, or answered with the code of its refusal. -/
theorem motionCommands : Obligations.MotionCommands := by
  intro h n m b a recs mv vals pos who i v q s
  refine ⟨fun hd => ⟨fun hr => (segAppend_runs hd n recs q hr).1, fun hr => (segAppend_runs hd n recs q hr).2, fun hmv hl => ?_,
    fun hmv => ?_, ?_, fun hs hx => ?_, fun hs hx => ?_, fun hs ho => ?_, fun hs => ⟨?_, ?_⟩, fun hc => ?_, fun hc => ?_, fun hc => ?_,
    fun hc => ?_, fun hz hc => ?_, fun hz => ?_⟩, fun hw => ppeOvr_runs i v hw⟩
  · refine RunsDev.of_mailboxP q rfl hd (auxMove_taken hmv hl) (fun p e => auxMovePlane_changesIn p e m.isLt mv) (fun e d he hq => ?_)
    rw [hq.aux, auxMovePlane_newMove, he.sameIn.aux]
  · exact (RunsDev.of_mailboxP_raise hd q rfl (by decide) (auxMove_refused _ _ hmv)).mono (fun d ⟨ha, _, haux⟩ => ⟨ha, haux _⟩)
  · refine RunsDev.of_mailboxP q rfl hd rfl (fun p e => e.updPpe_changesIn p _) (fun e d he hq => ?_)
    rw [hq.ppe]
    exact msTableLoad_waits q e b.isLt vals
  · refine RunsDev.of_mailboxP q rfl hd (axisSetpos_taken hs hx pos) (fun p e => setposPlane_changesIn p e m.isLt pos)
      (fun e d he hq => ⟨?_, ?_⟩)
    · rw [hq.aux, setposPlane_setPos]
    · rw [hq.rdP_ppe rfl (axPosLost_inside m.isLt), setposPlane_posLost]
  · exact (RunsDev.of_mailboxP_none hd q rfl (axisSetpos_moving hs hx pos)).mono (fun d ⟨ha, hq⟩ => ⟨ha, hq.aux _⟩)
  · refine RunsDev.of_mailboxP q rfl hd (msPark_taken hs ho) (fun p e => e.wrP_changesIn p 1 rfl (axParked_inside m.isLt))
      (fun e d he hq => ?_)
    rw [hq.rdP_ppe rfl (axParked_inside m.isLt)]
    exact Dev.rdAt_wrAt_same _ _ _ _ _ _
  · exact (RunsDev.of_mailboxP_none hd q rfl (msPark_notStepper hs)).mono (fun d ⟨ha, _⟩ => ha)
  · exact (RunsDev.of_mailboxP_none hd q rfl (axisSetpos_notStepper hs pos)).mono (fun d ⟨ha, _⟩ => ha)
  · refine RunsDev.of_mailboxP q (exec_couple h b s) hd (coupleCmd_taken hc) (fun p e => e.updBlk_changesIn p b _) (fun e d he hq => ?_)
    rw [hq.ppe, updBlk_blk]
  · exact (RunsDev.of_mailboxP_raise hd q (exec_couple h b s) (by decide) (coupleCmd_refused hc)).mono (fun d ⟨ha, _⟩ => ha)
  · refine RunsDev.of_mailboxP q rfl hd (decoupleCmd_taken hc) (fun p e => e.updBlk_changesIn p b _) (fun e d he hq => ?_)
    rw [hq.ppe, updBlk_blk]
  · exact (RunsDev.of_mailboxP_raise hd q rfl (by decide) (decoupleCmd_refused hc)).mono (fun d ⟨ha, _⟩ => ha)
  · refine RunsDev.of_mailboxP q rfl hd (loopClear_taken hz hc) (fun p e => e.updLax_changesIn p a _) (fun e d he hq => ?_)
    rw [hq.lax, Dev.lax_updLax, if_pos rfl]
  · exact (RunsDev.of_mailboxP_none hd q rfl (loopClear_moving hz)).mono (fun d ⟨ha, hq⟩ => ⟨ha, hq.lax _⟩)

/-! ### Folds that repeat an idempotent change -/

/-- What a fold leaves of one reading: the step of `k` changes it by `g`, which a repetition does not change again, no other step does. -/
theorem forL_read {σ α β : Type} {l : List α} {f : α → σ → σ} {k : α} (r : σ → β) (g : β → β) (hk : k ∈ l)
    (hstep : ∀ s, r (f k s) = g (r s)) (hother : ∀ x, x ≠ k → ∀ s, r (f x s) = r s) (hg : ∀ b, g (g b) = g b) (s : σ) :
    r (forL l f s) = g (r s) := by
  have hrest : ∀ (t : List α) (s : σ), r (forL t f s) = r s ∨ r (forL t f s) = g (r s) := by
    intro t
    induction t with
    | nil => exact fun s => .inl rfl
    | cons x t ih =>
      intro s
      rw [forL_cons]
      by_cases hx : x = k
      · subst hx
        exact .inr ((ih _).elim (fun h => h.trans (hstep s)) (fun h => by rw [h, hstep, hg]))
      · rw [← hother x hx s]
        exact ih _
  obtain ⟨a, b, rfl⟩ := List.append_of_mem hk
  have hsplit : forL (a ++ k :: b) f s = forL b f (f k (forL a f s)) := by simp only [forL, List.foldl_append, List.foldl_cons]
  have hfirst : g (r (forL a f s)) = g (r s) := (hrest a s).elim (fun h => by rw [h]) (fun h => by rw [h, hg])
  rw [hsplit]
  exact (hrest b _).elim (fun h => by rw [h, hstep, hfirst]) (fun h => by rw [h, hstep, hg, hfirst])

/-! ### The arms of a team (R158) -/

section
variable {d e : Dev} {p q : Plane} {n : Nat}

theorem Dev.armGroup_congr (hpat : e.pat = d.pat) (hregs : ∀ f : Fld, f.blk = .ppe → e.rdP p f n = d.rdP p f n) :
    e.armGroup p n = d.armGroup p n := by
  simp only [Dev.armGroup, Dev.armBlock, Dev.members, hpat, hregs .PPE_ARM_COOP_COUPLED rfl, hregs .PPE_ARM_COOP_BLOCK rfl]

theorem Dev.foundBy.armGroup (h : d.foundBy q e) : e.armGroup q n = d.armGroup q n :=
  Dev.armGroup_congr h.sameIn.pat (fun _ hb => h.rdP (by rw [hb]; rfl) n)

theorem Dev.armGroup_lt {m : Nat} (hn : n < 8) (hm : m ∈ d.armGroup p n) : m < 8 := by
  unfold Dev.armGroup at hm
  split at hm
  · exact List.mem_range.mp (List.mem_filter.mp hm).1
  · exact List.mem_singleton.mp hm ▸ hn
end

/-! ### Stop requests (R90 to R92) -/

theorem strongest_idem (a b : StopCause) : strongest (strongest a b) b = strongest a b := by
  by_cases h : causeRank a < causeRank b
  · simp [strongest, h]
  · simp [strongest, h]

/-- A request filed twice is filed. -/
theorem mergeReq_idem (a : Option StopReq) (r : StopReq) : mergeReq (mergeReq a (some r)) (some r) = mergeReq a (some r) := by
  cases a with
  | none => simp [mergeReq, strongest]
  | some x => simp [mergeReq, strongest_idem]

section
variable (p : Plane) (c : StopCause) (quick : Bool) (d : Dev)

theorem requestStop_request {n k : Nat} (hk : k ∈ d.armGroup p n) :
    ((requestStop p n c quick d).arm p k).request = mergeReq (d.arm p k).request (some (askStop c quick)) :=
  forL_read (fun e => (e.arm p k).request) (mergeReq · (some (askStop c quick))) hk (fun e => by simp) (fun x hx e => by simp [hx])
    (fun b => mergeReq_idem b _) d

theorem requestTarget_group (g : Nat) :
    requestTarget p (0x80 + g) c quick d = forL (d.groupAxes g) (fun m => requestAux p m c quick) d := by
  rw [requestTarget, if_neg (by omega), Nat.add_sub_cancel_left]

theorem requestTarget_groupRequest {g k : Nat} (hk : k ∈ d.groupAxes g) :
    ((requestTarget p (0x80 + g) c quick d).aux p k).request = mergeReq (d.aux p k).request (some (askStop c quick)) := by
  rw [requestTarget_group]
  exact forL_read (f := fun m => requestAux p m c quick) (fun e => (e.aux p k).request) (mergeReq · (some (askStop c quick)))
    hk (fun e => by simp [requestAux]) (fun x hx e => by simp [requestAux, hx]) (fun b => mergeReq_idem b _) d

theorem requestTarget_arm {n : Nat} (hn : n < 8) : requestTarget p n c quick d = requestStop p n c quick d := if_pos (by omega)

theorem requestTarget_changesIn (t : Nat) : d.changesIn p (requestTarget p t c quick d) := by
  unfold requestTarget
  split
  · exact forL_changesIn _ _ (fun m _ e => e.updArm_changesIn p m _)
  · exact forL_changesIn _ _ (fun m _ e => e.updAux_changesIn p m _)

/-- A stop request changes neither the Pattern nor a register. -/
theorem requestStop_regs (n : Nat) : (requestStop p n c quick d).pat = d.pat ∧ (requestStop p n c quick d).regs = d.regs :=
  forL_keeps (fun e : Dev => e.pat = d.pat ∧ e.regs = d.regs) _ _ (fun _ _ _ he =>
    ⟨(Dev.setPl_pat ..).trans he.1, (Dev.setPl_regs ..).trans he.2⟩) ⟨rfl, rfl⟩

theorem requestStop_armGroup (n m : Nat) : (requestStop p n c quick d).armGroup p m = d.armGroup p m :=
  Dev.armGroup_congr (requestStop_regs p c quick d n).1 (fun f _ => Dev.rdAt_congr f p m 0 (requestStop_regs p c quick d n).2)
end

/-! ### RESUME (R93) -/

theorem armGo_inside {n : Nat} (hn : n < 8) : Fld.PPE_ARM_STAT_GO.inside n 0 :=
  ⟨by simp only [Fld.PPE_ARM_STAT_GO]; omega, by decide⟩

theorem armGo_key_ne (p : Plane) {n k : Nat} (h : n ≠ k) : Fld.PPE_ARM_STAT_GO.key p n 0 ≠ Fld.PPE_ARM_STAT_GO.key p k 0 := by
  simp only [Fld.key, Fld.word, Fld.PPE_ARM_STAT_GO]
  omega

section
variable {d e : Dev} {q : Plane} (h : d.foundBy q e) (n : Nat)
include h

theorem Dev.foundBy.armAxes : e.armAxes n = d.armAxes n := by rw [Dev.armAxes_congr h.sameIn.pat]

theorem Dev.foundBy.armState : e.armState q n = d.armState q n := h.rdP rfl n

theorem Dev.foundBy.armHeld : e.armHeld q n = d.armHeld q n := by
  have hax : e.axHeld q = d.axHeld q := funext fun a => by rw [Dev.axHeld, Dev.axSto, h.rdP rfl, h.rd_toile]; rfl
  rw [Dev.armHeld, h.armAxes, hax]
  rfl

theorem Dev.foundBy.matsOfArm : e.matsOfArm n = d.matsOfArm n := by rw [Dev.matsOfArm, h.sameIn.pat]; rfl

theorem Dev.foundBy.staleMat : e.staleMat q n = d.staleMat q n := by
  have hsol : ∀ m, e.rdP q .SLV_MAT_STAT_SOLSTAT m = d.rdP q .SLV_MAT_STAT_SOLSTAT m := h.rdP rfl
  simp only [Dev.staleMat, h.matsOfArm, hsol]

theorem Dev.foundBy.faultCleared : e.faultCleared q n = d.faultCleared q n := by
  have hfault : ∀ a, e.rdP q .LPE_AX_STAT_FAULT a = d.rdP q .LPE_AX_STAT_FAULT a := h.rdP rfl
  have hstarved : ∀ m, e.rdP q .SLV_MAT_STAT_STARVED m = d.rdP q .SLV_MAT_STAT_STARVED m := h.rdP rfl
  simp only [Dev.faultCleared, h.armAxes, h.matsOfArm, hfault, hstarved]

/-- A plane judges RESUME by what it finds as by what there was. -/
theorem Dev.foundBy.resumeStatus : resumeStatus q n e = resumeStatus q n d := by
  rw [Machine.resumeStatus, h.armState, h.sameIn.arm, h.faultCleared, h.armHeld, h.staleMat]
  rfl

theorem Dev.foundBy.abortRefused (hn : n < 8) : abortRefused q n e = abortRefused q n d := by
  simp only [Machine.abortRefused, h.armGroup, h.armState, h.faultCleared, h.sameIn.arm]
  rw [if_pos (by omega), if_pos (by omega)]
end

section
variable (p : Plane) (d : Dev) {n : Nat} (hn : n < 8)

theorem acceptResume_arm (m k : Nat) : (acceptResume p m d).arm p k =
    if m = k then { d.arm p k with resume := true, request := (d.arm p k).request.filter StopReq.stays } else d.arm p k := by
  simp [acceptResume]

theorem acceptResume_go (m k : Nat) :
    (acceptResume p m d).rdP p .PPE_ARM_STAT_GO k = if m = k then 1 else d.rdP p .PPE_ARM_STAT_GO k := by
  split
  · next h => subst h; exact Dev.rdAt_wrAt_same _ _ _ _ _ _
  · next h => exact (Dev.rdAt_wrAt_ne _ _ (armGo_key_ne p h)).trans (Dev.updArm_rdP ..)

include hn

theorem resumeTarget_arm : resumeTarget p n d =
    if (d.armGroup p n).all (fun m => (resumeStatus p m d).1 == 0) then forL (d.armGroup p n) (acceptResume p) d else d :=
  if_pos (by omega)

theorem resumeTarget_changesIn : d.changesIn p (resumeTarget p n d) := by
  rw [resumeTarget_arm p d hn]
  split
  · exact forL_changesIn _ _ (fun m hm e =>
      (e.updArm_changesIn p m _).trans (Dev.wrP_changesIn _ p 1 rfl (armGo_inside (Dev.armGroup_lt hn hm))))
  · exact .refl _ _

/-- An accepted RESUME sets GO of every arm of the team and withdraws its requests of STOP and QSTOP. -/
theorem resumeTarget_accepted (hall : ∀ m ∈ d.armGroup p n, (resumeStatus p m d).1 = 0) {k : Nat} (hk : k ∈ d.armGroup p n) :
    ((resumeTarget p n d).arm p k).resume = true ∧
      ((resumeTarget p n d).arm p k).request = (d.arm p k).request.filter StopReq.stays ∧
      (resumeTarget p n d).rdP p .PPE_ARM_STAT_GO k = 1 := by
  rw [resumeTarget_arm p d hn, if_pos (by simpa using hall)]
  have harm := forL_read (f := acceptResume p) (fun e => e.arm p k)
    (fun a => { a with resume := true, request := a.request.filter StopReq.stays }) hk (fun e => by simp [acceptResume_arm])
    (fun x hx e => by simp [acceptResume_arm, hx]) (fun a => by simp [Option.filter_filter]) d
  have hgo := forL_read (f := acceptResume p) (fun e => e.rdP p .PPE_ARM_STAT_GO k) (fun _ => 1) hk
    (fun e => by simp [acceptResume_go]) (fun x hx e => by simp [acceptResume_go, hx]) (fun _ => rfl) d
  exact ⟨by rw [harm], by rw [harm], hgo⟩

theorem resumeTarget_refused (hteam : d.armGroup p n = [n]) (hs : (resumeStatus p n d).1 ≠ 0) : resumeTarget p n d = d := by
  rw [resumeTarget_arm p d hn, hteam, if_neg (by simp [hs])]

/-- An arm alone is answered its own status. -/
theorem resumeReply_alone (hteam : d.armGroup p n = [n]) : resumeReply p n d = resumeStatus p n d := by
  rw [resumeReply, if_pos (by omega), hteam]
  rfl
end

/-! ### ABORT (R91, R93) -/

section
variable (p : Plane) (d : Dev) {n : Nat}

theorem abortTarget_refused {t : Nat} (h : abortRefused p t d = true) : abortTarget p t d = d := if_pos h

theorem abortTarget_accepted (hn : n < 8) (h : abortRefused p n d = false) : abortTarget p n d =
    forL (d.armGroup p n) (fun m d => d.wrP p .PPE_ARM_STAT_GO 0 m) (requestStop p n .abort false d) := by
  unfold abortTarget
  rw [if_neg (by rw [h]; decide), requestTarget_arm p _ _ d hn]
  dsimp only
  rw [if_pos (by omega), requestStop_armGroup]

theorem abortTarget_changesIn (hn : n < 8) : d.changesIn p (abortTarget p n d) := by
  cases h : abortRefused p n d
  · rw [abortTarget_accepted p d hn h, ← requestTarget_arm p _ _ d hn]
    exact (requestTarget_changesIn p _ _ d n).trans (forL_changesIn _ _ (fun m hm e =>
      e.wrP_changesIn p 0 rfl (armGo_inside (Dev.armGroup_lt hn hm))))
  · rw [abortTarget_refused p d h]
    exact .refl _ _

/-- An accepted ABORT files its request and clears GO of every arm of the team. -/
theorem abortTarget_files (hn : n < 8) (h : abortRefused p n d = false) {k : Nat} (hk : k ∈ d.armGroup p n) :
    ((abortTarget p n d).arm p k).request = mergeReq (d.arm p k).request (some (askStop .abort false)) ∧
      (abortTarget p n d).rdP p .PPE_ARM_STAT_GO k = 0 := by
  rw [abortTarget_accepted p d hn h]
  refine ⟨?_, forL_read (f := fun m (d : Dev) => d.wrP p .PPE_ARM_STAT_GO 0 m) (fun e => e.rdP p .PPE_ARM_STAT_GO k) (fun _ => 0) hk
    (fun e => Dev.rdAt_wrAt_same _ _ _ _ _ _) (fun x hx e => Dev.rdAt_wrAt_ne _ _ (armGo_key_ne p hx)) (fun _ => rfl) _⟩
  have harm := forL_keeps (fun e : Dev => e.arm p k = (requestStop p n .abort false d).arm p k) (d.armGroup p n)
    (fun m d => d.wrP p .PPE_ARM_STAT_GO 0 m) (fun m _ e he => (Dev.arm_wrP ..).trans he) rfl
  rw [harm, requestStop_request p _ _ d hk]
end

/-! ### The rows of the stops -/

section
variable {i : Instr} {s : State} {t bits : Nat} {f : Plane → Dev → Dev} {reply : Dev → Nat × Nat} {q : Plane} {post : Dev → Prop}

/-- A motion command that the mailbox delivers. -/
theorem RunsDev.of_motionMbx {h : MbxHdr} (hi : exec i s = doDev (motionCommand (.mbx h) t bits f reply) s)
    (hd : h.deliveredToPlanes s.part.dev) (hf : ∀ p (e : Dev), e.changesIn p (f p e))
    (hp : ∀ e d, s.part.dev.foundBy q e → (f q e).sameIn q d → post d) : RunsDev i s (fun d =>
      h.answers (reply s.part.dev).1 (reply s.part.dev).2 s.part.dev.host.waiting d.host.waiting ∧ post d) :=
  RunsDev.of_mailboxP (exe := fun d => (bothPlanes f d, (reply d).1, (reply d).2)) q hi hd rfl hf hp

/-- A motion command by an arm's register. -/
theorem RunsDev.of_motionReg {who : Actor} (hi : exec i s = doDev (motionCommand (.reg who) t bits f reply) s) (ht : t < 8)
    (hw : who.actsIn s.part.dev q) (hf : ∀ p (e : Dev), e.changesIn p (f p e))
    (hp : ∀ e d, s.part.dev.foundBy q e → (f q e).sameIn q d → post d) : RunsDev i s post := by
  obtain ⟨e, he, hq⟩ := writeBy_acts (b := .ppe) (off := 0x100 + 32 * t) (w := bits) hf hw
  refine RunsDev.of_doDev hi (hp e _ he ?_)
  simp only [motionCommand]
  rwa [if_pos ht]
end

section
variable (via : Via) {t : Fin 24} {c : Nat} (hc : targetCode t = c) (s : State)
include hc

theorem exec_stop : exec (.stop via t) s =
    doDev (motionCommand via t 0x1 (fun p => requestTarget p c .stop false) (fun _ => (0, 0))) s := by subst hc; rfl

theorem exec_qstop : exec (.qstop via t) s =
    doDev (motionCommand via t 0x2 (fun p => requestTarget p c .qstop true) (fun _ => (0, 0))) s := by subst hc; rfl

theorem exec_resume : exec (.resume via t) s =
    doDev (motionCommand via t 0x4 (fun p => resumeTarget p c) (fun d => resumeReply d.active c d)) s := by subst hc; rfl

theorem exec_abort : exec (.abort via t) s =
    doDev (motionCommand via t 0x8 (fun p => abortTarget p c) (abortReply c)) s := by subst hc; rfl
end

theorem targetCode_arm (n : Fin 8) : targetCode (n.castLE (by decide) : Fin 24) = n := if_pos n.isLt

theorem targetCode_group (g : Fin 16) : targetCode (⟨8 + g, by omega⟩ : Fin 24) = 0x80 + g := by
  rw [targetCode, if_neg (by simp)]
  exact congrArg (0x80 + ·) (Nat.add_sub_cancel_left 8 g)

/-! What each command leaves of the team that its plane finds. -/

section
variable {d0 e d : Dev} {q : Plane} (he : d0.foundBy q e)
include he

theorem requested_arm {n k : Nat} (hn : n < 8) {c : StopCause} {quick : Bool} (hq : (requestTarget q n c quick e).sameIn q d)
    (hk : k ∈ d0.armGroup q n) : (d.arm q k).request = mergeReq (d0.arm q k).request (some (askStop c quick)) := by
  rw [requestTarget_arm q _ _ e hn] at hq
  rw [hq.arm, requestStop_request q _ _ e (he.armGroup ▸ hk), he.sameIn.arm]

theorem requested_group {g k : Nat} {c : StopCause} {quick : Bool} (hq : (requestTarget q (0x80 + g) c quick e).sameIn q d)
    (hk : k ∈ d0.groupAxes g) : (d.aux q k).request = mergeReq (d0.aux q k).request (some (askStop c quick)) := by
  have hg : e.groupAxes g = d0.groupAxes g := by rw [Dev.groupAxes, he.sameIn.pat]; rfl
  rw [hq.aux, requestTarget_groupRequest q _ _ e (hg ▸ hk), he.sameIn.aux]

theorem resumed_arm {n k : Nat} (hn : n < 8) (hall : ∀ m ∈ d0.armGroup q n, (resumeStatus q m d0).1 = 0)
    (hq : (resumeTarget q n e).sameIn q d) (hk : k ∈ d0.armGroup q n) :
    (d.arm q k).resume = true ∧ (d.arm q k).request = (d0.arm q k).request.filter StopReq.stays ∧ d.rdP q .PPE_ARM_STAT_GO k = 1 := by
  have hall' : ∀ m ∈ e.armGroup q n, (resumeStatus q m e).1 = 0 := fun m hm => by
    rw [he.resumeStatus]
    exact hall m (he.armGroup ▸ hm)
  rw [hq.arm, hq.rdP_ppe rfl (armGo_inside (Dev.armGroup_lt hn hk)), ← he.sameIn.arm]
  exact resumeTarget_accepted q e hn hall' (he.armGroup ▸ hk)

theorem resume_refused {n : Nat} (hn : n < 8) (hteam : d0.armGroup q n = [n]) (hs : (resumeStatus q n d0).1 ≠ 0)
    (hq : (resumeTarget q n e).sameIn q d) : d.arm q n = d0.arm q n := by
  rw [resumeTarget_refused q e hn (he.armGroup.trans hteam) (he.resumeStatus n ▸ hs)] at hq
  rw [hq.arm, he.sameIn.arm]

theorem aborted_arm {n k : Nat} (hn : n < 8) (hr : abortRefused q n d0 = false) (hq : (abortTarget q n e).sameIn q d)
    (hk : k ∈ d0.armGroup q n) :
    (d.arm q k).request = mergeReq (d0.arm q k).request (some (askStop .abort false)) ∧ d.rdP q .PPE_ARM_STAT_GO k = 0 := by
  rw [hq.arm, hq.rdP_ppe rfl (armGo_inside (Dev.armGroup_lt hn hk)), ← he.sameIn.arm]
  exact abortTarget_files q e hn ((he.abortRefused n hn).trans hr) (he.armGroup ▸ hk)

theorem abort_refused {n : Nat} (hn : n < 8) (hr : abortRefused q n d0 = true) (hq : (abortTarget q n e).sameIn q d) (k : Nat) :
    d.arm q k = d0.arm q k := by
  rw [abortTarget_refused q e ((he.abortRefused n hn).trans hr)] at hq
  rw [hq.arm, he.sameIn.arm]
end

/-- Settles O48: every command is a change in both planes, which in each does what its lemma says of the team that the plane finds. -/
theorem motionStops : Obligations.MotionStops := by
  intro h who n g q k s
  have hn := n.isLt
  have harm := targetCode_arm n
  have hgroup := targetCode_group g
  have hreq : ∀ (t : Nat) (c : StopCause) (quick : Bool) (p : Plane) (e : Dev), e.changesIn p (requestTarget p t c quick e) :=
    fun t c quick p e => requestTarget_changesIn p c quick e t
  have hres : ∀ (p : Plane) (e : Dev), e.changesIn p (resumeTarget p n e) := fun p e => resumeTarget_changesIn p e hn
  have habt : ∀ (p : Plane) (e : Dev), e.changesIn p (abortTarget p n e) := fun p e => abortTarget_changesIn p e hn
  refine ⟨fun hd => ⟨?_, ?_, ?_, ?_, fun hall => ?_, fun hteam ha hs => ?_, fun hr => ?_, fun hr ha => ?_⟩,
    fun hw => ⟨?_, ?_, fun hall => ?_, fun hr => ?_⟩, ?_⟩
  · exact RunsDev.of_motionMbx (exec_stop _ harm s) hd (hreq _ _ _) (fun e d he hq => requested_arm he hn hq)
  · exact RunsDev.of_motionMbx (exec_qstop _ harm s) hd (hreq _ _ _) (fun e d he hq => requested_arm he hn hq)
  · exact RunsDev.of_motionMbx (exec_stop _ hgroup s) hd (hreq _ _ _) (fun e d he hq => requested_group he hq)
  · exact RunsDev.of_motionMbx (exec_qstop _ hgroup s) hd (hreq _ _ _) (fun e d he hq => requested_group he hq)
  · exact (RunsDev.of_motionMbx (exec_resume _ harm s) hd hres (fun e d he hq => resumed_arm he hn hall hq)).mono (fun d ⟨_, hp⟩ => hp)
  · have hreply : resumeReply s.part.dev.active n s.part.dev = resumeStatus q n s.part.dev := by
      rw [ha, resumeReply_alone _ _ hn hteam]
    refine (RunsDev.of_motionMbx (exec_resume _ harm s) hd hres (fun e d he hq => resume_refused he hn hteam hs hq)).mono
      (fun d ⟨hans, hp⟩ => ⟨?_, hp⟩)
    rwa [hreply] at hans
  · exact (RunsDev.of_motionMbx (exec_abort _ harm s) hd habt (fun e d he hq => aborted_arm he hn hr hq)).mono
      (fun d ⟨_, hp⟩ => ⟨fun hk => (hp hk).1, fun hk => (hp hk).2⟩)
  · have hreply : abortReply n s.part.dev = (Code.ABORT_FAULT.num, 0) := by rw [abortReply, ha, if_pos hr]
    refine (RunsDev.of_motionMbx (exec_abort _ harm s) hd habt (fun e d he hq => abort_refused he hn hr hq k)).mono
      (fun d ⟨hans, hp⟩ => ⟨?_, hp⟩)
    rwa [hreply] at hans
  · exact RunsDev.of_motionReg (exec_stop _ harm s) hn hw (hreq _ _ _) (fun e d he hq => requested_arm he hn hq)
  · exact RunsDev.of_motionReg (exec_qstop _ harm s) hn hw (hreq _ _ _) (fun e d he hq => requested_arm he hn hq)
  · exact RunsDev.of_motionReg (exec_resume _ harm s) hn hw hres (fun e d he hq => resumed_arm he hn hall hq)
  · exact (RunsDev.of_motionReg (exec_abort _ harm s) hn hw habt (fun e d he hq => aborted_arm he hn hr hq)).mono
      (fun d hp => ⟨fun hk => (hp hk).1, fun hk => (hp hk).2⟩)
  · exact RunsDev.of_doDev (exec_stop _ rfl s) (if_neg (by simp))

end Sys2Proof.Machine
end

section
/-! PROOFS of the family 04_solver: the ways of a delta record into the queue, and the done signal of a PPE whose record waits. -/

namespace Sys2Proof.Machine

/-! ### The solver of a plane -/

section
variable (d : Dev) (p q : Plane)

@[simp] theorem Dev.slv_updSlv (g : SlvSt → SlvSt) : (d.updSlv p g).slv p = g (d.slv p) := by simp [Dev.updSlv, Dev.slv, Dev.updPl]

@[simp] theorem Dev.updSlv_pl_other (g : SlvSt → SlvSt) : (d.updSlv p g).pl p.other = d.pl p.other := by simp [Dev.updSlv, Dev.updPl]

@[simp] theorem Dev.updSlv_regs (g : SlvSt → SlvSt) : (d.updSlv p g).regs = d.regs := by simp [Dev.updSlv, Dev.updPl]

@[simp] theorem Dev.updSlv_pat (g : SlvSt → SlvSt) : (d.updSlv p g).pat = d.pat := by simp [Dev.updSlv, Dev.updPl]

/-- A change of the solver in both planes is made in each. -/
theorem bothPlanes_updSlv_slv (g : SlvSt → SlvSt) : (bothPlanes (fun p d => d.updSlv p g) d).slv q = g (d.slv q) := by cases q <;> rfl

@[simp] theorem showDeltas_pl : (showDeltas p d).pl q = d.pl q := Dev.wrAt_pl ..

@[simp] theorem showDeltas_slv : (showDeltas p d).slv q = d.slv q := congrArg PlaneDev.slv (showDeltas_pl d p q)

@[simp] theorem raiseP_slv (c : Code) (l : List Int) : (raiseP p c l d).slv q = d.slv q := by
  rw [Dev.slv, raiseP_pl]
  cases p <;> cases q <;> rfl
end

/-! ### A record that finds room, or waits (R122, R123) -/

section
variable {d : Dev} {p : Plane} {prod : Nat} {x : Delta}

/-- Which entry a record names depends on the Pattern alone. -/
theorem deltaEntry_congr {e : Dev} (h : e.pat = d.pat) : deltaEntry e prod x = deltaEntry d prod x := by
  rw [deltaEntry, Dev.matDesc, h]
  rfl

/-- A record that names an entry of its producer is added to the queue. -/
theorem enqueueDelta_named (h : deltaEntry d prod x ≠ none) :
    enqueueDelta p prod x d = showDeltas p (d.updSlv p (fun s => { s with q := s.q ++ [(prod, x)] })) := by
  obtain ⟨i, hi⟩ := Option.ne_none_iff_exists'.mp h
  rw [enqueueDelta, hi]

/-- A record that names no entry of its producer leaves the solver as it is. -/
theorem enqueueDelta_unnamed (h : deltaEntry d prod x = none) : (enqueueDelta p prod x d).slv p = d.slv p := by
  rw [enqueueDelta, h]
  exact raiseP_slv ..

variable {w : Nat}

/-- No record of writer `w` waits. -/
theorem notWaiting_iff : (d.slv p).stalled.any (fun y => y.core == w) = false ↔ ∀ z ∈ (d.slv p).stalled, z.core ≠ w := by
  simp [List.any_eq_false]

theorem pushDelta_room (hroom : d.deltaRoom p = true) (hw : ∀ z ∈ (d.slv p).stalled, z.core ≠ w) :
    pushDelta p w prod x d = enqueueDelta p prod x d := by
  rw [pushDelta, hroom, notWaiting_iff.mpr hw]
  rfl

theorem pushDelta_full (hroom : d.deltaRoom p = false) :
    pushDelta p w prod x d = d.updSlv p (fun s => { s with stalled := s.stalled ++ [⟨w, prod, x⟩] }) := by
  rw [pushDelta, hroom]
  rfl

/-- A record of a writer whose own records wait lines up behind them. -/
theorem pushDelta_behind (hw : (d.slv p).stalled.any (fun y => y.core == w) = true) :
    pushDelta p w prod x d = d.updSlv p (fun s => { s with stalled := s.stalled ++ [⟨w, prod, x⟩] }) := by
  rw [pushDelta, hw, Bool.not_true, Bool.and_false]
  rfl

/-- A record of the host that is within the 64 of its cycle is held in both planes (R124). -/
theorem hostDelta_held (h : (d.slv .A).hostCnt < 64) (q : Plane) : ((hostDelta x d).slv q).hostHeld = (d.slv q).hostHeld ++ [x] := by
  rw [hostDelta, if_pos h, bothPlanes_updSlv_slv]

/-- The oldest record that waits enters once there is room. -/
theorem deltaStallEnd_room {y : StalledDelta} {t : List StalledDelta} (hs : (d.slv p).stalled = y :: t) (hy : y.core ≠ 10)
    (hroom : d.deltaRoom p = true) :
    deltaStallEnd p d = enqueueDelta p y.producer y.delta (d.updSlv p (fun s => { s with stalled := t })) := by
  rw [deltaStallEnd, hs]
  simp only [hroom, hy, if_true, if_false]

theorem deltaStallEnd_none (hs : (d.slv p).stalled = []) : deltaStallEnd p d = d := by rw [deltaStallEnd, hs]
end

/-! ### A write of a window's HI word (R20, R123, R124) -/

section
variable (c : Option Nat) (p : Plane) {n : Nat} (hi : Nat)

/-- A write of HI of window `n` gives its record; that of the host's window gives it once, in plane A's turn. -/
theorem slvWrite_deltaHi (hn : n < 12) (d : Dev) :
    slvWrite c p (0x104 + 8 * n) hi d = if n = 11 && c.isNone && p == .B then d else deltaHi p c n hi d := by
  have hcut : ¬0x104 + 8 * n = 0xC := by omega
  have hwin : (decide (0x100 ≤ 0x104 + 8 * n) && decide (0x104 + 8 * n < 0x160)) = true := by
    simp only [Bool.and_eq_true, decide_eq_true_eq]
    omega
  have hlo : ¬(0x104 + 8 * n - 0x100) % 8 = 0 := by omega
  have hidx : (0x104 + 8 * n - 0x100) / 8 = n := by omega
  unfold slvWrite
  rw [if_neg hcut, if_pos hwin]
  dsimp only
  rw [if_neg hlo, hidx]

theorem writeWord_slv {off : Nat} (hoff : off ≠ 4) (w : Nat) (s : Part) : writeWord c p .slv off w s = s.onDev (slvWrite c p off w) := by
  have happly : ¬(decide (off = 4) && stagedBlks.contains .slv) = true := by rw [decide_eq_false hoff]; decide
  unfold writeWord
  rw [if_neg happly]

end

/-- The HI word of a core's own window, written by the core. -/
theorem RunsDev.of_slvDeltaHi_core {p : Plane} {c : Fin 10} {hi : Word} {s : State} {post : Dev → Prop}
    (hc : s.part.dev.coreActive p c = true)
    (hp : post (pushDelta p c c (Delta.ofWords ((s.part.dev.slv p).lo.get c) hi.toNat) s.part.dev)) :
    RunsDev (.slvDeltaHi (.core p c) (c.castLE (by decide)) hi) s post := by
  have hhi : deltaHi p (some c.val) c hi.toNat s.part.dev =
      pushDelta p c c (Delta.ofWords ((s.part.dev.slv p).lo.get c) hi.toNat) s.part.dev := if_pos c.isLt
  refine RunsDev.of_doPart (f := regWrite (.core p c) .slv (0x104 + 8 * c.val) hi.toNat) rfl ?_ hp
  rw [regWrite, coreDoP, if_pos hc, writeWord_slv _ _ (by omega), Part.onDev, slvWrite_deltaHi _ _ _ (by omega), if_neg (by simp)]
  exact congrArg (fun d => ({ s.part with dev := d } : Part)) hhi

/-- The HI word of the host's window, written by the host while no write is held. -/
theorem RunsDev.of_slvDeltaHi_host {hi : Word} {s : State} {post : Dev → Prop}
    (hn : ¬(s.part.dev.rd .SYS_PHASE = 5 ∧ s.part.dev.cyc.running = true))
    (hp : post (hostDelta (Delta.ofWords ((s.part.dev.slv .A).lo.get 11) hi.toNat) s.part.dev)) :
    RunsDev (.slvDeltaHi .host 11 hi) s post := by
  refine RunsDev.of_doPart (f := regWrite .host .slv (0x104 + 8 * 11) hi.toNat) rfl ?_ hp
  rw [regWrite, hostWord_starred _ _ _ rfl hn, writeWord_slv _ _ (by decide), writeWord_slv _ _ (by decide), Part.onDev_onDev,
    Part.onDev, slvWrite_deltaHi none .A _ (by decide), slvWrite_deltaHi none .B _ (by decide)]
  rfl

/-! ### Records of the mailbox (R123, R124) -/

section
variable (h : MbxHdr)

theorem skipHead_pl (u : Bool) (d : Dev) (q : Plane) : (skipHead u d).pl q = d.pl q := by
  unfold skipHead
  split
  · split
    · rfl
    · cases u <;> cases q <;> rfl
  · rfl

/-- Taking a command off its ring leaves the planes as they are. -/
theorem passCommand_pl (d : Dev) (q : Plane) : (passCommand h d).pl q = d.pl q := by
  unfold passCommand
  refine (Dev.wrAt_pl ..).trans ((skipHead_pl ..).trans ?_)
  cases h.u <;> cases q <;> rfl

variable {h}

/-- A delivered plane command leaves the planes as its execution does. -/
theorem mailboxP_delivered_pl {exe : Dev → Dev × Nat × Nat} {d : Dev} (hd : h.deliveredToPlanes d) (q : Plane) :
    (mailboxP h true exe d).pl q = (exe d).1.pl q := by
  obtain ⟨⟨hreads, hcheck⟩, hcnt, hbytes⟩ := hd
  have hroom : ¬(!true || decide (64 ≤ d.host.deliverCnt) || decide (32768 < d.host.deliverBytes + h.len)) = true := by
    simp only [Bool.not_true, Bool.false_or, Bool.or_eq_true, decide_eq_true_eq]
    omega
  unfold mailboxP
  rw [hcheck, if_neg (by rw [hreads]; decide)]
  dsimp only
  rw [if_neg hroom]
  calc _ = (passCommand h (exe d).1).pl q := by cases q <;> rfl
    _ = _ := passCommand_pl h _ q

/-- SLV_DELTA with room for its records: they wait in both planes behind those of the mailbox before them. -/
theorem mailboxP_mailDeltas {l : List Delta} {d : Dev} (hd : h.deliveredToPlanes d) :
    h.answers 0 0 d.host.waiting (mailboxP h true (mailDeltas l) d).host.waiting ∧
      ∀ q, ((mailboxP h true (mailDeltas l) d).slv q).mailHeld = (d.slv q).mailHeld ++ l := by
  obtain ⟨ha, -⟩ := mailboxP_delivered (exe := mailDeltas l) hd
  refine ⟨by simpa [mailDeltas, bothPlanes, Dev.updSlv, Dev.updPl] using ha, fun q => ?_⟩
  rw [Dev.slv, mailboxP_delivered_pl hd]
  exact congrArg SlvSt.mailHeld (bothPlanes_updSlv_slv ..)

/-- SLV_DELTA whose records fit in the queues is a plane command with room. -/
theorem exec_slvDelta {l : List Delta} {s : State} (hfit : deltasFit l.length s.part.dev = true) :
    exec (.slvDelta h l) s = doDev (mailboxP h true (mailDeltas l)) s := by
  have hrow : exec (.slvDelta h l) s = execSlvDelta h l s := rfl
  rw [hrow]
  simp only [execSlvDelta, doDev, Part.onDev, hfit]
end

/-- Settles O45: the core's window by the room of the queue, the host's window, the mailbox, and the end of a stall. -/
theorem solverDeltas : Obligations.SolverDeltas := by
  intro p c hi h l y t s
  refine ⟨fun hc => ⟨fun hroom hw hx => ?_, fun hroom hw hx => ?_, fun hroom => ?_⟩, fun hn hcnt => ?_, fun hd hfit => ?_,
    fun hs hy hroom hx => ?_, fun hs => ?_⟩
  · refine RunsDev.of_slvDeltaHi_core hc ?_
    rw [pushDelta_room hroom hw, enqueueDelta_named hx]
    exact ⟨by simp, by simp⟩
  · refine RunsDev.of_slvDeltaHi_core hc ?_
    rw [pushDelta_room hroom hw]
    exact enqueueDelta_unnamed hx
  · refine RunsDev.of_slvDeltaHi_core hc ?_
    rw [pushDelta_full hroom]
    exact ⟨by simp, by simp⟩
  · exact RunsDev.of_slvDeltaHi_host hn (hostDelta_held hcnt)
  · exact RunsDev.of_doDev (exec_slvDelta hfit) (mailboxP_mailDeltas hd)
  · refine RunsDev.of_doDev (f := deltaStallEnd p) rfl ?_
    rw [deltaStallEnd_room hs hy hroom, enqueueDelta_named (by rwa [deltaEntry_congr (Dev.updSlv_pat ..)])]
    exact ⟨by simp, by simp⟩
  · exact RunsDev.of_doDev (f := deltaStallEnd p) rfl (deltaStallEnd_none hs)

/-! ### The signal of a PPE whose record waits (R123, R126) -/

/-- A record of the PPE waits for room. -/
def Dev.ppeWaits (d : Dev) (p : Plane) : Bool := (d.slv p).stalled.any (fun x => x.core == 10)

/-- `e` has the registers of `d`, and a record of the PPE waits in it. -/
def Dev.ppeWaitsIn (d : Dev) (p : Plane) (e : Dev) : Prop := e.regs = d.regs ∧ e.ppeWaits p = true

section
variable {d : Dev} {p : Plane}

/-- A further record of the PPE changes no register, and the PPE waits on. -/
theorem pushDelta_ppeWaitsIn {e : Dev} (prod : Nat) (x : Delta) (he : d.ppeWaitsIn p e) : d.ppeWaitsIn p (pushDelta p 10 prod x e) := by
  obtain ⟨hregs, hw⟩ := he
  rw [pushDelta_behind hw]
  exact ⟨(Dev.updSlv_regs ..).trans hregs, by simp [Dev.ppeWaits]⟩

/-- While a record of it waits, the PPE signals nothing: no register changes, so that no batch is cut. -/
theorem ppeSignals_ppeWaits (hrun : d.holding = false) (hw : d.ppeWaits p = true) : (ppeSignals p d).regs = d.regs := by
  unfold ppeSignals
  rw [hrun, if_neg (by decide)]
  extract_lets classes d1
  have h1 : d.ppeWaitsIn p d1 :=
    forL_keeps _ _ _ (fun _ _ _ he => forL_keeps _ _ _ (fun _ _ _ he => pushDelta_ppeWaitsIn 10 _ he) he) ⟨rfl, hw⟩
  obtain ⟨hregs, hw1⟩ := h1
  rw [ppeDone, if_pos (by simpa [Dev.ppeWaits] using hw1), Dev.updSlv_regs, hregs]
end

/-- What holds after a command that acts on the device alone holds of the device that it gives. -/
theorem RunsDev.post_of_doDev {i : Instr} {s : State} {f : Dev → Dev} {post : Dev → Prop} (hi : exec i s = doDev f s)
    (h : RunsDev i s post) : post (f s.part.dev) := by
  obtain ⟨q, hq, -, hp⟩ := h
  have hnext : Host.Outcome.next { s with part := s.part.onDev f } = .next { s with part := q } := hi.symm.trans hq
  injection hnext with hpart
  have hdev : f s.part.dev = q.dev := congrArg (fun t : State => t.part.dev) hpart
  exact hdev ▸ hp

/-- Plane A in φ4 of a cycle without a tick cut: the PPE alone feeds the matrix of the cycle batch, the queue is full of records of the
matrix of the tick batch, and the record that the PPE wrote in an earlier cycle, which CUT_MAX cut without it, still waits. -/
def ppeWaiting : State :=
  let d : Dev := {
    pat := { solver := { mats := [(0, { k := 1, map := [10, 10] }), (1, { cls := 1, k := 1, map := [0, 0] })], prods := [[10], [0]] } }
    planeA := { slv := { q := List.replicate 4096 (0, ⟨1, 0, 0, 0, 0, 0⟩), stalled := [⟨10, 10, ⟨0, 0, 0, 0, 0, 0⟩⟩] } } }
  { part := { dev := (d.wr .SYS_PHASE 4).wr .SYS_PHASE_TICK_POS 1 } }

/-- Refutes O46: while a record of the PPE waits for room, the PPE gives no signal (R123, R126), and the cycle batch is not cut though the
PPE is the last declared producer. -/
theorem not_solverBatches : ¬ Obligations.SolverBatches := by
  intro h
  obtain ⟨-, -, hppe, -⟩ := h .A 0 0 {} ppeWaiting
  have hready : ppeWaiting.part.dev.rd .SYS_PHASE = 4 ∧ ppeWaiting.part.dev.rd .SYS_LADDER_STATE = 0 ∧
      (ppeWaiting.part.dev.slv .A).cut.get 0 = false ∧ ppeWaiting.part.dev.classMats 0 ≠ [] := by decide +kernel
  have hothers : ∀ e ∈ ppeWaiting.part.dev.producers 0, e ≠ 10 → (ppeWaiting.part.dev.slv .A).sig.contains (0, e) = true := by
    decide +kernel
  obtain ⟨hcyc, -⟩ := RunsDev.post_of_doDev (f := ppeSignals .A) rfl (hppe hready hothers)
  have hkept := ppeSignals_ppeWaits (d := ppeWaiting.part.dev) (p := .A) (by decide +kernel) (by decide +kernel)
  rw [Dev.rdP, Dev.rdAt_congr _ _ _ _ hkept] at hcyc
  exact absurd hcyc (by decide +kernel)

end Sys2Proof.Machine
end

section
/-! PROOFS of the family 07_feedback: quadrature counts and the index; SSI transfers, wire faults, the commands of a channel, analog inputs
and divider outputs. -/

namespace Sys2Proof.Machine

/-! ### The registers of the FBI block beside other writes -/

section
variable {f g : Fld}

theorem Fld.key_row (f : Fld) (p : Plane) (i : Nat) : f.key p i 0 = f.key p 0 0 + 32 * (i * f.s1) := by
  simp only [Fld.key, Fld.word, Nat.zero_mul]
  omega

/-- Two fields of rows with one stride that differ in row 0 differ in every row. -/
theorem Fld.key_row_ne {p : Plane} (i : Nat) (hs : g.s1 = f.s1) (h : g.key p 0 0 ≠ f.key p 0 0) : g.key p i 0 ≠ f.key p i 0 := by
  rw [g.key_row, f.key_row, hs]
  exact fun he => h (Nat.add_right_cancel he)

theorem Dev.rd_wr_row (d : Dev) (v i : Nat) (h : g.s1 = f.s1 ∧ g.key .A 0 0 ≠ f.key .A 0 0) : (d.wr g v i).rd f i = d.rd f i :=
  Dev.rd_wr_ne _ _ _ _ (Fld.key_row_ne i h.1 h.2)

@[simp] theorem Dev.wr_field (d : Dev) (v i : Nat) : (d.wr g v i).field = d.field := rfl

variable {i : Nat} (hb : f.blk = .fbi) (hi : f.inside i 0)
include hb hi

theorem Fld.viewBlk_fbi : viewBlk (f.key .A i 0) = 10 := by
  rw [viewBlk_key _ hi, hb]
  rfl

theorem Fld.key_ne_of_viewBlk {k : Nat} (hk : viewBlk k ≠ 10) : f.key .A i 0 ≠ k := fun he => hk (he ▸ Fld.viewBlk_fbi hb hi)

theorem Fld.calm_of_fbi : f.calm .A i 0 = true := by
  have hne := fun k (hk : viewBlk k ≠ 10) => bne_iff_ne.mpr (Fld.key_ne_of_viewBlk hb hi hk)
  unfold Fld.calm
  rw [hne _ (by decide), hne _ (by decide), hne _ (by decide)]
  rfl

theorem Fld.notSrc_of_fbi (q : Plane) {n : Nat} (hn : n < 512) : f.notSrc .A i 0 q n = true := by
  have hne : ∀ {s : Fld}, s.blk = .icu → s.inside n 0 → (f.key .A i 0 != s.key q n 0) = true := fun {s} hs hin => by
    refine bne_iff_ne.mpr (Fld.key_ne_of_viewBlk hb hi ?_)
    rw [viewBlk_key _ hin, hs]
    cases q <;> decide
  unfold Fld.notSrc
  rw [hne rfl ⟨by simp only [Fld.ICU_SRC_PEND]; omega, by decide⟩, hne rfl ⟨by simp only [Fld.ICU_SRC_MERGED]; omega, by decide⟩]
  rfl

theorem icuBoth_rd_fbi (d : Dev) {n : Nat} (hn : n < 512) : (icuBoth n d).rd f i = d.rd f i :=
  icuBoth_rdAt d n (Fld.notSrc_of_fbi hb hi .A hn) (Fld.notSrc_of_fbi hb hi .B hn)

/-- Raising a code writes no register of the FBI block. -/
theorem raise_rd_fbi (d : Dev) {c : Code} (hc : ∀ n ∈ c.irq, n < 512) (w : Nat) (l : List Int) : (raise c w l d).rd f i = d.rd f i :=
  raise_rdAt d c w l (Fld.calm_of_fbi hb hi) (fun q n hn => Fld.notSrc_of_fbi hb hi q (hc n hn))
end

/-! ### The registers and the state of a channel -/

/-- A field of the rows of the channels, apart from the fields of `l` in them. -/
abbrev Fld.chanApart (f : Fld) (l : List Fld) : Prop :=
  f.blk = .fbi ∧ f.s1 = 64 ∧ f.off < 0x140 ∧ f.lo < 32 ∧ ∀ g ∈ l, g.s1 = 64 ∧ g.key .A 0 0 ≠ f.key .A 0 0

section
variable {f g : Fld} {l : List Fld} {n : Nat} (d : Dev)

theorem Fld.chanApart.mono {l' : List Fld} (hf : f.chanApart l) (h : l' ⊆ l) : f.chanApart l' := by
  obtain ⟨hb, hs, ho, hlo, hl⟩ := hf
  exact ⟨hb, hs, ho, hlo, fun g hg => hl g (h hg)⟩

theorem Fld.chanApart.rd_wr (hf : f.chanApart l) (hg : g ∈ l) (v : Nat) : (d.wr g v n).rd f n = d.rd f n := by
  obtain ⟨-, hs, -, -, hl⟩ := hf
  obtain ⟨hgs, hne⟩ := hl g hg
  exact d.rd_wr_row v n ⟨hgs.trans hs.symm, hne⟩

theorem Fld.chanApart.inside (hf : f.chanApart l) (hn : n < 18) : f.inside n 0 := by
  obtain ⟨-, hs, ho, hlo, -⟩ := hf
  exact ⟨by rw [hs]; omega, hlo⟩

@[simp] theorem Dev.fb_wr (v i : Nat) : (d.wr f v i).fb n = d.fb n := rfl
@[simp] theorem Dev.fb_updFb (u : FbSt → FbSt) : (d.updFb n u).fb n = u (d.fb n) := by simp [Dev.fb, Dev.updFb, Dev.updField]
@[simp] theorem Dev.rd_updFb (m i : Nat) (u : FbSt → FbSt) : (d.updFb m u).rd f i = d.rd f i := rfl
@[simp] theorem Dev.wire_updFb (m p : Nat) (u : FbSt → FbSt) : (d.updFb m u).wire n p = d.wire n p := rfl

theorem Dev.fb_congr {d e : Dev} (h : e.field = d.field) : e.fb n = d.fb n := by rw [Dev.fb, h, Dev.fb]

theorem Dev.idxVal_congr {d e : Dev} (h : e.rd .FB_IDXVAL_IDX_VAL n = d.rd .FB_IDXVAL_IDX_VAL n) : e.idxVal n = d.idxVal n := by
  rw [Dev.idxVal, h, Dev.idxVal]

theorem wireFld_mem (p : Nat) : wireFld p ∈ [Fld.FB_WIRE_A, .FB_WIRE_B, .FB_WIRE_Z] := by
  unfold wireFld
  split
  · simp
  · split <;> simp

theorem wireFld_width (p : Nat) : (wireFld p).width = 3 := by
  unfold wireFld
  split
  · rfl
  · split <;> rfl

theorem wireCode_irq (c : Nat) : (wireCode c).irq = some 192 := by
  unfold wireCode
  split <;> rfl
end

/-! ### What a code and a lost reference leave of a channel (R209 to R212, R218) -/

section
variable (d : Dev) {f : Fld} {c : Code} {n : Nat} {l : List Int}

@[simp] theorem raiseFb_field : (raiseFb c n l d).field = d.field := raise_field _ _ _ _
@[simp] theorem raiseFb_fb {m : Nat} : (raiseFb c n l d).fb m = d.fb m := Dev.fb_congr (raiseFb_field d)

theorem raiseFb_rd (hf : f.chanApart []) (hn : n < 18) (hc : ∀ k ∈ c.irq, k < 448) : (raiseFb c n l d).rd f n = d.rd f n := by
  obtain ⟨hb, -⟩ := id hf
  refine raise_rd_fbi hb (hf.inside hn) d ?_ _ _
  split
  · intro k hk
    obtain ⟨m, hm, rfl⟩ := Option.map_eq_some_iff.mp hk
    have := hc m hm
    omega
  · exact fun k hk => nomatch hk

@[simp] theorem irqFb_field (src : Nat) : (irqFb src n d).field = d.field := by
  unfold irqFb
  split
  · exact icuBoth_field _ _
  · rfl

theorem irqFb_rd (hf : f.chanApart []) (hn : n < 18) {src : Nat} (hs : src < 448) : (irqFb src n d).rd f n = d.rd f n := by
  obtain ⟨hb, -⟩ := id hf
  unfold irqFb
  split
  · exact icuBoth_rd_fbi hb (hf.inside hn) d (by omega)
  · rfl

@[simp] theorem loseRef_field : (loseRef n d).field = d.field := by
  unfold loseRef
  split
  · rfl
  · exact raiseFb_field _

@[simp] theorem loseRef_fb {m : Nat} : (loseRef n d).fb m = d.fb m := Dev.fb_congr (loseRef_field d)

theorem loseRef_rd (hf : f.chanApart [.FB_STAT_REF_LOST]) (hn : n < 18) : (loseRef n d).rd f n = d.rd f n := by
  unfold loseRef
  split
  · rfl
  · rw [raiseFb_rd _ (hf.mono (List.nil_subset _)) hn (by decide), hf.rd_wr _ (by decide)]

theorem loseRef_lost (hn : n < 18) : (loseRef n d).rd .FB_STAT_REF_LOST n = 1 := by
  unfold loseRef
  split
  · next h => exact h
  · rw [raiseFb_rd _ (by decide) hn (by decide), Dev.rd_wr_same]
    rfl
end

/-! ### Wire faults (R209, R211) -/

/-- The fields that a wire-fault class writes. -/
def wireWrites : List Fld := [.FB_WIRE_A, .FB_WIRE_B, .FB_WIRE_Z, .FB_WIRE_WIRE_CNT, .FB_STAT_REF_LOST]

section
variable (d : Dev) {f : Fld} {n p cls : Nat}

@[simp] theorem wireSets_field : (wireSets n p cls d).field = d.field := by
  unfold wireSets
  extract_lets d1
  have h1 : d1.field = d.field := raiseFb_field _
  split
  · rw [loseRef_field, h1]
  · exact h1

/-- A class that is reported anew writes its pair and WIRE_CNT, and REF_LOST where the pair is needed. -/
theorem wireSets_rd (hn : n < 18) (hf : f.chanApart [.FB_STAT_REF_LOST]) : (wireSets n p cls d).rd f n =
    ((d.wr (wireFld p) cls n).wr .FB_WIRE_WIRE_CNT (satU 16 (d.rd .FB_WIRE_WIRE_CNT n + 1)) n).rd f n := by
  have hirq : ∀ k ∈ (wireCode cls).irq, k < 448 := by rw [wireCode_irq]; decide
  unfold wireSets
  extract_lets d1
  have h1 := raiseFb_rd ((d.wr (wireFld p) cls n).wr .FB_WIRE_WIRE_CNT (satU 16 (d.rd .FB_WIRE_WIRE_CNT n + 1)) n) (l := [p])
    (hf.mono (List.nil_subset _)) hn hirq
  split
  · rw [loseRef_rd _ hf hn]
    exact h1
  · exact h1

theorem wireSets_rd_apart (hn : n < 18) (hf : f.chanApart wireWrites) : (wireSets n p cls d).rd f n = d.rd f n := by
  have hp : wireFld p ∈ wireWrites := (by decide : [Fld.FB_WIRE_A, .FB_WIRE_B, .FB_WIRE_Z] ⊆ wireWrites) (wireFld_mem p)
  rw [wireSets_rd d hn (hf.mono (by decide)), hf.rd_wr _ (by decide), hf.rd_wr _ hp]

theorem wireSets_wire (hn : n < 18) (hc : cls < 8) : (wireSets n p cls d).wire n p = cls := by
  have hf : (wireFld p).chanApart [.FB_STAT_REF_LOST, .FB_WIRE_WIRE_CNT] :=
    (by decide : ∀ f ∈ [Fld.FB_WIRE_A, .FB_WIRE_B, .FB_WIRE_Z], f.chanApart [.FB_STAT_REF_LOST, .FB_WIRE_WIRE_CNT]) _ (wireFld_mem p)
  rw [Dev.wire, wireSets_rd d hn (hf.mono (by decide)), hf.rd_wr _ (by decide), Dev.rd_wr_same, wireFld_width]
  exact Nat.mod_eq_of_lt hc

theorem wireSets_wireCnt (hn : n < 18) : (wireSets n p cls d).rd .FB_WIRE_WIRE_CNT n = min (d.rd .FB_WIRE_WIRE_CNT n + 1) 65535 := by
  rw [wireSets_rd d hn (by decide), Dev.rd_wr_same]
  exact Nat.mod_eq_of_lt (Nat.lt_succ_of_le (Nat.min_le_right _ _))

/-- The state of channel `n` with condition `cls` of pair `p` set or cleared. -/
def Dev.setCond (d : Dev) (n p cls : Nat) (v : Bool) : Dev :=
  d.updFb n (fun x => { x with conds := x.conds.upd p (fun c => setBit c cls v) })

theorem wireFault_reported (h : wireRank (d.wire n p) < wireRank cls) :
    wireFault n p cls d = wireSets n p cls (d.setCond n p cls true) := by
  unfold wireFault
  rw [if_neg (by omega)]
  exact if_neg (by omega)

theorem wireFault_outranked (h0 : 0 < wireRank cls) (h : wireRank cls ≤ wireRank (d.wire n p)) :
    wireFault n p cls d = d.setCond n p cls true := by
  unfold wireFault
  rw [if_neg (by omega)]
  exact if_pos h

theorem wireFault_cases : wireFault n p cls d = d ∨ wireFault n p cls d = d.setCond n p cls true ∨
    wireFault n p cls d = wireSets n p cls (d.setCond n p cls true) := by
  rcases Nat.eq_zero_or_pos (wireRank cls) with h0 | h0
  · exact .inl (if_pos h0)
  · rcases Nat.lt_or_ge (wireRank (d.wire n p)) (wireRank cls) with h | h
    · exact .inr (.inr (wireFault_reported d h))
    · exact .inr (.inl (wireFault_outranked d h0 h))

theorem wireFault_rd (hn : n < 18) (hf : f.chanApart wireWrites) : (wireFault n p cls d).rd f n = d.rd f n := by
  rcases wireFault_cases d (n := n) (p := p) (cls := cls) with h | h | h
  · rw [h]
  · rw [h]; rfl
  · rw [h, wireSets_rd_apart _ hn hf]; rfl

theorem setCond_cnt (v : Bool) : ((d.setCond n p cls v).fb n).cnt = (d.fb n).cnt := by rw [Dev.setCond, Dev.fb_updFb]

theorem wireFault_cnt : ((wireFault n p cls d).fb n).cnt = (d.fb n).cnt := by
  rcases wireFault_cases d (n := n) (p := p) (cls := cls) with h | h | h
  · rw [h]
  · rw [h, setCond_cnt]
  · rw [h, Dev.fb_congr (wireSets_field _), setCond_cnt]

theorem bit_setBit (x i : Nat) (v : Bool) : bit (setBit x i v) i = v := by
  unfold setBit
  split
  · next h => exact h
  · next h =>
    cases v with
    | true =>
      have h0 : x.testBit i = false := by rw [← bit_eq_testBit]; exact Bool.not_eq_true _ ▸ h
      rw [if_pos rfl, bit_eq_testBit, Nat.add_comm, Nat.testBit_two_pow_add_eq, h0]
      rfl
    | false =>
      have h1 : x.testBit i = true := by rw [← bit_eq_testBit]; exact Bool.not_eq_false _ ▸ h
      have hle : 2 ^ i ≤ x := Nat.ge_two_pow_of_testBit h1
      have hadd := Nat.testBit_two_pow_add_eq (x - 2 ^ i) i
      rw [Nat.add_sub_cancel' hle, h1] at hadd
      rw [if_neg (by decide), bit_eq_testBit]
      exact (Bool.not_eq_eq_eq_not.mp hadd.symm)

theorem setCond_hasCond (v : Bool) : (d.setCond n p cls v).hasCond n p cls = v := by
  rw [Dev.hasCond, Dev.setCond, Dev.fb_updFb, Tab.get_upd, if_pos rfl, bit_setBit]

theorem Dev.hasCond_congr {d e : Dev} (h : e.fb n = d.fb n) : e.hasCond n p cls = d.hasCond n p cls := by
  rw [Dev.hasCond, h, Dev.hasCond]
end

/-! ### The end of a wire-fault class (R209) -/

section
variable (d : Dev) {n p cls : Nat}

theorem topClass_lt (x : Nat) : topClass x < 8 := by
  refine List.foldlRecOn (motive := (· < 8)) _ _ (by decide) (fun top htop c hc => ?_)
  split
  · exact (by decide : ∀ c ∈ [3, 4, 2, 1, 5, 6], c < 8) c hc
  · exact htop

theorem wireClear_hidden (h : d.wire n p ≠ cls) : wireClear n p cls d = d.setCond n p cls false := if_pos (by simp [h])

/-- When the class shown ends, the highest class whose condition still holds is shown, none if there is no other. -/
theorem wireClear_shown (hn : n < 18) (hc : d.wire n p = cls) (h0 : 0 < wireRank cls) :
    (wireClear n p cls d).hasCond n p cls = false ∧
      (wireClear n p cls d).wire n p = topClass (setBit ((d.fb n).conds.get p) cls false) := by
  generalize he : wireClear n p cls d = e
  unfold wireClear at he
  extract_lets d1 d2 at he
  have hcond : d1.hasCond n p cls = false := setCond_hasCond d false
  have hconds : (d1.fb n).conds.get p = setBit ((d.fb n).conds.get p) cls false := by
    rw [Dev.fb_updFb, Tab.get_upd, if_pos rfl]
  have hlt := topClass_lt (setBit ((d.fb n).conds.get p) cls false)
  rw [if_neg (by simp [hc]; omega), hconds] at he
  clear_value d1
  split at he
  · next htop =>
    have h2 : d2.wire n p = 0 := Dev.rd_wr_same _ _ _ _
    have hfb : d2.fb n = d1.fb n := rfl
    rw [htop, ← he]
    split
    · rw [Dev.wire_updFb, Dev.hasCond, Dev.fb_updFb]
      exact ⟨hcond, h2⟩
    · exact ⟨hcond, h2⟩
  · rw [← he, wireSets_wire d1 hn hlt, Dev.hasCond_congr (Dev.fb_congr (wireSets_field _))]
    exact ⟨hcond, rfl⟩
end
/-! ### A count and an index event (R196, R198, R199, R201, R202) -/

section
variable (d : Dev) {f : Fld} {n : Nat}

theorem dirStep_rd (hn : n < 18) (up : Bool) (hf : f.chanApart [.FB_STAT_DIR, .FB_STAT_DIRCHG]) : (dirStep n up d).rd f n = d.rd f n := by
  unfold dirStep
  extract_lets x d1
  have h1 : d1.rd f n = d.rd f n := by rw [hf.rd_wr _ (by decide), hf.rd_wr _ (by decide), Dev.rd_updFb]
  split
  · rfl
  · split
    · rfl
    · split
      · rw [irqFb_rd _ (hf.mono (List.nil_subset _)) hn (by decide), h1]
      · exact h1

theorem dirStep_cnt (up : Bool) : ((dirStep n up d).fb n).cnt = (d.fb n).cnt := by
  unfold dirStep
  extract_lets x d1
  have h1 : (d1.fb n).cnt = (d.fb n).cnt := by rw [Dev.fb_wr, Dev.fb_wr, Dev.fb_updFb]
  split
  · rw [Dev.fb_updFb]
  · split
    · rw [Dev.fb_updFb]
    · split
      · rw [Dev.fb_congr (irqFb_field _ _), h1]
      · exact h1

/-- The check of an interval may show LINE_ERR, count in LINE_CNT and lose the reference. -/
theorem lineCheck_rd (hn : n < 18) (lat : Nat) (hf : f.chanApart [.FB_STAT_LINE_ERR, .FB_ERRCNT_LINE_CNT, .FB_STAT_REF_LOST]) :
    (lineCheck n lat d).rd f n = d.rd f n := by
  unfold lineCheck
  extract_lets x lines nominal
  split
  · rfl
  · next st _ =>
    extract_lets d1
    have h1 : d1.rd f n = d.rd f n := by
      rw [raiseFb_rd _ (hf.mono (List.nil_subset _)) hn (by decide), hf.rd_wr _ (by decide), hf.rd_wr _ (by decide)]
    split
    · rfl
    · split
      · rw [loseRef_rd _ (hf.mono (by decide)) hn, h1]
      · exact h1

/-- What the armed ONCE event leaves: IDX_VAL in the counter, the count in the latch, the arming ended and the reference won. -/
theorem indexEvent_once (hn : n < 18) {after : Nat} (hafter : after < 2 ^ 48) (hmode : d.rd .FB_CFG_IDX_MODE n = 1)
    (harm : d.rd .FB_STAT_ARMED n = 1) :
    ((indexEvent n after d).fb n).cnt = d.idxVal n ∧ (indexEvent n after d).rd .FB_IDXLAT_LO n = after % 2 ^ 32 ∧
      (indexEvent n after d).rd .FB_IDXLAT_HI n = after / 2 ^ 32 ∧ (indexEvent n after d).rd .FB_STAT_ARMED n = 0 ∧
      (indexEvent n after d).rd .FB_STAT_IDX_DONE n = 1 ∧ (indexEvent n after d).rd .FB_STAT_REF_LOST n = 0 := by
  unfold indexEvent
  extract_lets d1 once armed v d2
  have hlo : d2.rd .FB_IDXLAT_LO n = after % 2 ^ 32 := by
    rw [Dev.rd_updFb, lineCheck_rd _ hn _ (by decide), Dev.rd_wr_row _ _ _ (by decide), Dev.rd_wr_row _ _ _ (by decide),
      Dev.rd_wr_same]
    exact Nat.mod_mod _ _
  have hhi : d2.rd .FB_IDXLAT_HI n = after / 2 ^ 32 := by
    rw [Dev.rd_updFb, lineCheck_rd _ hn _ (by decide), Dev.rd_wr_row _ _ _ (by decide), Dev.rd_wr_same]
    exact Nat.mod_eq_of_lt (Nat.div_lt_of_lt_mul hafter)
  have hcnt : (d2.fb n).cnt = d.idxVal n := by
    rw [Dev.fb_updFb]
    exact if_pos (by simp [armed, harm])
  clear_value d2
  have hraise : ∀ (f : Fld) (e : Dev), f.chanApart [] → (raiseFb .INDEX_SET n [] e).rd f n = e.rd f n :=
    fun _ e hf => raiseFb_rd e hf hn (by decide)
  rw [if_pos (by simp [once, armed, hmode, harm]), raiseFb_fb, Dev.fb_wr, Dev.fb_wr, Dev.fb_wr]
  simp (disch := decide) only [hraise, Dev.rd_wr_row, Dev.rd_wr_same]
  exact ⟨hcnt, hlo, hhi, rfl, rfl, rfl⟩
end

/-! ### A quadrature transition (R196) -/

/-- The channel after the accepted levels `a`, `b`, `z`, before any count. -/
def Dev.takeLevels (d : Dev) (n : Nat) (a b z : Bool) : Dev :=
  d.updFb n (fun y => { y with a := a, b := b, z := z, zUsed := y.zUsed && z, zCnt := if z then y.zCnt else 0 })

section
variable (d : Dev) (n : Nat) (a b z : Bool)

theorem Dev.takeLevels_cnt : ((d.takeLevels n a b z).fb n).cnt = (d.fb n).cnt := by rw [Dev.takeLevels, Dev.fb_updFb]

theorem Dev.takeLevels_z : ((d.takeLevels n a b z).fb n).z = z := by rw [Dev.takeLevels, Dev.fb_updFb]

theorem Dev.takeLevels_zUsed : ((d.takeLevels n a b z).fb n).zUsed = ((d.fb n).zUsed && z) := by rw [Dev.takeLevels, Dev.fb_updFb]
end

/-- Places in the upward sequence by which new levels are ahead of the accepted ones. -/
def Dev.quadMove (d : Dev) (n : Nat) (a b : Bool) : Nat := (quadPos a b + 4 - quadPos (d.fb n).a (d.fb n).b) % 4

/-- A count of a channel without an index input moves the counter by one. -/
theorem countStep_plain (d : Dev) {n : Nat} (up gated : Bool) (t : T96) (hz : d.rd .FB_CFG_Z_USE n ≠ 1) :
    ((countStep n up gated t d).1.fb n).cnt = cnt48 (((d.fb n).cnt : Int) + if up then 1 else -1) := by
  unfold countStep
  extract_lets x after rev zc d1 d2 lines limit d3
  have h3 : d3 = d2 := if_neg (by simp [hz])
  rw [if_neg (by simp [hz]), h3, dirStep_cnt, Dev.fb_updFb]

/-- A gated count while Z is high and no wire fault of Z stands is an index event; before it only the direction and the wire faults of the
channel are written. -/
theorem countStep_index (d : Dev) {n : Nat} (hn : n < 18) (up : Bool) (t : T96) (hz : d.rd .FB_CFG_Z_USE n = 1)
    (hx : (d.fb n).z = true) (hu : (d.fb n).zUsed = false) (hw : d.wire n 2 = 0) :
    ∃ e : Dev, (∀ f : Fld, f.chanApart (.FB_STAT_DIR :: .FB_STAT_DIRCHG :: wireWrites) → e.rd f n = d.rd f n) ∧
      (countStep n up true t d).1 = indexEvent n (cnt48 (((d.fb n).cnt : Int) + if up then 1 else -1)) e := by
  unfold countStep
  extract_lets x after rev zc d1 d2 lines limit d3
  refine ⟨d3, fun f hf => ?_, ?_⟩
  · have h2 : d2.rd f n = d.rd f n := by
      rw [dirStep_rd _ hn _ (hf.mono (by decide)), Dev.rd_updFb]
    unfold d3
    split
    · rw [wireFault_rd _ hn (hf.mono (by decide)), h2]
    · exact h2
  · rw [if_pos (by simp [hz, x, hx, hu, hw])]

/-- In incremental mode the levels count by their place in the sequence: none, an illegal jump of two, or one count up or down. -/
theorem acceptLevels_quad (d : Dev) {n : Nat} (a b z : Bool) (t : T96) (hmode : d.rd .FB_CFG_MODE n = 1) :
    acceptLevels n a b z t d =
      if d.quadMove n a b = 0 then (d.takeLevels n a b z, 0, false)
      else if d.quadMove n a b = 2 then (quadError n (d.takeLevels n a b z), 0, false)
      else
        let up := decide (d.quadMove n a b = 1)
        let r := countStep n up (a && b) t (d.takeLevels n a b z)
        (r.1, if up then 1 else -1, r.2) := by
  unfold acceptLevels
  rw [hmode]
  rfl

section
variable (d : Dev) {n : Nat} (a b z : Bool) (t : T96) (hmode : d.rd .FB_CFG_MODE n = 1)
include hmode

theorem acceptLevels_still (h : d.quadMove n a b = 0) : (acceptLevels n a b z t d).1 = d.takeLevels n a b z := by
  rw [acceptLevels_quad d a b z t hmode, if_pos h]

theorem acceptLevels_jump (h : d.quadMove n a b = 2) : (acceptLevels n a b z t d).1 = quadError n (d.takeLevels n a b z) := by
  rw [acceptLevels_quad d a b z t hmode, h]
  rfl

theorem acceptLevels_step (up : Bool) (h : d.quadMove n a b = if up then 1 else 3) :
    (acceptLevels n a b z t d).1 = (countStep n up (a && b) t (d.takeLevels n a b z)).1 := by
  rw [acceptLevels_quad d a b z t hmode, h]
  cases up <;> rfl
end

theorem quadError_field (d : Dev) (n : Nat) : (quadError n d).field = d.field := by
  rw [quadError, loseRef_field, raiseFb_field]
  rfl

theorem quadError_shows (d : Dev) {n : Nat} (hn : n < 18) :
    (quadError n d).rd .FB_STAT_QUAD_ERR n = 1 ∧ (quadError n d).rd .FB_STAT_REF_LOST n = 1 := by
  refine ⟨?_, loseRef_lost _ hn⟩
  rw [quadError, loseRef_rd _ (by decide) hn, raiseFb_rd _ (by decide) hn (by decide), Dev.rd_wr_row _ _ _ (by decide), Dev.rd_wr_same]
  rfl

/-! ### What follows a count (R215, R217, R320) -/

/-- `e` has the state and the registers of channel `n` as `d` has them. -/
structure Dev.sameChan (d : Dev) (n : Nat) (e : Dev) : Prop where
  fb : e.fb n = d.fb n
  rd : ∀ f : Fld, f.chanApart [] → e.rd f n = d.rd f n

section
variable {d e : Dev} {n : Nat}

theorem Dev.sameChan.refl (d : Dev) (n : Nat) : d.sameChan n d := ⟨rfl, fun _ _ => rfl⟩

theorem Dev.sameChan.trans {x : Dev} (h : d.sameChan n e) (h' : e.sameChan n x) : d.sameChan n x :=
  ⟨h'.fb.trans h.fb, fun f hf => (h'.rd f hf).trans (h.rd f hf)⟩

/-- The rows of the channels lie in the first 0x580 bytes of the FBI block. -/
theorem Fld.chanApart.key_range {f : Fld} (hf : f.chanApart []) (hn : n < 18) :
    32 * 0xA0000 ≤ f.key .A n 0 ∧ f.key .A n 0 < 32 * 0xA0580 := by
  obtain ⟨hb, hs, ho, hlo, -⟩ := hf
  have hk : f.key .A n 0 = (0xA0000 + f.off + n * 64) * 32 + f.lo := by
    rw [Fld.key, Fld.word, hb, hs, Nat.zero_mul]
    rfl
  omega

theorem Dev.sameChan_wr (d : Dev) (hn : n < 18) {g : Fld} {i : Nat} (v : Nat)
    (hg : g.key .A i 0 < 32 * 0xA0000 ∨ 32 * 0xA0580 ≤ g.key .A i 0) : d.sameChan n (d.wr g v i) := by
  refine ⟨rfl, fun f hf => Dev.rd_wr_ne _ _ _ _ ?_⟩
  have hr := hf.key_range hn
  omega

/-- The rows of the dividers lie above those of the channels. -/
theorem Dev.sameChan_wrPo (d : Dev) (hn : n < 18) {g : Fld} (i v : Nat) (hg : 32 * 0xA0580 ≤ g.key .A 0 0) : d.sameChan n (d.wr g v i) :=
  d.sameChan_wr hn v (.inr (by rw [g.key_row]; omega))

theorem Dev.sameChan_updPo (d : Dev) (n o : Nat) (u : PoSt → PoSt) : d.sameChan n (d.updPo o u) := ⟨rfl, fun _ _ => rfl⟩

theorem showPo_sameChan (d : Dev) (hn : n < 18) (o : Nat) : d.sameChan n (showPo o d) :=
  (d.sameChan_wrPo hn o _ (by decide)).trans (Dev.sameChan_wrPo _ hn o _ (by decide))

theorem poCount_sameChan (d : Dev) (hn : n < 18) (o : Nat) (c : Int) : d.sameChan n (poCount o c d) := by
  unfold poCount
  extract_lets x den by_ acc q
  split
  · split
    · exact .refl _ _
    · refine (d.sameChan_wrPo hn o 1 (g := .PO_STAT_OVR) (by decide)).trans ⟨Dev.fb_congr (raise_field _ _ _ _), fun f hf => ?_⟩
      obtain ⟨hb, -⟩ := id hf
      exact raise_rd_fbi hb (hf.inside hn) _ (by decide) _ _
  · exact (d.sameChan_updPo n o _).trans (showPo_sameChan _ hn o)

/-- A divider that follows a channel changes none. -/
theorem poFollow_sameChan (d : Dev) (hn : n < 18) (m : Nat) (c : Int) (idx : Bool) : d.sameChan n (poFollow m c idx d) := by
  unfold poFollow
  split
  · exact .refl _ _
  · refine forN_keeps (d.sameChan n) 4 _ (fun o _ e he => ?_) (.refl _ _)
    split
    · extract_lets d1
      have h1 : d.sameChan n d1 := by
        unfold d1
        split
        · exact he
        · exact he.trans (poCount_sameChan e hn o c)
      split
      · exact h1.trans (d1.sameChan_updPo n o _)
      · exact h1
    · exact he

theorem shaftCount_sameChan (d : Dev) (hn : n < 18) (pi : Nat) (up : Bool) : d.sameChan n (shaftCount pi up d) := by
  unfold shaftCount
  refine forN_keeps (d.sameChan n) 8 _ (fun b hb e he => ?_) (.refl _ _)
  have hrev : ∀ b, b < 8 → Fld.TB_STAT_REV.key .A b 0 < 32 * 0xA0000 := by decide
  split
  · exact he
  · have hupd : ∀ u : BaseSt → BaseSt, d.sameChan n (e.updBase b u) := fun _ => he.trans ⟨rfl, fun _ _ => rfl⟩
    exact (hupd _).trans (Dev.sameChan_wr _ hn _ (.inl (hrev b hb)))
end

/-- Dividers and time bases follow the counts of a channel and leave it as the accepted levels made it. -/
theorem fbCount_sameChan (d : Dev) {n seen : Nat} (hn : n < 18) (a b z : Bool) (t : T96) (h : d.rd .FB_CFG_FILT n < seen) :
    (acceptLevels n a b z (d.pinStamp n t) d).1.sameChan n (fbCount n a b z seen t d) := by
  unfold fbCount
  rw [if_neg (by simp [Dev.filtered]; omega)]
  extract_lets r d1
  have h1 : r.1.sameChan n d1 := poFollow_sameChan _ hn _ _ _
  split
  · exact h1.trans (shaftCount_sameChan _ hn _ _)
  · exact h1

theorem fbCount_filtered (d : Dev) {n seen : Nat} (a b z : Bool) (t : T96) (h : seen ≤ d.rd .FB_CFG_FILT n) :
    fbCount n a b z seen t d = d := if_pos (by simp [Dev.filtered]; omega)

theorem cnt48_eq (i : Int) : cnt48 i = (i % 2 ^ 48).toNat := rfl

theorem cnt48_lt (i : Int) : cnt48 i < 2 ^ 48 := by
  rw [cnt48_eq]
  omega

/-- What holds of every device that has the channel as the accepted levels make it holds after FB_COUNT. -/
theorem RunsDev.of_fbCount {n : Fin 18} {a b z : Bool} {t : PinLevels} {s : State} {post : Dev → Prop}
    (h : s.part.dev.rd .FB_CFG_FILT n < t.seen)
    (hp : ∀ e, (acceptLevels n a b z (s.part.dev.pinStamp n t.time) s.part.dev).1.sameChan n e → post e) :
    RunsDev (.fbCount n a b z t) s post :=
  RunsDev.of_doDev (f := fbCount n a b z t.seen t.time) rfl (hp _ (fbCount_sameChan _ n.isLt a b z _ h))

/-- Settles O49: the filter, and the four moves of the sequence, of which a count up at the index may be the armed index event. -/
theorem feedbackCounts : Obligations.FeedbackCounts := by
  intro n a b z t s
  have hn := n.isLt
  refine ⟨fun hf => RunsDev.of_doDev (f := fbCount n a b z t.seen t.time) rfl (fbCount_filtered _ a b z _ hf), fun hf hmode =>
    ⟨fun hm => ?_, fun hm hz => ?_, fun hm hz => ?_, fun hm => ?_, fun hm hindex hidx harm => ?_⟩⟩ <;>
    refine RunsDev.of_fbCount hf (fun e he => ?_)
  · rw [acceptLevels_still _ a b z _ hmode hm] at he
    rw [he.fb, Dev.takeLevels_cnt]
  · rw [acceptLevels_step _ a b z _ hmode true hm] at he
    rw [he.fb, countStep_plain (s.part.dev.takeLevels n a b z) _ _ _ hz, Dev.takeLevels_cnt]
    exact cnt48_eq _
  · rw [acceptLevels_step _ a b z _ hmode false hm] at he
    rw [he.fb, countStep_plain (s.part.dev.takeLevels n a b z) _ _ _ hz, Dev.takeLevels_cnt]
    exact cnt48_eq _
  · rw [acceptLevels_jump _ a b z _ hmode hm] at he
    obtain ⟨herr, hlost⟩ := quadError_shows (s.part.dev.takeLevels n a b z) hn
    rw [he.fb, he.rd _ (by decide), he.rd _ (by decide), herr, hlost, Dev.fb_congr (quadError_field _ _), Dev.takeLevels_cnt]
    exact ⟨rfl, rfl, rfl⟩
  · obtain ⟨hz, rfl, rfl, rfl, hused, hwire⟩ := hindex
    rw [acceptLevels_step _ true true true _ hmode true hm] at he
    obtain ⟨x, hx, hcount⟩ := countStep_index (s.part.dev.takeLevels n true true true) hn true (s.part.dev.pinStamp n t.time) hz
      (Dev.takeLevels_z ..) (by rw [Dev.takeLevels_zUsed, hused]; rfl) hwire
    obtain ⟨hcnt, hlo, hhi, harmed, hdone, hlost⟩ := indexEvent_once x hn (cnt48_lt _) ((hx _ (by decide)).trans hidx)
      ((hx _ (by decide)).trans harm)
    rw [Bool.and_self, hcount] at he
    rw [he.fb, he.rd _ (by decide), he.rd _ (by decide), he.rd _ (by decide), he.rd _ (by decide), he.rd _ (by decide), hcnt, hlo, hhi,
      harmed, hdone, hlost, Dev.idxVal_congr (hx _ (by decide)), Dev.takeLevels_cnt]
    exact ⟨rfl, rfl, rfl, rfl, rfl, rfl⟩

/-! ### SSI transfers (R206 to R208) -/

/-- The fields that a boundary sample writes. -/
def sampleWrites : List Fld :=
  [.FB_POS_LO, .FB_POS_HI, .FB_SPEED, .FB_SPER, .FB_SWIN, .FB_STAT_SPD_METH, .FB_STAT_FALLBACK, .FB_STAT_FAULTY]

section
variable (d : Dev) {n : Nat} (tb : T96) (hmode : d.rd .FB_CFG_MODE n = 2) (hbits : d.rd .FB_CFG_SSI_BITS n ≠ 0)
include hmode hbits

/-- The sample of an SSI channel shows the low word of the counter, and FAULTY after a failed transfer; the counter and the mark of the
transfer stay, and so does every field that a sample does not write. -/
theorem fbSample_ssi : ((fbSample n tb d).fb n).cnt = (d.fb n).cnt ∧ ((fbSample n tb d).fb n).ssiBad = (d.fb n).ssiBad ∧
    (fbSample n tb d).rd .FB_POS_LO n = (d.fb n).cnt % 2 ^ 32 ∧
    ((d.fb n).ssiBad = true → (fbSample n tb d).rd .FB_STAT_FAULTY n = 1) ∧
    ∀ f : Fld, f.chanApart sampleWrites → (fbSample n tb d).rd f n = d.rd f n := by
  unfold fbSample
  extract_lets mode x w win per vHi vLo meth fall v bad d1 put
  have hm : mode = 2 := hmode
  rw [if_neg (by simp [hm, hbits])]
  have hcnt : (d1.fb n).cnt = (d.fb n).cnt := by rw [Dev.fb_updFb]
  have hmark : (d1.fb n).ssiBad = (d.fb n).ssiBad := by rw [Dev.fb_updFb]
  refine ⟨hcnt, hmark, ?_, fun hbad => ?_, fun f hf => ?_⟩
  · simp (disch := decide) only [put, Dev.rd_wr_row, Dev.rd_wr_same]
    exact Nat.mod_mod _ _
  · have h1 : bad = true := by simp [bad, hm, x, hbad]
    rw [h1]
    exact Dev.rd_wr_same _ _ _ _
  · simp only [put]
    iterate 8 rw [hf.rd_wr _ (by decide)]
    rfl

theorem ssiTransfer_samples (low first : Bool) (raw : Nat) (par closing : Bool) :
    ssiTransfer n low first raw par closing d = fbSample n d.cyc.openAt (ssiTake n low first raw par closing d) :=
  if_neg (by simp [hmode, hbits])
end

/-- The value that the bits of a transfer give. -/
def Dev.ssiValue (d : Dev) (n raw : Nat) : Nat :=
  let bits := d.rd .FB_CFG_SSI_BITS n
  (if d.rd .FB_CFG_SSI_CODE n = 1 then grayToBin (raw % 2 ^ bits) bits else raw) % 2 ^ bits

/-- A transfer that does not fail (R207). -/
def Dev.ssiGood (d : Dev) (n : Nat) (low first : Bool) (raw : Nat) (par closing : Bool) : Prop :=
  let bits := d.rd .FB_CFG_SSI_BITS n
  low = false ∧ first = true ∧ parityOk (d.rd .FB_CFG_SSI_PAR n) (raw % 2 ^ bits) bits par = true ∧ closing = false

section
variable (d : Dev) {n raw : Nat} {low first par closing : Bool} (hmode : d.rd .FB_CFG_MODE n = 2) (hbits : d.rd .FB_CFG_SSI_BITS n ≠ 0)
include hmode hbits

/-- A good transfer of a channel that does not extend gives its value to the counter and writes no register. -/
theorem ssiTake_good (hext : d.rd .FB_CFG_SSI_EXT n ≠ 1) (hgood : d.ssiGood n low first raw par closing) :
    ((ssiTake n low first raw par closing d).fb n).cnt = d.ssiValue n raw ∧
      ((ssiTake n low first raw par closing d).fb n).ssiBad = false ∧ (ssiTake n low first raw par closing d).regs = d.regs := by
  obtain ⟨rfl, rfl, hpar, rfl⟩ := hgood
  unfold ssiTake
  extract_lets bits x l d0 d1 value d2
  have h1 : d1 = d0 := rfl
  rw [if_neg (by simp [hmode, bits, hbits]), if_neg (by simpa [mask] using hpar), if_neg hext, h1, Dev.fb_updFb]
  exact ⟨rfl, rfl, rfl⟩

/-- A failed transfer keeps the counter, marks the sample and shows SSI_ERR. -/
theorem ssiTake_failed (hn : n < 18) (hbad : ¬d.ssiGood n low first raw par closing) :
    ((ssiTake n low first raw par closing d).fb n).cnt = (d.fb n).cnt ∧ ((ssiTake n low first raw par closing d).fb n).ssiBad = true ∧
      (ssiTake n low first raw par closing d).rd .FB_STAT_SSI_ERR n = 1 ∧
      ∀ f : Fld, f.chanApart (.FB_STAT_SSI_ERR :: .FB_ERRCNT_QUAD_CNT :: wireWrites) →
        (ssiTake n low first raw par closing d).rd f n = d.rd f n := by
  have hfail : (low || !first || !parityOk (d.rd .FB_CFG_SSI_PAR n) (mask (d.rd .FB_CFG_SSI_BITS n) raw) (d.rd .FB_CFG_SSI_BITS n) par ||
      closing) = true := by
    refine Classical.byContradiction (fun h => hbad ?_)
    simpa [Dev.ssiGood, mask, and_assoc] using h
  unfold ssiTake
  extract_lets bits x l d0 d1 value d2
  rw [if_neg (by simp [hmode, bits, hbits]), if_pos hfail]
  obtain ⟨hcnt1, hrd1⟩ : (d1.fb n).cnt = (d.fb n).cnt ∧ ∀ f : Fld, f.chanApart wireWrites → d1.rd f n = d.rd f n := by
    have h0 : (d0.fb n).cnt = (d.fb n).cnt := by rw [Dev.fb_updFb]
    unfold d1
    split
    · exact ⟨(wireFault_cnt _).trans h0, fun f hf => wireFault_rd d0 hn hf⟩
    · exact ⟨h0, fun _ _ => rfl⟩
  obtain ⟨hcnt, hmark, herr, hrd⟩ : (d2.fb n).cnt = (d.fb n).cnt ∧ (d2.fb n).ssiBad = true ∧ d2.rd .FB_STAT_SSI_ERR n = 1 ∧
      ∀ f : Fld, f.chanApart (.FB_STAT_SSI_ERR :: .FB_ERRCNT_QUAD_CNT :: wireWrites) → d2.rd f n = d.rd f n := by
    refine ⟨?_, ?_, ?_, fun f hf => ?_⟩
    · rw [raiseFb_fb, Dev.fb_wr, Dev.fb_wr, Dev.fb_updFb]
      exact hcnt1
    · rw [raiseFb_fb, Dev.fb_wr, Dev.fb_wr, Dev.fb_updFb]
    · rw [raiseFb_rd _ (by decide) hn (by decide), Dev.rd_wr_row _ _ _ (by decide), Dev.rd_wr_same]
      rfl
    · rw [raiseFb_rd _ (hf.mono (List.nil_subset _)) hn (by decide), hf.rd_wr _ (by decide), hf.rd_wr _ (by decide), Dev.rd_updFb,
        hrd1 f (hf.mono (by decide))]
  split
  · rw [loseRef_fb, loseRef_rd _ (by decide) hn]
    exact ⟨hcnt, hmark, herr, fun f hf => (loseRef_rd _ (hf.mono (by decide)) hn).trans (hrd f hf)⟩
  · exact ⟨hcnt, hmark, herr, hrd⟩
end

section
variable (d : Dev) {n raw : Nat} {low first par closing : Bool} (hmode : d.rd .FB_CFG_MODE n = 2) (hbits : d.rd .FB_CFG_SSI_BITS n ≠ 0)
include hmode hbits

theorem ssiTransfer_good (hext : d.rd .FB_CFG_SSI_EXT n ≠ 1) (hgood : d.ssiGood n low first raw par closing) :
    ((ssiTransfer n low first raw par closing d).fb n).cnt = d.ssiValue n raw ∧
      ((ssiTransfer n low first raw par closing d).fb n).ssiBad = false ∧
      (ssiTransfer n low first raw par closing d).rd .FB_POS_LO n = d.ssiValue n raw % 2 ^ 32 := by
  obtain ⟨hcnt, hmark, hregs⟩ := ssiTake_good d hmode hbits hext hgood
  have hrd : ∀ f : Fld, (ssiTake n low first raw par closing d).rd f n = d.rd f n := fun f => Dev.rdAt_congr f _ _ _ hregs
  obtain ⟨hscnt, hsmark, hpos, -⟩ := fbSample_ssi _ d.cyc.openAt ((hrd _).trans hmode) (by rwa [hrd])
  rw [ssiTransfer_samples d hmode hbits, hscnt, hsmark, hpos, hcnt]
  exact ⟨rfl, hmark, rfl⟩

theorem ssiTransfer_failed (hn : n < 18) (hbad : ¬d.ssiGood n low first raw par closing) :
    ((ssiTransfer n low first raw par closing d).fb n).cnt = (d.fb n).cnt ∧
      (ssiTransfer n low first raw par closing d).rd .FB_STAT_SSI_ERR n = 1 ∧
      (ssiTransfer n low first raw par closing d).rd .FB_STAT_FAULTY n = 1 := by
  obtain ⟨hcnt, hmark, herr, hrd⟩ := ssiTake_failed d hmode hbits hn hbad
  obtain ⟨hscnt, -, -, hfaulty, hsrd⟩ := fbSample_ssi _ d.cyc.openAt ((hrd _ (by decide)).trans hmode) (by rwa [hrd _ (by decide)])
  rw [ssiTransfer_samples d hmode hbits, hscnt, hcnt, hsrd _ (by decide), herr, hfaulty hmark]
  exact ⟨rfl, rfl, rfl⟩
end

/-! ### Analog inputs (R214) -/

theorem satS_16 {x : Int} (hlo : -32768 ≤ x) (hhi : x ≤ 32767) : satS 16 x = x := by
  rw [satS, clampI, if_neg (by omega), if_neg (by omega)]

theorem aiSample_shows (d : Dev) (c : Nat) {code : Int} (hlo : -32768 ≤ code) (hhi : code ≤ 32767) (cm : Bool) :
    ((aiSample c code cm d).field.ai.get c).last = code ∧
      ((aiSample c code cm d).field.ai.get c).num = (d.field.ai.get c).num + 1 ∧ (aiSample c code cm d).rd .AI_STAT_CM c = b2n cm := by
  unfold aiSample
  extract_lets v x sat range d1 d2 d3
  have h2 : d2.field = d1.field := by
    unfold d2
    split
    · exact raise_field _ _ _ _
    · rfl
  have h3 : d3.field = d1.field := by
    unfold d3
    split
    · rw [raise_field, h2]
    · exact h2
  have hai : d1.field.ai.get c = { d.field.ai.get c with
      satPrev := sat, last := v, lastBad := range || cm, sum := (d.field.ai.get c).sum + v, num := (d.field.ai.get c).num + 1
      bad := (d.field.ai.get c).bad || range || cm } := by simp [d1, Dev.updField]
  rw [Dev.wr_field, Dev.wr_field, h3, hai, Dev.rd_wr_same]
  refine ⟨satS_16 hlo hhi, rfl, ?_⟩
  cases cm <;> rfl

/-! ### Divider outputs (R215 to R217) -/

section
variable (d : Dev) {o : Nat}

@[simp] theorem Dev.po_updPo (u : PoSt → PoSt) : (d.updPo o u).field.po.get o = u (d.field.po.get o) := by simp [Dev.updPo, Dev.updField]

@[simp] theorem showPo_field : (showPo o d).field = d.field := rfl

theorem showPo_lag : (showPo o d).rd .PO_STAT_LAG o = b2n (decide ((d.field.po.get o).backlog ≠ 0)) := by
  rw [showPo, Dev.rd_wr_same]
  cases decide ((d.field.po.get o).backlog ≠ 0) <;> rfl

@[simp] theorem poShort_field : (poShort o d).field = d.field := by
  unfold poShort
  split
  · rfl
  · rw [raise_field, Dev.wr_field]

/-- `e` has the backlog, the output state and LAG of divider `o` as `d` has them. -/
def Dev.sameOut (d : Dev) (o : Nat) (e : Dev) : Prop :=
  (e.field.po.get o).backlog = (d.field.po.get o).backlog ∧ (e.field.po.get o).out = (d.field.po.get o).out ∧
    e.rd .PO_STAT_LAG o = d.rd .PO_STAT_LAG o

theorem Dev.sameOut.trans {d e x : Dev} (h : d.sameOut o e) (h' : e.sameOut o x) : d.sameOut o x := by
  obtain ⟨hback, hout, hlag⟩ := h
  obtain ⟨hback', hout', hlag'⟩ := h'
  exact ⟨hback'.trans hback, hout'.trans hout, hlag'.trans hlag⟩

theorem Dev.sameOut_updPo (run : PoSt → Nat) (time : PoSt → T96) :
    d.sameOut o (d.updPo o (fun y => { y with badRun := run y, badAt := time y })) := by
  rw [Dev.sameOut, Dev.po_updPo]
  exact ⟨rfl, rfl, rfl⟩

theorem poShort_sameOut (ho : o < 4) : d.sameOut o (poShort o d) := by
  rw [Dev.sameOut, poShort_field]
  refine ⟨rfl, rfl, ?_⟩
  unfold poShort
  split
  · rfl
  · rw [raise_rd_fbi rfl ⟨by simp only [Fld.PO_STAT_LAG]; omega, by decide⟩ _ (by decide), Dev.rd_wr_row _ _ _ (by decide)]

/-- The read-back of an edge counts wrong ones and may show or clear a short. -/
theorem poReadback_sameOut (ho : o < 4) (bad : Bool) (t : T96) : d.sameOut o (poReadback o bad t d) := by
  unfold poReadback
  extract_lets x d1 d2
  have h1 : d.sameOut o d1 := d.sameOut_updPo _ _
  have h2 : d.sameOut o d2 := d.sameOut_updPo _ _
  split
  · split
    · exact h1.trans (poShort_sameOut d1 ho)
    · exact h1
  · split
    · exact h2.trans ⟨rfl, rfl, Dev.rd_wr_row _ _ _ (by decide)⟩
    · exact h2

/-- An output that may step does so toward zero backlog, and LAG shows whether backlog is left. -/
theorem poStep_moves {t : T96} (bad : Bool) (ho : o < 4) (h : d.poMoves o t = true) :
    let y := d.field.po.get o
    let left := if 0 < y.backlog then y.backlog - 1 else y.backlog + 1
    ((poStep o t bad d).field.po.get o).backlog = left ∧
      ((poStep o t bad d).field.po.get o).out = (y.out + if 0 < y.backlog then 1 else 3) % 4 ∧
      (poStep o t bad d).rd .PO_STAT_LAG o = b2n (decide (left ≠ 0)) := by
  intro y left
  unfold poStep
  rw [if_neg (by simp [h])]
  extract_lets up
  obtain ⟨hback, hout, hlag⟩ := poReadback_sameOut (showPo o (d.updPo o (fun y => { y with
    backlog := if up then y.backlog - 1 else y.backlog + 1
    out := (y.out + (if up then 1 else 3)) % 4, lastEdge := t, z := y.zDue, zDue := false }))) ho bad t
  rw [hback, hout, hlag, showPo_lag, showPo_field, Dev.po_updPo]
  simp only [up, decide_eq_true_eq, left, y, and_self]

theorem poStep_rests {t : T96} (bad : Bool) (h : (d.field.po.get o).backlog = 0 ∨ d.rd .PO_NUM o = 0) : poStep o t bad d = d :=
  if_pos (by rcases h with h | h <;> simp [Dev.poMoves, h])
end

/-- Settles O50: the transfers, the conditions of a pair as they set and clear, the commands of a channel, a conversion, and the steps of
a divider output, each by its lemma. -/
theorem fieldSignals : Obligations.FieldSignals := by
  intro n m pair cls raw low first par closing cm c o code t e s
  have hm := m.isLt
  refine ⟨fun hmode hbits => ⟨fun hgood hext => ?_, fun hbad => ?_⟩, fun hrank => ?_, fun h0 hrank => ?_, fun hw h0 => ?_, fun hw => ?_, ?_,
    fun hw => ?_, fun hw => ?_, ?_, fun hlo hhi => ?_, fun h => ?_, fun hen hnum hsep htoile hw => ?_⟩
  · exact RunsDev.of_doDev (f := ssiTransfer n low first raw par closing) rfl (ssiTransfer_good _ hmode hbits hext hgood)
  · exact RunsDev.of_doDev (f := ssiTransfer n low first raw par closing) rfl
      (ssiTransfer_failed _ hmode hbits (Nat.lt_trans n.isLt (by decide)) hbad)
  · refine RunsDev.of_doDev (f := wireFault m pair cls) rfl ?_
    rw [wireFault_reported _ hrank, wireSets_wire _ hm cls.isLt, wireSets_wireCnt _ hm]
    exact ⟨rfl, rfl⟩
  · refine RunsDev.of_doDev (f := wireFault m pair cls) rfl ?_
    rw [wireFault_outranked _ h0 hrank]
    exact ⟨rfl, setCond_hasCond _ true⟩
  · exact RunsDev.of_doDev (f := wireClear m e.pair e.cls) rfl (wireClear_shown _ hm hw h0)
  · refine RunsDev.of_doDev (f := wireClear m e.pair e.cls) rfl ?_
    rw [wireClear_hidden _ hw]
    exact ⟨setCond_hasCond _ false, rfl⟩
  · exact RunsDev.of_doDev (f := armIndex m) rfl (Dev.rd_wr_same _ _ _ _)
  · refine RunsDev.of_doDev (f := clearRef m) rfl ?_
    rw [clearRef, if_neg (by rw [hw]; decide)]
    exact Dev.rd_wr_same _ _ _ _
  · exact RunsDev.of_doDev (f := clearRef m) rfl (if_pos hw)
  · refine RunsDev.of_doDev (f := clearFbCounters m) rfl ?_
    simp (disch := decide) only [clearFbCounters, Dev.rd_wr_row, Dev.rd_wr_same]
    exact ⟨rfl, rfl, rfl⟩
  · exact RunsDev.of_doDev (f := aiSample c code cm) rfl (aiSample_shows _ c hlo hhi cm)
  · exact RunsDev.of_doDev (f := poStep o t.time t.bad) rfl (poStep_rests _ _ h)
  · have hmoves : (s.part.dev.field.po.get o).backlog ≠ 0 → s.part.dev.poMoves o t.time = true :=
      fun h0 => by simp [Dev.poMoves, hen, hnum, hsep, htoile, hw, h0]
    refine ⟨fun hpos => ?_, fun hneg => ?_⟩
    · obtain ⟨hback, hout, hlag⟩ := poStep_moves s.part.dev t.bad o.isLt (hmoves (Int.ne_of_gt hpos))
      refine RunsDev.of_doDev (f := poStep o t.time t.bad) rfl ?_
      rw [hback, hout, hlag, if_pos hpos, if_pos hpos]
      exact ⟨rfl, rfl, by simp [b2n, Int.sub_eq_zero]⟩
    · obtain ⟨hback, hout, -⟩ := poStep_moves s.part.dev t.bad o.isLt (hmoves (Int.ne_of_lt hneg))
      refine RunsDev.of_doDev (f := poStep o t.time t.bad) rfl ?_
      rw [hback, hout, if_neg (Int.not_lt.mpr (Int.le_of_lt hneg)), if_neg (Int.not_lt.mpr (Int.le_of_lt hneg))]
      exact ⟨rfl, rfl⟩
end Sys2Proof.Machine
end

section
/-! PROOFS of the family 08_safety_plane: safety inputs, test pulses, output faults, contactor feedback and VFIELD; the safety cycle's
publication, self-tests, the hand-over, restart requests, degraded mode and the end of an SSM stop. -/

namespace Sys2Proof.Machine

/-! ### One bit of a register -/

theorem testBit_sub_two_pow {x i j : Nat} (h : x.testBit i = true) (hj : i ≠ j) : (x - 2 ^ i).testBit j = x.testBit j := by
  have hand : x &&& 2 ^ i = 2 ^ i := by
    refine Nat.eq_of_testBit_eq (fun k => ?_)
    rw [Nat.testBit_and, Nat.testBit_two_pow]
    by_cases hk : i = k
    · rw [← hk, h, Bool.true_and]
    · rw [decide_eq_false hk, Bool.and_false]
  rw [← hand, testBit_sub_and, Nat.testBit_two_pow_of_ne hj, Bool.not_false, Bool.and_true]

theorem bit_setBit_ne (x : Nat) {i j : Nat} (v : Bool) (hj : i ≠ j) : bit (setBit x i v) j = bit x j := by
  unfold setBit
  split
  · rfl
  · next h =>
    rw [bit_eq_testBit] at h
    rw [bit_eq_testBit, bit_eq_testBit]
    cases v with
    | true =>
      have hi : (2 ^ i + x).testBit i = true := by rw [Nat.testBit_two_pow_add_eq, Bool.eq_false_iff.mpr h, Bool.not_false]
      rw [if_pos rfl, Nat.add_comm, ← testBit_sub_two_pow hi hj, Nat.add_sub_cancel_left]
    | false => exact testBit_sub_two_pow (Bool.not_eq_false _ ▸ h) hj

theorem bit_setBit_of {x i j : Nat} {v : Bool} (h : i = j ∨ bit x j = v) : bit (setBit x i v) j = v := by
  by_cases hj : i = j
  · rw [hj, bit_setBit]
  · rw [bit_setBit_ne x v hj]
    exact h.resolve_left hj

theorem bit_mask {w j : Nat} (x : Nat) (h : j < w) : bit (mask w x) j = bit x j := by
  rw [bit_eq_testBit, bit_eq_testBit, mask, Nat.testBit_mod_two_pow, decide_eq_true h, Bool.true_and]

/-! ### A fold that meets one element -/

/-- A fold over a list with `x` ends in `P` where the step of `x` gives it, under a `Q` that the other steps keep, and every step
keeps it. -/
theorem forL_reaches {σ α : Type} {P Q : σ → Prop} {l : List α} {f : α → σ → σ} {x : α} (hx : x ∈ l)
    (hgive : ∀ s, Q s → P (f x s)) (hQ : ∀ y, y ≠ x → ∀ s, Q s → Q (f y s)) (hP : ∀ y s, P s → P (f y s)) {s : σ} (hs : Q s) :
    P (forL l f s) := by
  induction l generalizing s with
  | nil => cases hx
  | cons y t ih =>
    rw [forL_cons]
    by_cases hy : y = x
    · subst hy
      exact forL_keeps P t f (fun z _ => hP z) (hgive s hs)
    · exact ih ((List.mem_cons.mp hx).resolve_left (Ne.symm hy)) (hQ y hy s hs)

/-! ### The channels -/

section
variable (d : Dev) (c e : Chan)

theorem Dev.mem_chans : c ∈ d.chans ↔ (d.ch c).ok = true := by cases c <;> simp [Dev.chans]

theorem Dev.ch_updCh (f : ChanSt → ChanSt) : (d.updCh c f).ch e = if c = e then f (d.ch e) else d.ch e := by
  cases c <;> cases e <;> rfl

theorem Dev.ch_congr {d d' : Dev} (h : d'.saf = d.saf) (c : Chan) : d'.ch c = d.ch c := by cases c <;> simp only [Dev.ch, h]

theorem Dev.chans_congr {d d' : Dev} (h : ∀ c, d'.ch c = d.ch c) : d'.chans = d.chans := by simp only [Dev.chans, h]

/-- Passes both live channels through `g`. -/
def Dev.updLive (d : Dev) (g : ChanSt → ChanSt) : Dev :=
  d.updSaf (fun x => { x with a := if x.a.ok then g x.a else x.a, b := if x.b.ok then g x.b else x.b })

theorem bothChans_updCh (g : ChanSt → ChanSt) : bothChans (fun c d => d.updCh c g) d = d.updLive g := by
  unfold bothChans Dev.chans Dev.updLive
  cases ha : d.saf.a.ok <;> cases hb : d.saf.b.ok <;> simp [Dev.ch, ha, hb, forL, Dev.updCh, Dev.updSaf]

theorem Dev.ch_updLive (g : ChanSt → ChanSt) : (d.updLive g).ch c = if (d.ch c).ok then g (d.ch c) else d.ch c := by cases c <;> rfl

theorem Dev.ch_updLive_of_mem {c : Chan} (hc : c ∈ d.chans) (g : ChanSt → ChanSt) : (d.updLive g).ch c = g (d.ch c) := by
  rw [Dev.ch_updLive, if_pos ((d.mem_chans c).mp hc)]
end

/-! ### The units of a channel (R236, R249) -/

/-- Passes the units `us` of a channel through `g`. -/
def ChanSt.updUnits (x : ChanSt) (us : List Nat) (g : UnitSt → UnitSt) : ChanSt :=
  { x with units := forL us (fun u t => t.upd u g) x.units }

/-- STO of a unit at once, with the demand filed. -/
def UnitSt.toSto (s : SafSrc) (active : Bool) (x : UnitSt) : UnitSt :=
  { x with acts := addAct (act s .sto true active) x.acts, sto := true, stop := none, sos := none, lim := none, func := 6, scale := 0 }

/-- From `d` to `e` nothing of the safety plane but the units of the channels changes, and not the Pattern. -/
def Dev.onlyUnits (d e : Dev) : Prop :=
  e.pat = d.pat ∧ ∃ ua ub, e.saf = { d.saf with a := { d.saf.a with units := ua }, b := { d.saf.b with units := ub } }

/-- Every unit of a channel that is in STO in `d` is in STO in `e`. -/
def Dev.stoKept (d e : Dev) : Prop := ∀ c u, ((d.ch c).units.get u).sto = true → ((e.ch c).units.get u).sto = true

/-- In `e`, the units `us` are in STO in every channel that computes in `d`. -/
def Dev.stoIn (d : Dev) (us : List Nat) (e : Dev) : Prop := ∀ c ∈ d.chans, ∀ u ∈ us, ((e.ch c).units.get u).sto = true

section
variable {x : ChanSt} {us : List Nat} {g : UnitSt → UnitSt} {u : Nat} {P : UnitSt → Prop}

theorem ChanSt.updUnits_keeps (h : ∀ y, P y → P (g y)) (hx : P (x.units.get u)) : P ((x.updUnits us g).units.get u) := by
  refine forL_keeps (fun t : Tab UnitSt => P (t.get u)) us _ (fun v _ t ht => ?_) hx
  rw [Tab.get_upd]
  split
  · exact h _ ht
  · exact ht

theorem ChanSt.updUnits_gives (hu : u ∈ us) (h : ∀ y, P (g y)) : P ((x.updUnits us g).units.get u) := by
  refine forL_reaches (P := fun t : Tab UnitSt => P (t.get u)) (Q := fun _ => True) hu (fun t _ => ?_) (fun _ _ _ h => h)
    (fun v t ht => ?_) trivial
  · rw [Tab.get_upd, if_pos rfl]
    exact h _
  · rw [Tab.get_upd]
    split
    · exact h _
    · exact ht
end

section
variable (d : Dev) (us : List Nat)

theorem forL_updUnit (c : Chan) (g : UnitSt → UnitSt) : forL us (fun u d => d.updUnit c u g) d = d.updCh c (·.updUnits us g) := by
  induction us generalizing d with
  | nil => cases c <;> rfl
  | cons u t ih =>
    rw [forL_cons, ih]
    cases c <;> rfl

theorem demand_eq (a : SafAct) : demand us a d = d.updLive (·.updUnits us (fun x => { x with acts := addAct a x.acts })) := by
  simp only [demand, forL_updUnit, bothChans_updCh]

theorem endSource_eq (s : SafSrc) : endSource s d = d.updLive (·.updUnits safUnits (fun x => { x with acts := endAct s x.acts })) := by
  simp only [endSource, forL_updUnit, bothChans_updCh]

theorem stoNow_eq (s : SafSrc) (active : Bool) : stoNow us s active d = forL us showUnit (d.updLive (·.updUnits us (.toSto s active))) := by
  simp only [stoNow, forL_updUnit, bothChans_updCh]
  rfl

theorem Dev.updLive_onlyUnits (g : UnitSt → UnitSt) : d.onlyUnits (d.updLive (·.updUnits us g)) := by
  have hch : ∀ x : ChanSt, ∃ ux, (if x.ok then x.updUnits us g else x) = { x with units := ux } := fun x => by
    split
    · exact ⟨_, rfl⟩
    · exact ⟨_, rfl⟩
  obtain ⟨ua, ha⟩ := hch d.saf.a
  obtain ⟨ub, hb⟩ := hch d.saf.b
  exact ⟨rfl, ua, ub, by simp only [Dev.updLive, Dev.updSaf, ha, hb]⟩
end

/-! ### Who shows what: the registers of the safety plane (R222) -/

/-- A field of the first words of the SAF block, which are before the rows of its units and sensors, apart from the fields of `l`. -/
abbrev Fld.safApart (f : Fld) (l : List Fld) : Prop :=
  32 * 0xB0000 ≤ f.key .A 0 0 ∧ f.key .A 0 0 < 32 * 0xB0100 ∧ ∀ g ∈ l, g.key .A 0 0 ≠ f.key .A 0 0

section
variable {f g : Fld} {l : List Fld} (d : Dev)

theorem Fld.safApart.mono {l' : List Fld} (hf : f.safApart l) (h : l' ⊆ l) : f.safApart l' := by
  obtain ⟨hlo, hhi, hl⟩ := hf
  exact ⟨hlo, hhi, fun g hg => hl g (h hg)⟩

theorem Fld.safApart.rd_wr (hf : f.safApart l) (hg : g ∈ l) (v : Nat) : (d.wr g v).rd f = d.rd f := by
  obtain ⟨-, -, hl⟩ := hf
  exact Dev.rd_wr_ne _ _ _ _ (hl g hg)

theorem Fld.safApart.ne_of_out (hf : f.safApart l) {k : Nat} (hk : k < 32 * 0xB0000 ∨ 32 * 0xB0100 ≤ k) : f.key .A 0 0 ≠ k := by
  obtain ⟨hlo, hhi, -⟩ := hf
  omega

/-- A field before the SAF block, or of a row of it, whatever its index. -/
theorem Fld.safApart.rd_wr_low (hf : f.safApart l) (h : g.key .A 0 0 < 32 * 0xB0000) (v : Nat) : (d.wr g v).rd f = d.rd f :=
  Dev.rd_wr_ne _ _ _ _ (Ne.symm (hf.ne_of_out (.inl h)))

theorem Fld.safApart.rd_wr_row (hf : f.safApart l) (h : 32 * 0xB0100 ≤ g.key .A 0 0) (v i : Nat) : (d.wr g v i).rd f = d.rd f := by
  refine Dev.rd_wr_ne _ _ _ _ (Ne.symm (hf.ne_of_out (.inr ?_)))
  rw [Fld.key_row]
  exact Nat.le_add_right_of_le h

theorem Fld.safApart.calm (hf : f.safApart l) : f.calm .A 0 0 = true := by
  unfold Fld.calm
  rw [bne_iff_ne.mpr (hf.ne_of_out (by decide)), bne_iff_ne.mpr (hf.ne_of_out (by decide)), bne_iff_ne.mpr (hf.ne_of_out (by decide))]
  rfl

theorem Fld.safApart.notSrc (hf : f.safApart l) (q : Plane) {n : Nat} (hn : n < 512) : f.notSrc .A 0 0 q n = true := by
  have hne : ∀ {s : Fld}, s.blk = .icu → s.inside n 0 → (f.key .A 0 0 != s.key q n 0) = true := fun {s} hs hin => by
    have hview : viewBlk (s.key q n 0) ≠ 11 := by
      rw [viewBlk_key _ hin, hs]
      cases q <;> decide
    unfold viewBlk at hview
    exact bne_iff_ne.mpr (hf.ne_of_out (by omega))
  unfold Fld.notSrc
  rw [hne rfl ⟨by simp only [Fld.ICU_SRC_PEND]; omega, by decide⟩, hne rfl ⟨by simp only [Fld.ICU_SRC_MERGED]; omega, by decide⟩]
  rfl

theorem hostVector_rd_saf (hf : f.safApart []) (v : Nat) : (hostVector v d).rd f = d.rd f := hostVector_rdAt d v hf.calm

theorem icuBoth_rd_saf (hf : f.safApart []) {n : Nat} (hn : n < 512) : (icuBoth n d).rd f = d.rd f :=
  icuBoth_rdAt d n (hf.notSrc .A hn) (hf.notSrc .B hn)
end

/-! ### What a code, a shown unit and the shown inputs leave (R23, R222) -/

section
variable {f : Fld} {c : Code} {w : Nat} {p : List Int} (d : Dev)

@[simp] theorem raiseSaf_saf : (raiseSaf c w p d).saf = d.saf := by
  unfold raiseSaf
  dsimp only
  split <;> exact raise_saf _ _ _ _

@[simp] theorem raiseSaf_pat : (raiseSaf c w p d).pat = d.pat := by
  unfold raiseSaf
  dsimp only
  split <;> exact raise_pat _ _ _ _

theorem raiseSaf_rd (hf : f.safApart [.SAF_STATE_LAST_FAULT]) (hc : ∀ n ∈ c.irq, n < 512) : (raiseSaf c w p d).rd f = d.rd f := by
  have hraise : (raise c w p d).rd f = d.rd f := raise_rdAt d c w p hf.calm (fun q n hn => hf.notSrc q (hc n hn))
  unfold raiseSaf
  dsimp only
  split
  · rw [hf.rd_wr _ (List.mem_singleton_self _), hraise]
  · exact hraise

theorem raiseSaf_lastFault (hk : c.kind = .fault) (hc : c.num < 65536) : (raiseSaf c w p d).rd .SAF_STATE_LAST_FAULT = c.num := by
  unfold raiseSaf
  simp only [hk]
  rw [Dev.rd_wr_same]
  exact Nat.mod_eq_of_lt hc

@[simp] theorem showUnit_saf (u : Nat) : (showUnit u d).saf = d.saf := by
  unfold showUnit
  extract_lets _ _ _ arm _ _ group
  split <;> split
  · rfl
  · exact icuBoth_saf arm _
  · rfl
  · exact icuBoth_saf group _

@[simp] theorem showUnit_pat (u : Nat) : (showUnit u d).pat = d.pat := by
  unfold showUnit
  extract_lets _ _ _ arm _ _ group
  split <;> split
  · rfl
  · exact icuBoth_pat arm _
  · rfl
  · exact icuBoth_pat group _

theorem showUnit_rd (hf : f.safApart []) (u : Nat) : (showUnit u d).rd f = d.rd f := by
  unfold showUnit
  extract_lets _ _ _ arm _ _ group
  have harm : arm.rd f = d.rd f := by simp (disch := decide) only [arm, hf.rd_wr_row]
  have hgroup : group.rd f = d.rd f := by simp (disch := decide) only [group, hf.rd_wr_row]
  split <;> split
  · exact harm
  · rw [hostVector_rd_saf _ hf, icuBoth_rd_saf _ hf (by decide), harm]
  · exact hgroup
  · rw [icuBoth_rd_saf _ hf (by decide), hgroup]

@[simp] theorem showSi_saf : (showSi d).saf = d.saf := rfl
@[simp] theorem showSi_pat : (showSi d).pat = d.pat := rfl

theorem showSi_rd (hf : f.safApart [.SAF_SI_LEVEL, .SAF_SI_DEMAND, .SAF_SI_DISC]) : (showSi d).rd f = d.rd f := by
  rw [showSi, hf.rd_wr _ (by simp), hf.rd_wr _ (by simp), hf.rd_wr _ (by simp)]

@[simp] theorem showSsm_saf (arm : Nat) : (showSsm arm d).saf = d.saf := rfl
end

/-! ### STO at once and outputs off (R221, R230, R231) -/

section
variable {f : Fld} {us : List Nat} {s : SafSrc} {active : Bool} (d : Dev)

theorem forL_showUnit_same : (forL us showUnit d).saf = d.saf ∧ (forL us showUnit d).pat = d.pat :=
  forL_keeps (fun e => e.saf = d.saf ∧ e.pat = d.pat) us showUnit (fun u _ e he => by rwa [showUnit_saf, showUnit_pat]) ⟨rfl, rfl⟩

theorem stoNow_rd (hf : f.safApart []) : (stoNow us s active d).rd f = d.rd f := by
  rw [stoNow_eq]
  exact forL_keeps (fun e => e.rd f = d.rd f) us showUnit (fun u _ e he => (showUnit_rd e hf u).trans he)
    (s := d.updLive _) rfl

theorem stoNow_ch (c : Chan) :
    (stoNow us s active d).ch c = if (d.ch c).ok then (d.ch c).updUnits us (.toSto s active) else d.ch c := by
  rw [stoNow_eq, Dev.ch_congr (forL_showUnit_same _).1, Dev.ch_updLive]

theorem stoNow_onlyUnits : d.onlyUnits (stoNow us s active d) := by
  rw [stoNow_eq, Dev.onlyUnits, (forL_showUnit_same _).1, (forL_showUnit_same _).2]
  exact d.updLive_onlyUnits us _

theorem stoNow_stoIn : d.stoIn us (stoNow us s active d) := fun c hc u hu => by
  rw [stoNow_ch, if_pos ((d.mem_chans c).mp hc)]
  exact ChanSt.updUnits_gives (P := fun x => x.sto = true) hu (fun _ => rfl)

theorem stoNow_stoKept : d.stoKept (stoNow us s active d) := fun c u h => by
  rw [stoNow_ch]
  split
  · exact ChanSt.updUnits_keeps (P := fun x => x.sto = true) (fun _ _ => rfl) h
  · exact h

@[simp] theorem outOff_ch (n : Nat) (c : Chan) : (outOff n d).ch c = d.ch c := by cases c <;> rfl

theorem outOff_rd (hf : f.safApart [.SAF_SO_ON]) (n : Nat) : (outOff n d).rd f = d.rd f := hf.rd_wr d (List.mem_singleton_self _) _

theorem outOff_on (n : Nat) : (outOff n d).rd .SAF_SO_ON = mask 8 (setBit (d.rd .SAF_SO_ON) n false) := Dev.rd_wr_same _ _ _ _

/-- An output that is switched off is off, and one that was off stays off. -/
theorem outOff_bit {n j : Nat} (hj : j < 8) (h : n = j ∨ bit (d.rd .SAF_SO_ON) j = false) :
    bit ((outOff n d).rd .SAF_SO_ON) j = false := by rw [outOff_on, bit_mask _ hj, bit_setBit_of h]

theorem outsOff_bit {j : Nat} (hj : j < 8) : bit ((outsOff d).rd .SAF_SO_ON) j = false :=
  forL_reaches (P := fun e => bit (e.rd .SAF_SO_ON) j = false) (Q := fun _ => True) (List.mem_range.mpr hj)
    (fun e _ => outOff_bit e hj (.inl rfl)) (fun _ _ _ h => h) (fun _ e he => outOff_bit e hj (.inr he)) trivial

theorem outsOff_rd (hf : f.safApart [.SAF_SO_ON]) : (outsOff d).rd f = d.rd f :=
  forN_keeps (fun e => e.rd f = d.rd f) 8 outOff (fun n _ e he => (outOff_rd e hf n).trans he) rfl

theorem outsOff_saf : ∃ l, (outsOff d).saf = { d.saf with edJudged := l } :=
  forN_keeps (fun e => ∃ l, e.saf = { d.saf with edJudged := l }) 8 outOff
    (fun n _ e ⟨l, he⟩ => ⟨l.filter (fun x => Sparse.find e.pat.safety.edOut x != some n), by simp [outOff, Dev.updSaf, Dev.wr, he]⟩)
    ⟨d.saf.edJudged, rfl⟩

theorem outsOff_ch (c : Chan) : (outsOff d).ch c = d.ch c := by
  obtain ⟨l, hl⟩ := outsOff_saf d
  cases c <;> simp only [Dev.ch, hl]
end

/-! ### No channel can monitor (R224) -/

section
variable {f : Fld} {s : SafSrc} (d : Dev)

theorem stopAll_bit {j : Nat} (hj : j < 8) : bit ((stopAll s d).rd .SAF_SO_ON) j = false := by
  rw [stopAll, stoNow_rd _ (by decide)]
  exact outsOff_bit d hj

theorem stopAll_rd (hf : f.safApart [.SAF_SO_ON]) : (stopAll s d).rd f = d.rd f := by
  rw [stopAll, stoNow_rd _ (hf.mono (List.nil_subset _)), outsOff_rd d hf]

theorem stopAll_stoIn : d.stoIn safUnits (stopAll s d) := fun c hc =>
  stoNow_stoIn (outsOff d) c (by rwa [Dev.chans_congr (outsOff_ch d)])

theorem stopAll_saf : ∃ l ua ub, (stopAll s d).saf =
    { d.saf with edJudged := l, a := { d.saf.a with units := ua }, b := { d.saf.b with units := ub } } := by
  obtain ⟨l, hl⟩ := outsOff_saf d
  obtain ⟨-, ua, ub, h⟩ := stoNow_onlyUnits (us := safUnits) (s := s) (active := true) (outsOff d)
  exact ⟨l, ua, ub, by rw [stopAll, h, hl]⟩
end

/-! ### Output faults (R231) -/

/-- In `e` output `n` shows its fault, is off, and its units are in STO in every channel that computes in `d`. -/
def Dev.outFaulted (d : Dev) (n : Nat) (e : Dev) : Prop :=
  bit (e.rd .SAF_SO_FLT) n = true ∧ bit (e.rd .SAF_SO_ON) n = false ∧ d.stoIn (d.unitsOfOut n) e

section
variable {n m : Nat} {c : Code} (hc : ∀ k ∈ c.irq, k < 512) (d : Dev)
include hc

/-- Once its code is raised, an output fault switches the output off and puts its units into STO. -/
theorem outFault_acts : ∃ e, outFault n c d = stoNow (d.unitsOfOut n) (.output n) true (outOff n e) ∧ (∀ x, e.ch x = d.ch x) ∧
    e.rd .SAF_SO_FLT = mask 8 (setBit (d.rd .SAF_SO_FLT) n true) ∧ e.rd .SAF_SO_ON = d.rd .SAF_SO_ON := by
  refine ⟨_, rfl, ?_⟩
  split
  · exact ⟨fun x => by cases x <;> rfl, Dev.rd_wr_same _ _ _ _, Dev.rd_wr_ne _ _ _ _ (by decide)⟩
  · refine ⟨fun x => ?_, ?_, ?_⟩
    · cases x <;> simp [Dev.ch, Dev.updSaf, Dev.wr]
    · exact (raiseSaf_rd _ (by decide) hc).trans (Dev.rd_wr_same _ _ _ _)
    · exact (raiseSaf_rd _ (by decide) hc).trans (Dev.rd_wr_ne _ _ _ _ (by decide))

theorem outFault_stoKept : d.stoKept (outFault n c d) := fun x u h => by
  obtain ⟨e, he, hch, -⟩ := outFault_acts (n := n) hc d
  rw [he]
  exact stoNow_stoKept _ x u (by rwa [outOff_ch, hch])

theorem outFault_fltBit {j : Nat} (hj : j < 8) (h : n = j ∨ bit (d.rd .SAF_SO_FLT) j = true) :
    bit ((outFault n c d).rd .SAF_SO_FLT) j = true := by
  obtain ⟨e, he, -, hflt, -⟩ := outFault_acts (n := n) hc d
  rw [he, stoNow_rd _ (by decide), outOff_rd _ (by decide), hflt, bit_mask _ hj, bit_setBit_of h]

theorem outFault_onBit {j : Nat} (hj : j < 8) (h : n = j ∨ bit (d.rd .SAF_SO_ON) j = false) :
    bit ((outFault n c d).rd .SAF_SO_ON) j = false := by
  obtain ⟨e, he, -, -, hon⟩ := outFault_acts (n := n) hc d
  rw [he, stoNow_rd _ (by decide), outOff_bit e hj (by rwa [hon])]

theorem outFault_faulted (hn : n < 8) : d.outFaulted n (outFault n c d) := by
  refine ⟨outFault_fltBit hc d hn (.inl rfl), outFault_onBit hc d hn (.inl rfl), fun x hx => ?_⟩
  obtain ⟨e, he, hch, -⟩ := outFault_acts (n := n) hc d
  rw [he]
  exact stoNow_stoIn _ x (by rwa [Dev.chans_congr (fun y => (outOff_ch e n y).trans (hch y))])
end

/-- Another output that sees the pulse in its read-back does not take the fault of output `n` away. -/
theorem soCross_keeps_faulted {d e : Dev} {n m k : Nat} (hn : n < 8) (h : d.outFaulted n e) : d.outFaulted n (soCross k m e) := by
  obtain ⟨hflt, hon, hsto⟩ := h
  have hc : ∀ i ∈ Code.SO_CROSS.irq, i < 512 := by decide
  refine ⟨?_, ?_, fun c hx u hu => stoNow_stoKept _ c u ?_⟩
  · rw [soCross, stoNow_rd _ (by decide), outOff_rd _ (by decide)]
    exact outFault_fltBit hc e hn (.inr hflt)
  · rw [soCross, stoNow_rd _ (by decide)]
    exact outOff_bit _ hn (.inr (outFault_onBit hc e hn (.inr hon)))
  · rw [outOff_ch]
    exact outFault_stoKept hc e c u (hsto c hx u hu)

section
variable {n : Nat} {high : Bool} {cross : List Nat} (d : Dev)

theorem soTestPulse_off (h : bit (d.rd .SAF_SO_ON) n = false) : soTestPulse n high cross d = d := by simp [soTestPulse, h]

theorem soTestPulse_low : soTestPulse n false [] d = d := by
  unfold soTestPulse
  split <;> rfl

theorem soTestPulse_high (hn : n < 8) (h : bit (d.rd .SAF_SO_ON) n = true) : d.outFaulted n (soTestPulse n true cross d) := by
  unfold soTestPulse
  rw [if_neg (by simp [h]), if_pos rfl]
  exact forL_keeps (d.outFaulted n) _ (soCross n) (fun m _ e he => soCross_keeps_faulted hn he) (outFault_faulted (by decide) d hn)

theorem soReadback_faulted (hn : n < 8) (h : bit (d.rd .SAF_SO_ON) n = true ∨ high = true) : d.outFaulted n (soReadback n high d) := by
  unfold soReadback
  extract_lets rb
  have hfault : ∀ c : Code, (∀ k ∈ c.irq, k < 512) → d.outFaulted n (outFault n c rb) := fun c hc => by
    obtain ⟨hflt, hon, hsto⟩ := outFault_faulted hc rb hn
    exact ⟨hflt, hon, by rwa [Dev.stoIn, Dev.chans_congr (d := d) (fun x => by cases x <;> rfl)] at hsto⟩
  split
  · exact hfault _ (by decide)
  · next hoff =>
    rw [if_pos (h.resolve_left hoff)]
    exact hfault _ (by decide)
end

/-! ### VFIELD (R231, R545) -/

section
variable {c : Code} (d : Dev)

theorem vfieldBad_eq : vfieldBad c d = stopAll .vfield ((raiseSaf c wField [] d).updSaf (fun x => { x with vfieldBad := true })) := rfl

/-- VFIELD out of its range: every output off, STO everywhere, and the code of the condition. -/
theorem vfieldBad_stops (hk : c.kind = .fault) (hc : c.num < 65536) : (vfieldBad c d).saf.vfieldBad = true ∧
    (∀ j, j < 8 → bit ((vfieldBad c d).rd .SAF_SO_ON) j = false) ∧ d.stoIn safUnits (vfieldBad c d) ∧
    (vfieldBad c d).rd .SAF_STATE_LAST_FAULT = c.num := by
  rw [vfieldBad_eq]
  refine ⟨?_, fun j hj => stopAll_bit _ hj, fun x hx => stopAll_stoIn _ x ?_, ?_⟩
  · obtain ⟨l, ua, ub, h⟩ := stopAll_saf (s := .vfield) ((raiseSaf c wField [] d).updSaf (fun x => { x with vfieldBad := true }))
    rw [h]
    rfl
  · rwa [Dev.chans_congr (d := d) (fun y => by cases y <;> simp [Dev.ch, Dev.updSaf])]
  · rw [stopAll_rd _ (by decide)]
    exact raiseSaf_lastFault d hk hc
end

theorem vfieldBack_only (d : Dev) : (vfieldBack d).saf.vfieldBad = false ∧ (vfieldBack d).regs = d.regs := by
  rw [vfieldBack, endSource_eq]
  exact ⟨rfl, rfl⟩

/-! ### Contactor feedback (R233, R234) -/

section
variable {e out : Nat} (d : Dev) (hout : Sparse.find d.pat.safety.edOut e = some out)
include hout

/-- Once its code is raised and the lockout shown, a contactor that did not drop puts the units of its output into STO. -/
theorem edLock_acts : ∃ x, edLock e d = stoNow (d.unitsOfOut out) (.lock e) true x ∧ (∀ c, x.ch c = d.ch c) ∧
    x.rd .SAF_ED_LOCK = mask 8 (setBit (d.rd .SAF_ED_LOCK) e true) ∧ x.rd .SAF_STATE_LOCKOUT = 1 := by
  unfold edLock
  extract_lets d1
  have hrd : ∀ f : Fld, f.safApart [.SAF_STATE_LAST_FAULT] →
      d1.rd f = ((d.wr .SAF_ED_LOCK (setBit (d.rd .SAF_ED_LOCK) e true)).wr .SAF_STATE_LOCKOUT 1).rd f := fun f hf => by
    rw [raiseSaf_rd _ hf (by decide), hostVector_rd_saf _ (hf.mono (List.nil_subset _))]
  have hsaf : d1.saf = d.saf := (raiseSaf_saf _).trans (hostVector_saf _ _)
  clear_value d1
  rw [hout]
  refine ⟨_, rfl, fun c => ?_, (hrd .SAF_ED_LOCK (by decide)).trans ?_, (hrd .SAF_STATE_LOCKOUT (by decide)).trans ?_⟩
  · rw [← Dev.ch_congr hsaf]
    cases c <;> rfl
  · rw [Dev.rd_wr_ne _ _ _ _ (by decide), Dev.rd_wr_same]
    rfl
  · rw [Dev.rd_wr_same]
    rfl

theorem edmWindow_locks (he : e < 8) (hoff : bit (d.rd .SAF_SO_ON) out = false) (hlock : bit (d.rd .SAF_ED_LOCK) e = false) :
    bit ((edmWindow e false d).rd .SAF_ED_LOCK) e = true ∧ (edmWindow e false d).rd .SAF_STATE_LOCKOUT = 1 ∧
      d.stoIn (d.unitsOfOut out) (edmWindow e false d) := by
  have hjudged : edmWindow e false d = edLock e d := by simp [edmWindow, hout, hoff, hlock]
  obtain ⟨x, hx, hch, hbit, hshown⟩ := edLock_acts d hout
  rw [hjudged, hx, stoNow_rd _ (by decide), stoNow_rd _ (by decide), hbit, bit_mask _ he, bit_setBit]
  exact ⟨rfl, hshown, fun c hc => stoNow_stoIn x c (by rwa [Dev.chans_congr hch])⟩

theorem edmWindow_dropped (hoff : bit (d.rd .SAF_SO_ON) out = false) : edmWindow e true d = d := by simp [edmWindow, hout, hoff]

theorem edmWindow_judged (hon : bit (d.rd .SAF_SO_ON) out = true) :
    e ∈ (edmWindow e false d).saf.edJudged ∧ (edmWindow e false d).regs = d.regs := by
  simp only [edmWindow, hout, hon, if_true, Bool.false_eq_true, if_false]
  exact ⟨List.mem_cons_self, rfl⟩
end

/-! ### Pairs of safety inputs (R226 to R228) -/

/-- From `d` to `e` the Pattern, the faulty TPs, the live channels and their levels stay, and a latched pair stays latched. -/
structure Dev.InputsKept (d e : Dev) : Prop where
  pat : e.pat = d.pat
  tpBad : e.saf.tpBad = d.saf.tpBad
  ok : ∀ c, (e.ch c).ok = (d.ch c).ok
  lvl : ∀ c, (e.ch c).lvl = (d.ch c).lvl
  disc : ∀ c j, bit (d.ch c).disc j = true → bit (e.ch c).disc j = true

/-- Pair `i` is latched in the channels `cs`. -/
def Dev.latched (cs : List Chan) (i : Nat) (d : Dev) : Prop := ∀ c ∈ cs, bit (d.ch c).disc i = true

section
variable {d e : Dev}

theorem Dev.InputsKept.refl (d : Dev) : d.InputsKept d := ⟨rfl, rfl, fun _ => rfl, fun _ => rfl, fun _ _ h => h⟩

theorem Dev.InputsKept.trans {x : Dev} (h : d.InputsKept e) (h' : e.InputsKept x) : d.InputsKept x :=
  ⟨h'.pat.trans h.pat, h'.tpBad.trans h.tpBad, fun c => (h'.ok c).trans (h.ok c), fun c => (h'.lvl c).trans (h.lvl c),
    fun c j hj => h'.disc c j (h.disc c j hj)⟩

theorem Dev.InputsKept.of_ch (hp : e.pat = d.pat) (ht : e.saf.tpBad = d.saf.tpBad) (hc : ∀ c, e.ch c = d.ch c) : d.InputsKept e :=
  ⟨hp, ht, fun c => by rw [hc], fun c => by rw [hc], fun c j hj => by rwa [hc]⟩

theorem Dev.InputsKept.chans (h : d.InputsKept e) : e.chans = d.chans := by simp only [Dev.chans, h.ok]

theorem pairLatch_kept (i : Nat) (c : Chan) (d : Dev) : d.InputsKept (pairLatch i c d) := by
  refine ⟨by cases c <;> rfl, by cases c <;> rfl, fun x => ?_, fun x => ?_, fun x j hj => ?_⟩ <;> rw [pairLatch, Dev.ch_updCh] <;> split
  · rfl
  · rfl
  · rfl
  · rfl
  · exact bit_setBit_of (.inr hj)
  · exact hj

theorem forL_pairLatch_kept (cs : List Chan) (i : Nat) (d : Dev) : d.InputsKept (forL cs (pairLatch i) d) :=
  forL_keeps d.InputsKept cs (pairLatch i) (fun c _ _ h => h.trans (pairLatch_kept i c _)) (.refl d)

theorem forL_pairLatch_regs (cs : List Chan) (i : Nat) (d : Dev) : (forL cs (pairLatch i) d).regs = d.regs :=
  forL_keeps (fun e => e.regs = d.regs) cs (pairLatch i) (fun c _ e h => by cases c <;> exact h) rfl

theorem forL_pairLatch_latched (cs : List Chan) (i : Nat) (d : Dev) : (forL cs (pairLatch i) d).latched cs i := fun c hc =>
  forL_reaches (P := fun e => bit (e.ch c).disc i = true) (Q := fun _ => True) hc
    (fun e _ => by rw [pairLatch, Dev.ch_updCh, if_pos rfl]; exact bit_setBit _ _ _) (fun _ _ _ h => h)
    (fun x e he => (pairLatch_kept i x e).disc c i he) trivial
end

/-- The levels of a channel that count, and those that its comparator reads. -/
def ChanSt.levels (x : ChanSt) : Nat × Nat := (x.lvl, x.raw)

/-- The read level of input `n` counts. -/
def takeLevel (n : Nat) (l : Nat × Nat) : Nat × Nat := (setBit l.1 n (bit l.2 n), l.2)

theorem takeLevel_takeLevel (n : Nat) (l : Nat × Nat) : takeLevel n (takeLevel n l) = takeLevel n l := by
  refine Prod.ext ?_ rfl
  exact if_pos (bit_setBit _ _ _)

section
variable {i : Nat} (d : Dev)

theorem siEdge_raw (n : Nat) (hiA hiB : Bool) :
    bit ((siEdge n hiA hiB d).ch .a).raw n = hiA ∧ bit ((siEdge n hiA hiB d).ch .b).raw n = hiB :=
  ⟨bit_setBit _ _ _, bit_setBit _ _ _⟩

theorem pairProgress_levels (c x : Chan) : ((pairProgress c i d).ch x).levels = (d.ch x).levels := by
  have hupd : ∀ g : ChanSt → ChanSt, (∀ y, (g y).levels = y.levels) → ((d.updCh c g).ch x).levels = (d.ch x).levels := fun g hg => by
    rw [Dev.ch_updCh]
    split
    · exact hg _
    · rfl
  unfold pairProgress
  extract_lets
  split
  · rfl
  · split
    · exact hupd _ (fun _ => rfl)
    · split
      · exact hupd _ (fun _ => rfl)
      · rfl

theorem siFilter_levels {c : Chan} (hc : c ∈ d.chans) (n : Nat) : ((siFilter n d).ch c).levels = takeLevel n (d.ch c).levels := by
  rw [siFilter, Dev.ch_congr (showSi_saf _)]
  have hch : ∀ x, (d.updSaf (fun x => { x with missTp := x.missTp.set n 0 })).ch x = d.ch x := fun x => by cases x <;> rfl
  refine (forL_read (fun e : Dev => (e.ch c).levels) (takeLevel n) (k := c) (by rwa [Dev.chans_congr hch]) (fun e => ?_) (fun x hx e => ?_)
    (takeLevel_takeLevel n) _).trans (by rw [hch])
  · rw [pairProgress_levels, Dev.ch_updCh, if_pos rfl]
    rfl
  · rw [pairProgress_levels, Dev.ch_updCh, if_neg hx]

/-- The channels in which pair `i` does not agree. -/
def Dev.disagreeing (d : Dev) (i : Nat) : List Chan := d.chans.filter (fun c => d.inDemand c (2 * i) != d.inDemand c (2 * i + 1))

theorem Dev.disagreeing_isEmpty :
    (d.disagreeing i).isEmpty = !d.chans.any (fun c => d.inDemand c (2 * i) != d.inDemand c (2 * i + 1)) := by
  rw [Dev.disagreeing, Bool.eq_iff_iff, List.isEmpty_iff, List.filter_eq_nil_iff]
  simp

theorem pairDiscrep_agrees (h : d.chans.any (fun c => d.inDemand c (2 * i) != d.inDemand c (2 * i + 1)) = false) :
    pairDiscrep i d = d := if_pos ((d.disagreeing_isEmpty).trans (by rw [h, Bool.not_false]))

theorem pairDiscrep_latches (h : d.chans.any (fun c => d.inDemand c (2 * i) != d.inDemand c (2 * i + 1)) = true) :
    (pairDiscrep i d).rd .SAF_STATE_LAST_FAULT = Code.PAIR_DISCREP.num ∧ (pairDiscrep i d).latched (d.disagreeing i) i := by
  have hfound : pairDiscrep i d = showSi (forL (d.disagreeing i) (pairLatch i) (raiseSaf .PAIR_DISCREP d.safWriter [i] d)) :=
    if_neg (by rw [← Dev.disagreeing, d.disagreeing_isEmpty, h]; decide)
  rw [hfound]
  refine ⟨?_, fun c hc => ?_⟩
  · rw [showSi_rd _ (by decide), Dev.rd_eq, Dev.rdAt_congr _ _ _ _ (forL_pairLatch_regs _ _ _)]
    exact raiseSaf_lastFault d rfl (by decide)
  · rw [Dev.ch_congr (showSi_saf _)]
    exact forL_pairLatch_latched _ _ _ c hc

theorem Dev.pairDemand_of_disc {c : Chan} (h : bit (d.ch c).disc i = true) : d.pairDemand c i = true := by simp [Dev.pairDemand, h]

theorem Dev.pairDemand_of_tpBad {n k : Nat} (hn : Sparse.find d.pat.safety.tpOf n = some k) (hk : d.saf.tpBad.contains k = true)
    (c : Chan) : d.pairDemand c (n / 2) = true := by
  have hmem : n ∈ [2 * (n / 2), 2 * (n / 2) + 1] := by
    rw [List.mem_cons, List.mem_singleton]
    omega
  unfold Dev.pairDemand
  rw [Bool.or_eq_true, List.any_eq_true]
  exact .inr ⟨n, hmem, by rw [hn]; exact hk⟩
end

/-! ### Test pulses (R229) -/

/-- From `d` to `e` the test-pulse record of input `n` changes, a code may be raised, and no more. -/
def Dev.sawTp (d : Dev) (n : Nat) (e : Dev) : Prop :=
  e.pat = d.pat ∧ ∃ t l, e.saf = { d.saf with missTp := t, foreign := l } ∧ ∀ m, m ≠ n → t.get m = d.saf.missTp.get m

section
variable {k seen n own : Nat} {d e : Dev}

theorem Dev.sawTp.ch_eq (h : d.sawTp n e) (c : Chan) : e.ch c = d.ch c := by
  obtain ⟨-, t, l, hs, -⟩ := h
  cases c <;> simp only [Dev.ch, hs]

theorem Dev.sawTp.kept (h : d.sawTp n e) : d.InputsKept e := by
  refine .of_ch h.1 ?_ h.ch_eq
  obtain ⟨-, t, l, hs, -⟩ := h
  rw [hs]

theorem Dev.sawTp.missTp_ne (h : d.sawTp n e) {m : Nat} (hm : m ≠ n) : e.saf.missTp.get m = d.saf.missTp.get m := by
  obtain ⟨-, t, l, hs, ht⟩ := h
  rw [hs]
  exact ht m hm

theorem Dev.sawTp.raised (h : d.sawTp n e) (c : Code) (w : Nat) (p : List Int) : d.sawTp n (raiseSaf c w p e) := by
  rwa [Dev.sawTp, raiseSaf_pat, raiseSaf_saf]

theorem Dev.sawTp.ite {p : Prop} [Decidable p] {e' : Dev} (h : d.sawTp n e) (h' : d.sawTp n e') : d.sawTp n (if p then e else e') := by
  split
  · exact h
  · exact h'

theorem Dev.sawTp_updSaf (miss : Nat) (l : List (Nat × Nat)) :
    d.sawTp n (d.updSaf (fun x => { x with missTp := x.missTp.set n miss, foreign := l })) :=
  ⟨rfl, _, _, rfl, fun _ hm => Tab.get_set_ne _ _ (Ne.symm hm)⟩

/-- At a pulse the record of an input changes, and its pair may latch in every live channel. -/
theorem tpInput_cases (k seen n : Nat) (d : Dev) :
    ∃ e, d.sawTp n e ∧ (tpInput k seen n d = e ∨ tpInput k seen n d = bothChans (pairLatch (n / 2)) e) := by
  unfold tpInput
  extract_lets high sees old
  split
  · exact ⟨d, ⟨rfl, _, _, rfl, fun _ _ => rfl⟩, .inl rfl⟩
  · next own _ =>
    split
    · exact ⟨d, ⟨rfl, _, _, rfl, fun _ _ => rfl⟩, .inl rfl⟩
    · extract_lets miss cross d1
      have h1 : d.sawTp n d1 := Dev.sawTp_updSaf _ _
      split
      · exact ⟨_, h1.ite (h1.raised _ _ _), .inr rfl⟩
      · split
        · exact ⟨_, (h1.raised _ _ _).ite h1, .inr rfl⟩
        · exact ⟨d1, h1, .inl rfl⟩

theorem tpInput_kept (k seen n : Nat) (d : Dev) : d.InputsKept (tpInput k seen n d) := by
  obtain ⟨e, he, h | h⟩ := tpInput_cases k seen n d <;> rw [h]
  · exact he.kept
  · exact he.kept.trans (forL_pairLatch_kept _ _ _)

theorem tpInput_missTp {m : Nat} (hm : m ≠ n) : (tpInput k seen n d).saf.missTp.get m = d.saf.missTp.get m := by
  obtain ⟨e, he, h | h⟩ := tpInput_cases k seen n d <;> rw [h]
  · exact he.missTp_ne hm
  · have hlatch : (bothChans (pairLatch (n / 2)) e).saf.missTp = e.saf.missTp :=
      forL_keeps (fun x : Dev => x.saf.missTp = e.saf.missTp) _ _ (fun c _ x hx => by cases c <;> exact hx) rfl
    rw [hlatch]
    exact he.missTp_ne hm

/-- An input that reads high sees the pulse of another output, or misses a pulse of its own again: what latches its pair. -/
def Dev.tpLatches (d : Dev) (k seen n : Nat) : Prop :=
  ∃ own, Sparse.find d.pat.safety.tpOf n = some own ∧ d.chans.any (fun c => bit (d.ch c).lvl n) = true ∧
    (own ≠ k ∧ bit seen n = true ∨ own = k ∧ bit seen n = false ∧ 1 ≤ d.saf.missTp.get n)

theorem tpInput_latches (h : d.tpLatches k seen n) : (tpInput k seen n d).latched d.chans (n / 2) := by
  obtain ⟨own, hown, hhigh, hsees⟩ := h
  have hboth : ∃ e, d.sawTp n e ∧ tpInput k seen n d = bothChans (pairLatch (n / 2)) e := by
    unfold tpInput
    extract_lets high sees old
    split
    · next hnone => cases hown.symm.trans hnone
    · next own' hown' =>
      obtain rfl : own = own' := Option.some.inj (hown.symm.trans hown')
      rw [if_neg (by simp [high, hhigh])]
      extract_lets miss cross d1
      have h1 : d.sawTp n d1 := Dev.sawTp_updSaf _ _
      rcases hsees with ⟨hk, hsees⟩ | ⟨hk, hsees, hmiss⟩
      · rw [if_pos (by simp [cross, sees, hsees, hk])]
        exact ⟨_, h1.ite (h1.raised _ _ _), rfl⟩
      · rw [if_neg (by simp [cross, sees, hsees]), if_pos (by simp [miss, sees, hsees, hk, hmiss])]
        exact ⟨_, (h1.raised _ _ _).ite h1, rfl⟩
  obtain ⟨e, he, h⟩ := hboth
  rw [h, ← he.kept.chans]
  exact forL_pairLatch_latched _ _ _

/-- The read-back of the test-pulse output is judged before the inputs are. -/
theorem testPulse_judged (k seen : Nat) (rbBad : Bool) (d : Dev) : ∃ e, testPulse k seen rbBad d = showSi (forN 16 (tpInput k seen) e) ∧
    e.pat = d.pat ∧ (∃ l, e.saf = { d.saf with tpBad := l }) ∧ e.saf.tpBad.contains k = rbBad := by
  refine ⟨_, rfl, ?_⟩
  cases rbBad <;> cases hbad : d.saf.tpBad.contains k
  · exact ⟨rfl, ⟨_, rfl⟩, hbad⟩
  · exact ⟨rfl, ⟨_, rfl⟩, by simp [Dev.updSaf]⟩
  · rw [if_pos (show (true && !false) = true from rfl)]
    exact ⟨raiseSaf_pat _, ⟨_, raiseSaf_saf _⟩, by simp [Dev.updSaf]⟩
  · exact ⟨rfl, ⟨_, rfl⟩, hbad⟩

theorem testPulse_tpBad (k seen : Nat) (rbBad : Bool) (d : Dev) :
    (testPulse k seen rbBad d).pat = d.pat ∧ (testPulse k seen rbBad d).saf.tpBad.contains k = rbBad := by
  obtain ⟨e, he, hpat, -, hbad⟩ := testPulse_judged k seen rbBad d
  have hkept : e.InputsKept (forN 16 (tpInput k seen) e) :=
    forN_keeps e.InputsKept 16 _ (fun n _ x hx => hx.trans (tpInput_kept k seen n x)) (.refl e)
  rw [he, showSi_pat, showSi_saf, hkept.pat, hkept.tpBad]
  exact ⟨hpat, hbad⟩

theorem testPulse_latches (rbBad : Bool) (hn : n < 16) (h : d.tpLatches k seen n) :
    (testPulse k seen rbBad d).latched d.chans (n / 2) := by
  obtain ⟨e, he, hpat, ⟨l, hsaf⟩, -⟩ := testPulse_judged k seen rbBad d
  have hch : ∀ c, e.ch c = d.ch c := fun c => by cases c <;> simp only [Dev.ch, hsaf]
  rw [he]
  intro c hc
  rw [Dev.ch_congr (showSi_saf _)]
  refine forL_reaches (P := fun x => x.latched d.chans (n / 2))
    (Q := fun x => e.InputsKept x ∧ x.saf.missTp.get n = d.saf.missTp.get n) (List.mem_range.mpr hn)
    (fun x hx => ?_) (fun m hm x hx => ?_) (fun m x hx y hy => (tpInput_kept k seen m x).disc y _ (hx y hy)) ⟨.refl e, by rw [hsaf]⟩ c hc
  · obtain ⟨hx, hmiss⟩ := hx
    have hchans : x.chans = d.chans := hx.chans.trans (Dev.chans_congr hch)
    rw [← hchans]
    refine tpInput_latches ?_
    simpa only [Dev.tpLatches, hx.pat, hpat, hchans, hx.lvl, hch, hmiss] using h
  · exact ⟨hx.1.trans (tpInput_kept k seen m x), (tpInput_missTp hm.symm).trans hx.2⟩
end

/-- Settles O51: the inputs and their pairs, the test pulses, the output faults, the contactors and VFIELD, each by its lemma. -/
theorem safetyInputs : Obligations.SafetyInputs := by
  intro n hiA hiB rbBad high i k seen own o e cross out s
  have ho := o.isLt
  refine ⟨?_, ?_, fun h => ?_, fun h => ?_, ?_, fun hown hhigh => ⟨fun hk hsees => ?_, fun hk hsees hmiss => ?_⟩, fun hon => ?_, fun _ => ?_,
    fun hoff => ?_, fun hon => ?_, fun _ => ?_, fun hout => ⟨fun hoff hlock => ?_, fun hoff => ?_, fun hon => ?_⟩, ?_, ?_, ?_, ?_⟩
  · refine RunsDev.of_doDev (f := siEdge n hiA hiB) rfl ?_
    obtain ⟨ha, hb⟩ := siEdge_raw s.part.dev n hiA hiB
    exact ⟨ha, hb, rfl, rfl, rfl⟩
  · refine RunsDev.of_doDev (f := siFilter n) rfl (fun c hc => ?_)
    have hlvl := congrArg Prod.fst (siFilter_levels s.part.dev hc n)
    simp only [ChanSt.levels, takeLevel] at hlvl
    rw [hlvl]
    exact ⟨bit_setBit _ _ _, fun j hj => bit_setBit_ne _ _ hj.symm⟩
  · refine RunsDev.of_doDev (f := pairDiscrep i) rfl ?_
    obtain ⟨hfault, hlatched⟩ := pairDiscrep_latches s.part.dev h
    refine ⟨hfault, fun c hc hne => ?_⟩
    have hdisc := hlatched c (List.mem_filter.mpr ⟨hc, bne_iff_ne.mpr hne⟩)
    exact ⟨hdisc, Dev.pairDemand_of_disc _ hdisc⟩
  · exact RunsDev.of_doDev (f := pairDiscrep i) rfl (pairDiscrep_agrees _ h)
  · refine RunsDev.of_doDev (f := testPulse k seen rbBad) rfl ?_
    obtain ⟨hpat, hbad⟩ := testPulse_tpBad k seen rbBad s.part.dev
    exact ⟨hbad, fun hrb hown => Dev.pairDemand_of_tpBad _ (by rwa [hpat]) (hbad.trans hrb)⟩
  · exact RunsDev.of_doDev (f := testPulse k seen rbBad) rfl
      (testPulse_latches rbBad n.isLt ⟨own, hown, hhigh, .inl ⟨hk, hsees⟩⟩)
  · exact RunsDev.of_doDev (f := testPulse k seen rbBad) rfl
      (testPulse_latches rbBad n.isLt ⟨own, hown, hhigh, .inr ⟨hk, hsees, hmiss⟩⟩)
  · exact RunsDev.of_doDev (f := soTestPulse o true cross) rfl (soTestPulse_high _ ho hon)
  · exact RunsDev.of_doDev (f := soTestPulse o false []) rfl (soTestPulse_low _)
  · exact RunsDev.of_doDev (f := soTestPulse o high cross) rfl (soTestPulse_off _ hoff)
  · exact RunsDev.of_doDev (f := soReadback o high) rfl (soReadback_faulted _ ho (.inl hon))
  · exact RunsDev.of_doDev (f := soReadback o true) rfl (soReadback_faulted _ ho (.inr rfl))
  · exact RunsDev.of_doDev (f := edmWindow e false) rfl (edmWindow_locks _ hout e.isLt hoff hlock)
  · exact RunsDev.of_doDev (f := edmWindow e true) rfl (edmWindow_dropped _ hout hoff)
  · exact RunsDev.of_doDev (f := edmWindow e false) rfl (edmWindow_judged _ hout hon)
  · exact RunsDev.of_doDev (f := vfieldBad .VFIELD_LOW) rfl (vfieldBad_stops _ rfl (by decide))
  · exact RunsDev.of_doDev (f := vfieldBad .VFIELD_REV) rfl (vfieldBad_stops _ rfl (by decide))
  · exact RunsDev.of_doDev (f := vfieldBad .VFIELD_HIGH) rfl (vfieldBad_stops _ rfl (by decide))
  · exact RunsDev.of_doDev (f := vfieldBack) rfl (vfieldBack_only _)

/-! ### What a degraded-mode cause does (R244, R248) -/

section
variable {f : Fld} {b m : Nat} (d : Dev)

theorem Dev.onlyUnits.refl (d : Dev) : d.onlyUnits d := ⟨rfl, _, _, rfl⟩

theorem Dev.onlyUnits.of_saf {d e x : Dev} (h : e.onlyUnits x) (hp : e.pat = d.pat) (hs : e.saf = d.saf) : d.onlyUnits x := by
  obtain ⟨hpat, ua, ub, hsaf⟩ := h
  exact ⟨hpat.trans hp, ua, ub, by rw [hsaf, hs]⟩

theorem demand_onlyUnits (us : List Nat) (a : SafAct) : d.onlyUnits (demand us a d) := by
  rw [demand_eq]
  exact d.updLive_onlyUnits us _

theorem demand_rd (us : List Nat) (a : SafAct) : (demand us a d).rd f = d.rd f := by
  rw [demand_eq]
  rfl

theorem endSource_rd (s : SafSrc) : (endSource s d).rd f = d.rd f := by
  rw [endSource_eq]
  rfl

theorem Dev.rd_updSaf (g : SafSt → SafSt) : (d.updSaf g).rd f = d.rd f := rfl

@[simp] theorem setSafMode_saf : (setSafMode m d).saf = d.saf := by
  unfold setSafMode
  split <;> rfl

@[simp] theorem setSafMode_pat : (setSafMode m d).pat = d.pat := by
  unfold setSafMode
  split <;> rfl

theorem setSafMode_rd (hf : f.safApart [.SAF_STATE_MODE]) : (setSafMode m d).rd f = d.rd f := by
  unfold setSafMode
  split
  · rfl
  · rw [hostVector_rd_saf _ (hf.mono (List.nil_subset _)), hf.rd_wr_low _ (by decide), hf.rd_wr _ (List.mem_singleton_self _)]

theorem setSafMode_mode (hm : m < 4) : (setSafMode m d).rd .SAF_STATE_MODE = m := by
  unfold setSafMode
  split
  · next h => exact h
  · rw [hostVector_rd_saf _ (by decide), Dev.rd_wr_ne _ _ _ _ (by decide), Dev.rd_wr_same]
    exact Nat.mod_eq_of_lt hm

theorem secondFault_rd (hf : f.safApart [.SAF_STATE_LAST_FAULT]) : (secondFault b d).rd f = d.rd f := by
  unfold secondFault
  extract_lets d1
  have h1 : d1.rd f = d.rd f := raiseSaf_rd d hf (by decide)
  split
  · rw [stoNow_rd _ (hf.mono (List.nil_subset _)), h1]
  · rw [demand_rd, h1]

theorem secondFault_onlyUnits : d.onlyUnits (secondFault b d) := by
  unfold secondFault
  extract_lets d1
  split
  · exact (stoNow_onlyUnits d1).of_saf (raiseSaf_pat _) (raiseSaf_saf _)
  · exact (demand_onlyUnits d1 _ _).of_saf (raiseSaf_pat _) (raiseSaf_saf _)

/-- What a degraded-mode cause writes. -/
def causeWrites : List Fld := [.SAF_DEGR_CAUSE, .SAF_STATE_MODE, .SAF_DEGR_REMAIN, .SAF_STATE_LAST_FAULT]

/-- A cause that was there already changes nothing; another one is shown, and then degraded mode begins, a second fault acts, or the plane
is stopped already. -/
theorem degrCause_cases : bit (d.rd .SAF_DEGR_CAUSE) b = true ∧ degrCause b d = d ∨
    ∃ e, e = d.wr .SAF_DEGR_CAUSE (setBit (d.rd .SAF_DEGR_CAUSE) b true) ∧ (degrCause b d = e ∨ degrCause b d = secondFault b e ∨
      degrCause b d = raiseSaf .DEGR_ENTER d.safWriter [b] ((setSafMode 1 e).wr .SAF_DEGR_REMAIN (d.pat.safety.degrT * 1000))) := by
  unfold degrCause
  extract_lets cause d1
  split
  · next h => exact .inl ⟨h, rfl⟩
  · refine .inr ⟨d1, rfl, ?_⟩
    split
    · exact .inr (.inr rfl)
    · exact .inr (.inl rfl)
    · exact .inl rfl

theorem degrCause_onlyUnits : d.onlyUnits (degrCause b d) := by
  obtain ⟨-, h⟩ | ⟨e, rfl, h | h | h⟩ := degrCause_cases (b := b) d <;> rw [h]
  · exact .refl d
  · exact (Dev.onlyUnits.refl _).of_saf rfl rfl
  · exact (secondFault_onlyUnits _).of_saf rfl rfl
  · exact (Dev.onlyUnits.refl _).of_saf ((raiseSaf_pat _).trans (setSafMode_pat _)) ((raiseSaf_saf _).trans (setSafMode_saf _))

theorem degrCause_rd (hf : f.safApart causeWrites) : (degrCause b d).rd f = d.rd f := by
  obtain ⟨-, h⟩ | ⟨e, rfl, h | h | h⟩ := degrCause_cases (b := b) d <;> rw [h]
  · exact hf.rd_wr d (by decide) _
  · rw [secondFault_rd _ (hf.mono (by decide)), hf.rd_wr d (by decide)]
  · rw [raiseSaf_rd _ (hf.mono (by decide)) (by decide), hf.rd_wr _ (by decide), setSafMode_rd _ (hf.mono (by decide)),
      hf.rd_wr d (by decide)]

theorem degrCause_cause (hb : b < 9) : bit ((degrCause b d).rd .SAF_DEGR_CAUSE) b = true := by
  have hset : (d.wr .SAF_DEGR_CAUSE (setBit (d.rd .SAF_DEGR_CAUSE) b true)).rd .SAF_DEGR_CAUSE =
      mask 9 (setBit (d.rd .SAF_DEGR_CAUSE) b true) := Dev.rd_wr_same _ _ _ _
  have hbit : bit (mask 9 (setBit (d.rd .SAF_DEGR_CAUSE) b true)) b = true := by rw [bit_mask _ hb, bit_setBit]
  obtain ⟨hold, h⟩ | ⟨e, rfl, h | h | h⟩ := degrCause_cases (b := b) d <;> rw [h]
  · exact hold
  · rwa [hset]
  · rwa [secondFault_rd _ (by decide), hset]
  · rwa [raiseSaf_rd _ (by decide) (by decide), Dev.rd_wr_ne _ _ _ _ (by decide), setSafMode_rd _ (by decide), hset]
end

/-! ### Self-tests and the hand-over (R224, R225) -/

section
variable (d : Dev)

/-- A lost channel is inactive, shown as such, and the hand-over path engages. -/
theorem loseChan_shows (c : Chan) : ((loseChan c d).ch c).ok = false ∧
    (loseChan c d).rd (if c = .a then .SAF_STATE_CHA_OK else .SAF_STATE_CHB_OK) = 0 ∧ (loseChan c d).rd .SAF_STATE_HANDOVER = 1 := by
  unfold loseChan
  extract_lets d0 d1
  obtain ⟨-, ua, ub, hsaf⟩ := degrCause_onlyUnits (b := 0)
    (hostVector 3 (raiseSaf .CH_LOST d1.safWriter [if c = .a then 0 else 1] (d1.wr .SAF_STATE_HANDOVER 1)))
  rw [hostVector_saf, raiseSaf_saf] at hsaf
  have hrd : ∀ f : Fld, f.safApart causeWrites → (degrCause 0 (hostVector 3 (raiseSaf .CH_LOST d1.safWriter [if c = .a then 0 else 1]
      (d1.wr .SAF_STATE_HANDOVER 1)))).rd f = (d1.wr .SAF_STATE_HANDOVER 1).rd f := fun f hf => by
    rw [degrCause_rd _ hf, hostVector_rd_saf _ (hf.mono (List.nil_subset _)), raiseSaf_rd _ (hf.mono (by decide)) (by decide)]
  refine ⟨?_, ?_, ?_⟩
  · cases c <;> rw [Dev.ch, hsaf] <;> rfl
  · rw [hrd _ (by cases c <;> decide)]
    cases c <;> exact (Dev.rd_wr_ne _ _ _ _ (by decide)).trans (Dev.rd_wr_same _ _ _ _)
  · rw [hrd _ (by decide), Dev.rd_wr_same]
    rfl

theorem selftestDone_idle (h : d.saf.selftest = false) (okA okB : Bool) : selftestDone okA okB d = d := by simp [selftestDone, h]

/-- The device once the self-tests are over, before their outcome acts. -/
def Dev.testsOver (d : Dev) : Dev := d.updSaf (fun x => { x with selftest := false })

theorem selftestDone_eq (h : d.saf.selftest = true) (okA okB : Bool) : selftestDone okA okB d =
    match okA, okB with
    | true, true => degrCause 1 d.testsOver
    | true, false => loseChan .b d.testsOver
    | false, true => loseChan .a d.testsOver
    | false, false => setSafMode 2 (stopAll .selftest d.testsOver) := by
  rw [selftestDone, if_neg (by simp [h])]
  match okA, okB with
  | true, true => exact if_pos rfl
  | true, false => exact (if_neg (by decide)).trans (if_pos rfl)
  | false, true => exact (if_neg (by decide)).trans ((if_neg (by decide)).trans (if_pos rfl))
  | false, false => exact (if_neg (by decide)).trans ((if_neg (by decide)).trans (if_neg (by decide)))

theorem selftestDone_passed (h : d.saf.selftest = true) : (selftestDone true true d).saf.selftest = false ∧
    bit ((selftestDone true true d).rd .SAF_DEGR_CAUSE) 1 = true ∧ (selftestDone true true d).saf.a.ok = d.saf.a.ok ∧
    (selftestDone true true d).saf.b.ok = d.saf.b.ok := by
  obtain ⟨-, ua, ub, hsaf⟩ := degrCause_onlyUnits (b := 1) d.testsOver
  rw [selftestDone_eq d h, hsaf]
  exact ⟨rfl, degrCause_cause _ (by decide), rfl, rfl⟩

theorem selftestDone_stopped (h : d.saf.selftest = true) : (selftestDone false false d).rd .SAF_STATE_MODE = 2 ∧
    ∀ j, j < 8 → bit ((selftestDone false false d).rd .SAF_SO_ON) j = false := by
  have heq : selftestDone false false d = setSafMode 2 (stopAll .selftest d.testsOver) := selftestDone_eq d h false false
  rw [heq]
  refine ⟨setSafMode_mode _ (by decide), fun j hj => ?_⟩
  rw [setSafMode_rd _ (by decide)]
  exact stopAll_bit _ hj

theorem handoverTimeout_opens (h : d.rd .SAF_STATE_HANDOVER ≠ 0) : (handoverTimeout d).rd .SAF_STATE_HANDOVER = 0 ∧
    (handoverTimeout d).saf.handoverOpen = true ∧ ∀ j, j < 8 → bit ((handoverTimeout d).rd .SAF_SO_ON) j = false := by
  rw [handoverTimeout, if_neg h]
  refine ⟨?_, ?_, fun j hj => ?_⟩
  · rw [hostVector_rd_saf _ (by decide), Dev.rd_wr_same]
    rfl
  · obtain ⟨l, ua, ub, hsaf⟩ := stopAll_saf (s := .handover) (d.updSaf (fun x => { x with handoverOpen := true }))
    rw [hostVector_saf, Dev.wr_eq, Dev.wrAt_saf, hsaf]
    rfl
  · rw [hostVector_rd_saf _ (by decide), Dev.rd_wr_ne _ _ _ _ (by decide)]
    exact stopAll_bit _ hj
end

/-! ### Restart requests (R249, R250) -/

section
variable {seenA seenB : Bool} (d : Dev)

theorem restartRequest_seen (hc : d.chans ≠ []) (ha : d.saf.a.ok = true → seenA = true) (hb : d.saf.b.ok = true → seenB = true) :
    restartRequest seenA seenB d = { d with saf := { d.saf with restart := safUnits.filter d.releasable } } :=
  if_neg (by simpa [hc] using ⟨ha, hb⟩)

theorem restartRequest_unseen (h : (d.saf.a.ok = true ∧ seenA = false) ∨ (d.saf.b.ok = true ∧ seenB = false)) :
    restartRequest seenA seenB d = d :=
  if_pos (by rcases h with ⟨hok, hs⟩ | ⟨hok, hs⟩ <;> simp [hok, hs])
end

/-! ### The end of the degraded time (R247) -/

theorem addAct_files {a : SafAct} (ha : a.active = true) (l : List SafAct) :
    (addAct a l).any (fun x => x.src == a.src && x.func == a.func && x.active) = true := by
  induction l with
  | nil => simp [addAct, ha]
  | cons x t ih =>
    unfold addAct
    split
    · next h =>
      rw [List.any_cons, Bool.or_eq_true]
      exact .inl (by simpa [ha] using h)
    · rw [List.any_cons, ih, Bool.or_true]

theorem demand_files (d : Dev) {us : List Nat} {a : SafAct} (ha : a.active = true) {c : Chan} (hc : c ∈ d.chans) {u : Nat}
    (hu : u ∈ us) : (((demand us a d).ch c).units.get u).acts.any (fun x => x.src == a.src && x.func == a.func && x.active) = true := by
  rw [demand_eq, Dev.ch_updLive_of_mem _ hc]
  exact ChanSt.updUnits_gives (P := fun x => x.acts.any (fun x => x.src == a.src && x.func == a.func && x.active) = true) hu
    (fun x => addAct_files ha x.acts)

theorem degrExpired_demands {d : Dev} (hmode : d.rd .SAF_STATE_MODE = 1) (hcause : d.rd .SAF_DEGR_CAUSE ≠ 0)
    (hleft : d.rd .SAF_DEGR_REMAIN = 0) (hnew : d.saf.expired = false) : (degrExpired d).saf.expired = true ∧
    ∀ c ∈ d.chans, ∀ u ∈ safUnits,
      (((degrExpired d).ch c).units.get u).acts.any (fun x => x.src == .expired && x.func == .ss1 && x.active) = true := by
  rw [degrExpired, if_neg (by simp [hmode, hcause, hleft, hnew])]
  refine ⟨?_, fun c hc u hu => demand_files _ rfl ?_ hu⟩
  · obtain ⟨-, ua, ub, hsaf⟩ := demand_onlyUnits (raiseSaf .DEGR_EXPIRED d.safWriter [] (d.updSaf (fun x => { x with expired := true })))
      safUnits (act .expired .ss1 true true)
    rw [hsaf, raiseSaf_saf]
    rfl
  · rwa [Dev.chans_congr (d := d) (fun y => by cases y <;> simp [Dev.ch, Dev.updSaf])]

/-! ### Causes that leave (R246) -/

/-- What is left of the causes `n` when those of `which` leave whose condition is absent. -/
def Dev.causesLeft (d : Dev) (which : Nat → Bool) (n : Nat) : Nat :=
  forL (List.range 9) (fun b n => if which b && bit n b && !d.causeHolds b then setBit n b false else n) n

section
variable {which : Nat → Bool} {j : Nat} (d : Dev)

theorem dropCauses_cause : (dropCauses which d).rd .SAF_DEGR_CAUSE = mask 9 (d.causesLeft which (d.rd .SAF_DEGR_CAUSE)) := by
  unfold dropCauses
  extract_lets old new d1
  have h1 : d1.rd .SAF_DEGR_CAUSE = mask 9 new := (Dev.rd_wr_ne _ _ _ _ (by decide)).trans (Dev.rd_wr_same _ _ _ _)
  split
  · rw [endSource_rd, raiseSaf_rd _ (by decide) (by decide), Dev.rd_updSaf, Dev.rd_wr_ne _ _ _ _ (by decide),
      setSafMode_rd _ (by decide), h1]
    rfl
  · exact h1

variable (hj : j < 9)
include hj

theorem Dev.bit_causesLeft (n : Nat) : bit (d.causesLeft which n) j = (bit n j && !(which j && !d.causeHolds j)) := by
  refine forL_read (bit · j) (fun v => v && !(which j && !d.causeHolds j)) (List.mem_range.mpr hj) (fun m => ?_) (fun x hx m => ?_)
    (fun v => by rw [Bool.and_assoc, Bool.and_self]) n
  · split
    · next h =>
      obtain ⟨⟨hw, -⟩, habsent⟩ : (which j = true ∧ bit m j = true) ∧ d.causeHolds j = false := by simpa using h
      rw [bit_setBit, hw, habsent, Bool.not_false, Bool.and_true, Bool.not_true, Bool.and_false]
    · next h =>
      cases hm : bit m j with
      | false => rfl
      | true =>
        rw [hm, Bool.and_true] at h
        rw [Bool.eq_false_iff.mpr h]
        rfl
  · split
    · exact bit_setBit_ne m false hx
    · rfl

/-- A cause leaves where it is asked to and its condition is absent; every other one stays. -/
theorem dropCauses_bit : bit ((dropCauses which d).rd .SAF_DEGR_CAUSE) j =
    (bit (d.rd .SAF_DEGR_CAUSE) j && !(which j && !d.causeHolds j)) := by
  rw [dropCauses_cause, bit_mask _ hj, d.bit_causesLeft hj]
end

theorem degrLeave_leaves {d : Dev} {b : Nat} (hb : b < 9) (hmode : d.rd .SAF_STATE_MODE = 1) (hauto : autoCause b = true)
    (habsent : d.causeHolds b = false) : bit ((degrLeave b d).rd .SAF_DEGR_CAUSE) b = false ∧
    ∀ j, j < 9 → j ≠ b → bit ((degrLeave b d).rd .SAF_DEGR_CAUSE) j = bit (d.rd .SAF_DEGR_CAUSE) j := by
  rw [degrLeave, if_pos hmode]
  refine ⟨?_, fun j hj hne => ?_⟩
  · rw [dropCauses_bit d hb]
    simp [hauto, habsent]
  · rw [dropCauses_bit d hj]
    simp [hne]

/-! ### The end of an SSM stop (R277) -/

theorem ssmClear_ends {d : Dev} {arm : Nat} {c : Chan} (hc : c ∈ d.chans)
    (hstop : (d.chans.map (fun c => (d.ch c).ssm.get arm)).any (·.stop) = true)
    (hclear : (d.chans.map (fun c => (d.ch c).ssm.get arm)).all (fun r => !r.stop || r.clearOk) = true) :
    (((ssmClear arm d).ch c).ssm.get arm).stop = false := by
  unfold ssmClear
  extract_lets rs
  rw [if_pos (by rw [hstop, hclear]; rfl), Dev.ch_congr ((showSsm_saf _ _).trans (raiseSaf_saf _)), bothChans_updCh,
    Dev.ch_updLive_of_mem _ hc, Tab.get_upd, if_pos rfl]

theorem ssmClear_none {d : Dev} {arm : Nat} (h : (d.chans.map (fun c => (d.ch c).ssm.get arm)).any (·.stop) = false) :
    ssmClear arm d = d := if_neg (by rw [h, Bool.false_and]; decide)

/-! ### The results of a safety cycle (R223) -/

theorem published_congr {d e : Dev} {c : Chan} (hu : (e.ch c).units = (d.ch c).units) (hs : (e.ch c).ssm = (d.ch c).ssm) :
    published e c = published d c := by simp only [published, hu, hs]

theorem safetyCycle_publishes (edA edB rb : Nat) (late : Bool) (d : Dev) :
    (safetyCycle edA edB rb late d).saf.pubA = published (safetyCycle edA edB rb late d) .a ∧
      (safetyCycle edA edB rb late d).saf.pubB = published (safetyCycle edA edB rb late d) .b := by
  unfold safetyCycle
  extract_lets t k d1 d2 d3 d4 d5 d6 d7 d8 d9
  clear_value d9
  exact ⟨(published_congr rfl rfl).symm, (published_congr rfl rfl).symm⟩

/-- Settles O52: the publication, the outcomes of the self-tests, the hand-over, a restart request, the end of the degraded time, a cause
that leaves, and the end of an SSM stop, each by its lemma. -/
theorem safetyDecisions : Obligations.SafetyDecisions := by
  intro edA edB rb late seenA seenB okA okB b arm s
  refine ⟨?_, fun h => ⟨?_, ?_, ?_, ?_⟩, fun h => ?_, fun h => ?_, fun hc ha hb => ?_, fun h => ?_, fun hmode hcause hleft hnew => ?_,
    fun hmode hauto habsent => ?_, fun h => ?_, fun hstop hclear => ?_, fun h => ?_⟩
  · exact RunsDev.of_doDev (f := safetyCycle edA edB rb late) rfl (safetyCycle_publishes _ _ _ _ _)
  · exact RunsDev.of_doDev (f := selftestDone true true) rfl (selftestDone_passed _ h)
  · refine RunsDev.of_doDev (f := selftestDone true false) rfl ?_
    rw [selftestDone_eq _ h]
    exact loseChan_shows _ .b
  · refine RunsDev.of_doDev (f := selftestDone false true) rfl ?_
    rw [selftestDone_eq _ h]
    exact loseChan_shows _ .a
  · exact RunsDev.of_doDev (f := selftestDone false false) rfl (selftestDone_stopped _ h)
  · exact RunsDev.of_doDev (f := selftestDone okA okB) rfl (selftestDone_idle _ h okA okB)
  · exact RunsDev.of_doDev (f := handoverTimeout) rfl (handoverTimeout_opens _ h)
  · exact RunsDev.of_doDev (f := restartRequest seenA seenB) rfl (restartRequest_seen _ hc ha hb)
  · exact RunsDev.of_doDev (f := restartRequest seenA seenB) rfl (restartRequest_unseen _ h)
  · exact RunsDev.of_doDev (f := degrExpired) rfl (degrExpired_demands hmode hcause hleft hnew)
  · exact RunsDev.of_doDev (f := degrLeave b) rfl (degrLeave_leaves b.isLt hmode hauto habsent)
  · exact RunsDev.of_doDev (f := degrLeave b) rfl (if_neg h)
  · exact RunsDev.of_doDev (f := ssmClear arm) rfl (fun c hc => ssmClear_ends hc hstop hclear)
  · exact RunsDev.of_doDev (f := ssmClear arm) rfl (ssmClear_none h)
end Sys2Proof.Machine
end

section
/-! PROOFS of the family 10_planes_racking, the accesses of cores while racking may run: stores, atomics and filter taps. -/

namespace Sys2Proof.Machine

/-! ### Bytes written in two parts -/

/-- A number written as `i + j` bytes is its low `i` bytes followed by the rest. -/
theorem Mem.write_add (m : Mem) (a i j v : Nat) : m.write a (i + j) v = (m.write a i v).write (a + i) j (v / 256 ^ i) := by
  induction i generalizing m a v with
  | zero => simp [Mem.write]
  | succ i ih =>
    rw [Nat.succ_add]
    simp only [Mem.write]
    rw [ih, Nat.div_div_eq_div_mul, Nat.pow_succ', Nat.succ_add_eq_add_succ]

theorem Mem.read_add (m : Mem) (a i j : Nat) : m.read a (i + j) = m.read a i + 256 ^ i * m.read (a + i) j := by
  induction i generalizing a with
  | zero => simp [Mem.read]
  | succ i ih =>
    rw [Nat.succ_add]
    simp only [Mem.read]
    rw [ih, Nat.pow_succ', Nat.mul_add, Nat.mul_assoc, Nat.add_assoc a 1 i, Nat.add_comm 1 i, Nat.add_assoc]

theorem Mem.read_lt (m : Mem) (a n : Nat) : m.read a n < 256 ^ n := by
  induction n generalizing a with
  | zero => simp [Mem.read]
  | succ n ih =>
    have hbyte : (m.byte a).toNat < 256 := (m.byte a).isLt
    have hrest := ih (a + 1)
    simp only [Mem.read, Nat.pow_succ']
    omega

/-- Byte `t` of the number whose `i` low bytes are those of `lo` and whose others are those of `hi`. -/
theorem byte_of_parts {lo hi i : Nat} (t : Nat) (hlo : lo < 256 ^ i) : BitVec.ofNat 8 ((lo + 256 ^ i * hi) / 256 ^ t) =
    if t < i then BitVec.ofNat 8 (lo / 256 ^ t) else BitVec.ofNat 8 (hi / 256 ^ (t - i)) := by
  split
  · next h =>
    obtain ⟨k, rfl⟩ : ∃ k, i = t + (k + 1) := ⟨i - t - 1, by omega⟩
    have hdiv : (lo + 256 ^ (t + (k + 1)) * hi) / 256 ^ t = lo / 256 ^ t + 256 * (256 ^ k * hi) := by
      rw [Nat.pow_add, Nat.mul_assoc, Nat.add_mul_div_left _ _ (Nat.pow_pos (by decide)), Nat.pow_succ', Nat.mul_assoc]
    rw [hdiv]
    apply BitVec.eq_of_toNat_eq
    simp
  · next h =>
    obtain ⟨k, rfl⟩ : ∃ k, t = i + k := ⟨t - i, by omega⟩
    rw [Nat.pow_add, ← Nat.div_div_eq_div_mul, Nat.add_mul_div_left _ _ (Nat.pow_pos (by decide)), Nat.div_eq_of_lt hlo, Nat.zero_add,
      Nat.add_sub_cancel_left]

theorem Mem.stores_write {m : Mem} (h : m.wf = true) (o n v : Nat) : m.stores (m.write o n v) o n v := fun x => m.byte_write o n v x h

section
variable {m m1 m2 : Mem} {a i j lo hi : Nat} (hlo : lo < 256 ^ i)
include hlo

/-- Bytes that hold `lo` and, above them, bytes that hold `hi` hold the number of both parts. -/
theorem Mem.stores_of_parts (hl : ∀ x, a ≤ x → x < a + i → m2.byte x = BitVec.ofNat 8 (lo / 256 ^ (x - a)))
    (hh : ∀ x, a + i ≤ x → x < a + i + j → m2.byte x = BitVec.ofNat 8 (hi / 256 ^ (x - (a + i))))
    (ho : ∀ x, x < a ∨ a + i + j ≤ x → m2.byte x = m.byte x) : m.stores m2 a (i + j) (lo + 256 ^ i * hi) := by
  intro x
  rw [byte_of_parts _ hlo]
  split
  · split
    · exact hl x (by omega) (by omega)
    · rw [Nat.sub_sub]
      exact hh x (by omega) (by omega)
  · exact ho x (by omega)

/-- Two adjacent stores, the lower one first or the upper one first, are one store of both parts. -/
theorem Mem.stores_low_high (h1 : m.stores m1 a i lo) (h2 : m1.stores m2 (a + i) j hi) : m.stores m2 a (i + j) (lo + 256 ^ i * hi) := by
  refine Mem.stores_of_parts hlo (fun x h h' => ?_) (fun x h h' => ?_) (fun x h => ?_)
  · rw [h2 x, if_neg (by omega), h1 x, if_pos ⟨h, h'⟩]
  · rw [h2 x, if_pos ⟨h, h'⟩]
  · rw [h2 x, if_neg (by omega), h1 x, if_neg (by omega)]

theorem Mem.stores_high_low (h1 : m.stores m1 (a + i) j hi) (h2 : m1.stores m2 a i lo) : m.stores m2 a (i + j) (lo + 256 ^ i * hi) := by
  refine Mem.stores_of_parts hlo (fun x h h' => ?_) (fun x h h' => ?_) (fun x h => ?_)
  · rw [h2 x, if_pos ⟨h, h'⟩]
  · rw [h2 x, if_neg (by omega), h1 x, if_pos ⟨h, h'⟩]
  · rw [h2 x, if_neg (by omega), h1 x, if_neg (by omega)]
end

theorem Mems.onlyLoc_setLoc {m : Mems} {p : Plane} {c : Nat} {x : Mem → Mem → Prop} {y : Mem} (h : x (m.loc p c) y) :
    m.onlyLoc (m.setLoc p c y) p c x := by
  rw [Mems.onlyLoc, Mems.loc_setLoc]
  exact ⟨rfl, h⟩

theorem Mems.onlyState_setState {m : Mems} {p : Plane} {x : Mem → Mem → Prop} {y : Mem} (h : x (m.pl p).state y) :
    m.onlyState (m.setState p y) p x := by
  rw [Mems.onlyState, Mems.setState_state]
  exact ⟨rfl, h⟩

/-! ### The core that stores, beside what the device notes of the store -/

theorem Sparse.put_put {α : Type} (m : Sparse α) (k : Nat) (v w : α) : Sparse.put (Sparse.put m k v) k w = Sparse.put m k w := by
  induction m with
  | nil => simp [Sparse.put]
  | cons e t ih =>
    obtain ⟨j, x⟩ := e
    simp only [Sparse.put]
    split
    · simp [Sparse.put]
    · split
      · simp [Sparse.put]
      · next hlt hne => simp [Sparse.put, hlt, hne, ih]

theorem Dev.setCore_setCore (d : Dev) (p : Plane) (c : Nat) (k k' : Core) : (d.setCore p c k).setCore p c k' = d.setCore p c k' := by
  simp [Dev.setCore, Dev.updPl, Tab.set, Sparse.put_put, Dev.setPl_setPl]

section
variable (p q : Plane) (c e space o n : Nat) (k : Core) (d : Dev)

/-- A noted store changes the record of racking alone. -/
theorem noteStore_eq : ∃ r, noteStore p space o n d = { d with rack := r } := by
  unfold noteStore
  split
  · split
    · exact ⟨_, rfl⟩
    · exact ⟨d.rack, rfl⟩
  · exact ⟨d.rack, rfl⟩

@[simp] theorem noteStore_pl : (noteStore p space o n d).pl q = d.pl q := by
  obtain ⟨r, h⟩ := noteStore_eq p space o n d
  rw [h]
  cases q <;> rfl

@[simp] theorem noteStore_core : (noteStore p space o n d).core q c = d.core q c := by simp [Dev.core]

@[simp] theorem noteStore_pat : (noteStore p space o n d).pat = d.pat := by
  obtain ⟨r, h⟩ := noteStore_eq p space o n d
  rw [h]

/-- The note of a store does not depend on the core that goes on after it. -/
theorem noteStore_setCore : noteStore q space o n (d.setCore p c k) = (noteStore q space o n d).setCore p c k := by
  have hrack : (d.setCore p c k).rack = d.rack := by cases p <;> rfl
  unfold noteStore
  rw [hrack]
  cases d.rack with
  | none => rfl
  | some r =>
    dsimp only
    rw [apply_ite (Dev.setCore · p c k)]
    cases p <;> rfl

/-- Waking a bank changes no core. -/
@[simp] theorem wakeBanks_core : (wakeBanks p o n d).core q c = d.core q c := by
  have hset : ∀ (b : Nat) (x : Dev), (setBank p b .on x).core q c = x.core q c := fun b x => by
    unfold setBank showBanks
    refine forN_keeps (fun y : Dev => y.core q c = x.core q c) 2 _ (fun i _ y hy => ?_) ?_
    · exact (Dev.core_wrAt ..).trans hy
    · cases p <;> cases q <;> rfl
  refine forL_keeps (fun x : Dev => x.core q c = d.core q c) _ _ (fun b _ x hx => ?_) rfl
  split
  · exact (hset b x).trans hx
  · exact hx

theorem updCore_wakeBanks (f : Core → Core) : (wakeBanks p o n d).updCore q c f = (wakeBanks p o n d).setCore q c (f (d.core q c)) := by
  rw [Dev.updCore, wakeBanks_core]
end

/-! ### The core after a store, and the value that it stores (R420) -/

theorem sizeBytes_fin (size : Fin 4) : sizeBytes size = 2 ^ size.val := by rw [sizeBytes, Nat.mod_eq_of_lt size.isLt]

theorem badAccess_of_formOk {g : Nat} {pm : Bool} {size : Fin 4} {disp : BitVec 11} (h : formOk g pm size disp) :
    badAccess g pm size disp = false := by
  obtain ⟨hpm, hsize⟩ := h
  rw [badAccess, Nat.mod_eq_of_lt size.isLt]
  cases pm with
  | false => simpa using hsize
  | true => simpa [hpm rfl] using hsize

/-- Two words as one number, as memory holds them: the lower word is in the lower bytes. -/
theorem Word.append_toNat (hi lo : Word) : (hi ++ lo).toNat = lo.toNat + 256 ^ 4 * hi.toNat := by
  rw [BitVec.toNat_append, ← Nat.shiftLeft_add_eq_or_of_lt lo.isLt, Nat.shiftLeft_eq]
  omega

section
variable (k : Core) (pi mi : Nat) (pm : Bool)

theorem Core.afterStore_next : k.afterStore (k.postMod pi mi pm).next pi mi pm := by
  cases pm with
  | false => exact ⟨rfl, fun i => by simp [Core.postMod, Core.next, Core.rp]⟩
  | true =>
    refine ⟨rfl, fun i => ?_⟩
    simp only [true_and]
    exact k.rp_wp pi _ i

/-- A register pair as one number: the lower word is in the lower register. -/
theorem Core.rpair_eq (g : Nat) : k.rpair g = (k.rg (g + 1) ++ k.rg g).toNat := by
  have happend := Word.append_toNat (k.rg (g + 1)) (k.rg g)
  unfold Core.rpair
  omega

theorem Core.storeVal_eq (g : Nat) (size : Fin 4) :
    k.storeVal g size = if size.val = 3 then (k.rg (g + 1) ++ k.rg g).toNat else (k.rg g).toNat := by
  rw [Core.storeVal, Nat.mod_eq_of_lt size.isLt, Core.rpair_eq]
end

/-! ### Where an access leads (R466) -/

section
variable {d : Dev} {p : Plane} {c a n o : Nat} {st at_ : Bool}

theorem accessCheck_target {t : Target} (h : accessCheck d p c a n st at_ = .ok t) : target d p a n = some t := by
  unfold accessCheck at h
  split at h
  · cases h
  · next x hx =>
    rw [hx]
    split at h <;> repeat' split at h
    all_goals cases h <;> rfl

theorem accessCheck_loc (h : accessCheck d p c a n st at_ = .ok (.loc o)) : o = a := by
  have ht := accessCheck_target h
  unfold target at ht
  split at ht
  · cases ht
    rfl
  · repeat' split at ht
    all_goals cases ht

theorem accessCheck_state (h : accessCheck d p c a n st at_ = .ok (.state o)) : o + 0x10000000 = a := by
  have ht := accessCheck_target h
  unfold target at ht
  split at ht
  · cases ht
  · split at ht
    · next hstate =>
      have ho : a - 0x10000000 = o := Target.state.inj (Option.some.inj ht)
      simp only [Bool.and_eq_true, decide_eq_true_eq] at hstate
      omega
    · repeat' split at ht
      all_goals cases ht
end

/-! ### Stores (R285, R420, R422, R470) -/

theorem storeHalves_none (a n v : Nat) (m : Mem) : storeHalves a n v false false m = m.write a n v := by
  have hle : lowerHalf a n ≤ n := Nat.min_le_left _ _
  unfold storeHalves
  extract_lets lo m1
  rw [show m1 = m.write a lo v from rfl]
  split
  · next h => rw [show lo = n by simpa using h]
  · rw [← Mem.write_add, Nat.add_sub_cancel' hle]

theorem afterLost_none (p : Plane) (c a n : Nat) (d : Dev) : afterLost p c a n false false d = d := by
  unfold afterLost
  simp [whenD]

section
variable {p : Plane} {c : Fin 10} {g : Fin 32} {pi mi : Fin 8} {pm : Bool} {size : Fin 4} {disp : BitVec 11} {o n v : Nat} {k : Core}
  {lo hi : Bool} {s : Part} (ha : s.dev.coreActive p c = true) (hf : formOk g pm size disp) (hk : s.dev.core p c = k)
  (hn : 2 ^ size.val = n) (hv : k.storeVal g size = v)
include ha hf hk hn hv

theorem stI_loc (hc : accessCheck s.dev p c (k.addr pi pm disp).toNat n true false = .ok (.loc o)) :
    stI p c g pi mi pm size disp lo hi s = if rackHolds s.dev c o n then s else
      { mems := s.mems.setLoc p c ((s.mems.loc p c).write o n v)
        dev := (noteStore p c o n s.dev).setCore p c (k.postMod pi mi pm).next } := by
  subst hk hn hv
  rw [stI, if_neg (by simp [ha]), badAccess_of_formOk hf, sizeBytes_fin]
  simp only [hc, Bool.false_eq_true, if_false]
  split
  · rfl
  · rw [← noteStore_setCore]
    rfl

theorem stI_state (hc : accessCheck s.dev p c (k.addr pi pm disp).toNat n true false = .ok (.state o)) :
    stI p c g pi mi pm size disp lo hi s = if rackHolds s.dev 10 o n then s else
      { mems := s.mems.setState p (storeHalves o n v lo hi (s.mems.pl p).state)
        dev := afterLost p c (k.addr pi pm disp).toNat n lo hi
          ((noteStore p 10 o n (wakeBanks p o n s.dev)).setCore p c (k.postMod pi mi pm).next) } := by
  subst hk hn hv
  rw [stI, if_neg (by simp [ha]), badAccess_of_formOk hf, sizeBytes_fin]
  simp only [hc, Bool.false_eq_true, if_false]
  split
  · rfl
  · rw [← noteStore_setCore, ← updCore_wakeBanks p p c o _ s.dev (fun k => (k.postMod pi mi pm).next)]
    rfl

theorem stI_dram (hc : accessCheck s.dev p c (k.addr pi pm disp).toNat n true false = .ok (.dram o)) :
    stI p c g pi mi pm size disp lo hi s = if 32 ≤ s.dev.postedCount p then s else
      { s with dev := s.dev.setCore p c { (k.postMod pi mi pm).next with posted := k.posted ++ [⟨o, bytesOf n v⟩] } } := by
  have hposted : k.posted = (k.postMod pi mi pm).next.posted := by cases pm <;> rfl
  rw [hposted]
  subst hk hn hv
  rw [stI, if_neg (by simp [ha]), badAccess_of_formOk hf, sizeBytes_fin]
  simp only [hc, Bool.false_eq_true, if_false, Dev.updCore, Dev.core_setCore, Dev.setCore_setCore]
  rfl

theorem stI_view (hc : accessCheck s.dev p c (k.addr pi pm disp).toNat n true false = .ok (.view o)) :
    stI p c g pi mi pm size disp lo hi s =
      viewStore p c o n v { s with dev := s.dev.setCore p c (k.postMod pi mi pm).next } := by
  subst hk hn hv
  rw [stI, if_neg (by simp [ha]), badAccess_of_formOk hf, sizeBytes_fin]
  simp only [hc, Bool.false_eq_true, if_false]
  rfl
end

/-- Settles O11: a store to local memory, by what racking holds of it. -/
theorem storeLocal : Obligations.StoreLocal := by
  intro p c g pi mi pm size disp lo hi o s ha hf hwf k a hc
  have hst := stI_loc (mi := mi) (lo := lo) (hi := hi) ha hf rfl rfl (k.storeVal_eq g size) hc
  refine ⟨fun hfree => ?_, fun hheld => ?_⟩
  · refine Runs.of_doPart (f := stI p c g pi mi pm size disp lo hi) rfl ?_
    rw [hst, if_neg (Bool.eq_false_iff.mp hfree)]
    exact ⟨accessCheck_loc hc, Mems.onlyLoc_setLoc (Mem.stores_write (Mems.loc_wf hwf p c) _ _ _), _, rfl, k.afterStore_next pi mi pm⟩
  · exact RunsDev.of_doPart (f := stI p c g pi mi pm size disp lo hi) rfl (hst.trans (if_pos hheld)) rfl

/-- Settles O12: a store to state memory, to the DRAM window and to the register view, each by its equation. -/
theorem storeElsewhere : Obligations.StoreElsewhere := by
  intro p c g pi mi pm size disp lo hi o s ha hf hwf k n v a check
  have hv : k.storeVal g size = v := k.storeVal_eq g size
  refine ⟨fun hc hfree => ?_, fun hc hheld => ?_, fun hc hroom => ?_, fun hc => ?_⟩
  · refine Runs.of_doPart (f := stI p c g pi mi pm size disp false false) rfl ?_
    rw [stI_state ha hf rfl rfl hv hc, if_neg (Bool.eq_false_iff.mp hfree), afterLost_none, storeHalves_none]
    exact ⟨accessCheck_state hc, Mems.onlyState_setState (Mem.stores_write (Mems.state_wf hwf p) _ _ _), _, rfl,
      k.afterStore_next pi mi pm⟩
  · exact RunsDev.of_doPart (f := stI p c g pi mi pm size disp lo hi) rfl
      ((stI_state ha hf rfl rfl hv hc).trans (if_pos hheld)) rfl
  · exact RunsDev.of_doPart (f := stI p c g pi mi pm size disp lo hi) rfl
      ((stI_dram ha hf rfl rfl hv hc).trans (if_neg (by omega))) ⟨_, k.afterStore_next pi mi pm, rfl⟩
  · refine Runs.of_doPart (f := stI p c g pi mi pm size disp lo hi) rfl ?_
    exact ⟨_, k.afterStore_next pi mi pm, stI_view ha hf rfl rfl hv hc⟩

/-! ### Atomics (R285, R429, R468) -/

section
variable {f : Word → Word → Word} {p : Plane} {c : Fin 10} {g : Fin 32} {pi : Fin 8} {disp : BitVec 11} {o : Nat} {s : State}
  {k : Core} {old : Word} (ha : s.part.dev.coreActive p c = true) (hk : s.part.dev.core p c = k)
  (hold : BitVec.ofNat 32 ((s.part.mems.pl p).state.read o 4) = old)
  (hc : accessCheck s.part.dev p c (k.rp pi + disp.signExtend 32).toNat 4 true true = .ok (.state o))
include ha hk hold hc

/-- An atomic that ECC and port E leave alone: the word of state memory is exchanged, or waits for racking. -/
theorem amoI_clean : amoI f p c g pi false 2 disp .clean false s.part = if rackHolds s.part.dev 10 o 4 then s.part else
    { mems := s.part.mems.setState p ((s.part.mems.pl p).state.write o 4 (f old (k.rg g)).toNat)
      dev := (noteStore p 10 o 4 (wakeBanks p o 4 s.part.dev)).setCore p c (k.wg g old).next } := by
  subst hk hold
  have haddr : (s.part.dev.core p c).addr pi false disp = (s.part.dev.core p c).rp pi + disp.signExtend 32 := rfl
  rw [amoI, if_neg (by simp [ha]), if_neg (by decide)]
  simp only [haddr, hc, storeHalves_none, afterLost_none]
  split
  · rfl
  · rw [if_neg (by decide), ← noteStore_setCore, ← updCore_wakeBanks p p c o 4 s.part.dev (fun k => (k.wg g _).next)]
    rfl

variable {i : Instr} (hi : exec i s = doPart (amoI f p c g pi false 2 disp .clean false) s)
include hi

/-- What an atomic of R429 does that puts `f` of the old word and g in place of the old one. -/
theorem Runs.of_amoI (hwf : s.memWf = true) (hfree : rackHolds s.part.dev 10 o 4 = false) : Runs i s (fun q =>
    s.part.mems.onlyState q.mems p (fun m m' => m.stores m' o 4 (f old (k.rg g)).toNat) ∧
    ∃ k', q.dev = (noteStore p 10 o 4 (wakeBanks p o 4 s.part.dev)).setCore p c k' ∧ k.writesG k' g old 0) := by
  refine Runs.of_doPart hi ?_
  rw [amoI_clean ha hk hold hc, if_neg (Bool.eq_false_iff.mp hfree)]
  exact ⟨Mems.onlyState_setState (Mem.stores_write (Mems.state_wf hwf p) _ _ _), _, rfl, k.wg_writesG g old⟩

theorem RunsDev.of_amoI_held (hheld : rackHolds s.part.dev 10 o 4 = true) : RunsDev i s (fun d => d = s.part.dev) :=
  RunsDev.of_doPart hi ((amoI_clean ha hk hold hc).trans (if_pos hheld)) rfl
end

/-- Settles O14: AMOADD puts the sum in place of the old word, SWAP puts g there. -/
theorem atomicResults : Obligations.AtomicResults := by
  intro p c g pi disp o s ha hwf k a old hc
  refine ⟨fun hfree => ⟨?_, ?_⟩, fun hheld => ⟨?_, ?_⟩⟩
  · exact Runs.of_amoI (f := (· + ·)) ha rfl rfl hc rfl hwf hfree
  · exact Runs.of_amoI (f := fun _ g => g) ha rfl rfl hc rfl hwf hfree
  · exact RunsDev.of_amoI_held (f := (· + ·)) (g := g) ha rfl rfl hc rfl hheld
  · exact RunsDev.of_amoI_held (f := fun _ g => g) (g := g) ha rfl rfl hc rfl hheld

/-! ### Filter taps (R285, R424, R431) -/

theorem satS_eq (w : Nat) (x : Int) : satS w x =
    if x < -(2 ^ (w - 1)) then -(2 ^ (w - 1)) else if 2 ^ (w - 1) ≤ x then 2 ^ (w - 1) - 1 else x := by
  have hcast : ((2 ^ (w - 1) : Nat) : Int) = 2 ^ (w - 1) := Int.natCast_pow 2 (w - 1)
  simp only [satS, clampI, hcast, Int.sub_one_lt_iff]

/-- R424 for an accumulator, as flags and as bits of CSW. -/
theorem overAcc_resultA (k : Core) (sat : Bool) (x : Int) :
    (overAcc k.csw sat x).1 = (resultA (k.sats sat) x).1 ∧ (overAcc k.csw sat x).2.bits = (resultA (k.sats sat) x).2 := by
  have hsat : clips k.csw sat = k.sats sat := rfl
  rw [overAcc, resultA, hsat, satS_eq, satS_eq]
  cases k.sats sat with
  | true =>
    rw [if_pos rfl, if_pos rfl]
    by_cases hlow : x < -(2 ^ 63)
    · rw [if_pos hlow, if_pos hlow, if_neg (by omega)]
      exact ⟨rfl, rfl⟩
    · rw [if_neg hlow, if_neg hlow]
      by_cases hhigh : 2 ^ 63 ≤ x
      · rw [if_pos hhigh, if_pos hhigh, if_neg (by omega)]
        exact ⟨rfl, rfl⟩
      · rw [if_neg hhigh, if_neg hhigh, if_pos rfl]
        exact ⟨rfl, FlagOut.bits_none⟩
  | false =>
    simp only [Bool.false_eq_true, if_false]
    by_cases hin : -(2 ^ 71) ≤ x ∧ x < 2 ^ 71
    · rw [if_pos hin, if_pos (by rw [if_neg (by omega), if_neg (by omega)])]
      exact ⟨rfl, FlagOut.bits_none⟩
    · rw [if_neg hin, if_neg (by omega)]
      exact ⟨rfl, show FlagOut.bits { aov := true } = 0x40 by decide⟩

theorem tapWord_eq (m : Mem) (a : Nat) : tapWord m a = (BitVec.ofNat 32 (m.read a 4)).toInt := by
  rw [tapWord, signed, BitVec.toInt_eq_toNat_cond, BitVec.toNat_ofNat]
  split <;> split <;> omega

/-- The sum of products of a tap, before NEG. -/
def tapSum (two : Bool) (m : Mem) (x y : Nat) : Int :=
  if two then tapWord m x * tapWord m y + tapWord m (x - 4) * tapWord m (y - 4) else tapWord m x * tapWord m y

/-- The core after a tap that adds `sum`. -/
def Core.tapped (k : Core) (a px mx pc mc : Nat) (sat : Bool) (sum : Int) : Core :=
  let k1 := accTo sat a ((k.ra a).toInt + sum) k
  let k2 := k1.wp px (k1.rp px + k1.rm mx)
  (k2.wp pc (k2.rp pc + k2.rm mc)).next

/-- The local memory after a tap moved its delay line. -/
def tapMoved (two : Bool) (m : Mem) (x : Nat) : Mem :=
  let m1 := m.write (x + 4) 4 (m.read x 4)
  if two then m1.write x 4 (m.read (x - 4) 4) else m1

theorem tapMoved_stores_one {m : Mem} (h : m.wf = true) (x : Nat) : m.stores (tapMoved false m x) (x + 4) 4 (m.read x 4) :=
  Mem.stores_write h _ _ _

/-- FTAP2 moves two adjacent words up by one. -/
theorem tapMoved_stores_two {m : Mem} (h : m.wf = true) {x : Nat} (hx : 4 ≤ x) :
    m.stores (tapMoved true m x) x 8 (m.read (x - 4) 8) := by
  have hread := m.read_add (x - 4) 4 4
  rw [Nat.sub_add_cancel hx] at hread
  rw [show (8 : Nat) = 4 + 4 from rfl, hread]
  exact Mem.stores_high_low (m.read_lt _ _) (Mem.stores_write h _ _ _) (Mem.stores_write (Mem.write_wf _ _ _ h) _ _ _)

theorem tapCheck_two_align {d : Dev} {c x y : Nat} (h : tapCheck d c true x y = none) : x % 8 = 4 := by
  refine Classical.byContradiction fun hne => ?_
  have hraise : tapCheck d c true x y = some (excAlign x) := if_pos (by simpa using hne)
  rw [hraise] at h
  cases h

theorem forL_noteStore_setCore (l : List Int) (p : Plane) (c : Nat) (k : Core) (d : Dev) :
    forL l (fun w d => noteStore p c w.toNat 4 d) (d.setCore p c k) = (forL l (fun w d => noteStore p c w.toNat 4 d) d).setCore p c k := by
  induction l generalizing d with
  | nil => rfl
  | cons w t ih => rw [forL_cons, forL_cons, noteStore_setCore, ih]

section
variable {k : Core} {a : Nat} {px mx pc mc : Fin 8} {sat : Bool} {sum : Int}

/-- What a tap leaves of its core: the accumulator under R424, and both pointers moved, one after the other where they are one. -/
theorem Core.tapped_shows {r : Acc × Word} (hr : resultA (k.sats sat) ((k.ra a).toInt + sum) = r) {k' : Core}
    (hk : k.tapped a px mx pc mc sat sum = k') :
    k' = { k with a := k'.a, p := k'.p, csw := k.csw ||| r.2, pc := k.pc + 4, entryWin := none, step := false } ∧
    (∀ i, k'.ra i = if i = a then r.1 else k.ra i) ∧
    (∀ i, k'.rp i = if px = pc then (if i = px then k.rp px + k.rm mx + k.rm mc else k.rp i)
      else if i = px then k.rp px + k.rm mx else if i = pc then k.rp pc + k.rm mc else k.rp i) := by
  obtain ⟨hval, hbits⟩ := overAcc_resultA k sat ((k.ra a).toInt + sum)
  subst hr hk
  refine ⟨?_, fun i => ?_, fun i => ?_⟩
  · rw [← hbits, ← cswFlags_bits]
    rfl
  · rw [← hval]
    exact k.ra_wa a _ i
  · have hmoved : (k.tapped a px mx pc mc sat sum).rp i =
        ((k.wp px (k.rp px + k.rm mx)).wp pc ((k.wp px (k.rp px + k.rm mx)).rp pc + k.rm mc)).rp i := rfl
    rw [hmoved, Core.rp_wp, Core.rp_wp, Core.rp_wp]
    by_cases hp : px = pc
    · subst hp
      rw [if_pos rfl, if_pos rfl]
      by_cases hi : i = px
      · rw [if_pos hi, if_pos hi]
      · rw [if_neg hi, if_neg hi, if_neg hi]
    · have hne : ¬(pc : Nat) = px := fun h => hp (Fin.ext h.symm)
      rw [if_neg hp, if_neg hne]
      by_cases hi : i = px
      · rw [if_pos hi, if_pos hi, if_neg (by omega)]
      · rw [if_neg hi, if_neg hi]
end

section
variable {two : Bool} {p : Plane} {c : Fin 10} {a px mx pc mc : Nat} {sat neg : Bool} {s : Part} {k : Core} {m : Mem} {x y : Nat}
  (ha : s.dev.coreActive p c = true) (hk : s.dev.core p c = k) (hm : s.mems.loc p c = m) (hx : (k.rp px).toNat = x)
  (hy : (k.rp pc).toNat = y) (hc : tapCheck s.dev c two x y = none)
include ha hk hm hx hy hc

/-- A tap that ECC leaves alone. -/
theorem tapI_clean : tapI two p c a px mx pc mc sat neg .clean s =
    if (tapWrites two x).any (fun w => rackHolds s.dev c w.toNat 4) then s else
    { mems := s.mems.setLoc p c (tapMoved two m x)
      dev := (forL (tapWrites two x) (fun w d => noteStore p c w.toNat 4 d) s.dev).setCore p c
        (k.tapped a px mx pc mc sat (if neg then -tapSum two m x y else tapSum two m x y)) } := by
  subst hk hm hx hy
  rw [tapI, if_neg (by simp [ha])]
  simp only [hc]
  split
  · rfl
  · rw [if_neg (by decide), ← forL_noteStore_setCore]
    rfl
end

/-- Settles O15: a tap adds its products, moves its words and both pointers, or waits for racking. -/
theorem filterTaps : Obligations.FilterTaps := by
  intro p c a px mx pc mc sat neg two s ha hwf k m x y w i held sum r hc
  have hi : exec i s = doPart (tapI two p c a px mx pc mc sat neg .clean) s := by cases two <;> rfl
  have hsum : tapSum two m x y = sum := by simp only [tapSum, tapWord_eq]; rfl
  have htap := tapI_clean (a := a) (mx := mx) (mc := mc) (sat := sat) (neg := neg) (k := k) (m := m) (x := x) (y := y) ha rfl rfl rfl
    rfl hc
  rw [hsum] at htap
  refine ⟨fun hheld => RunsDev.of_doPart hi (htap.trans (if_pos hheld)) rfl, fun hfree => ?_⟩
  refine Runs.of_doPart hi ?_
  have hmem : m.wf = true := Mems.loc_wf hwf p c
  rw [htap, if_neg (Bool.eq_false_iff.mp hfree)]
  refine ⟨Mems.onlyLoc_setLoc ?_, _, rfl, Core.tapped_shows rfl rfl⟩
  cases two with
  | false => exact tapMoved_stores_one hmem x
  | true =>
    have halign := tapCheck_two_align hc
    exact tapMoved_stores_two hmem (by omega)

end Sys2Proof.Machine
end

section
/-! PROOFS of the family 10_planes_racking, host writes of phase 5, which wait for the closing boundary. -/

namespace Sys2Proof.Machine

/-! ### A write that waits (R280) -/

/-- The device with one more host write waiting for the closing boundary. -/
def Dev.holdWrite (d : Dev) (a w : Nat) : Dev := { d with host := { d.host with held := d.host.held ++ [(a, w)] } }

theorem Blk.num_ofNum {n : Nat} (h : n < 16) : (Blk.ofNum n).num = n := by
  revert n
  decide

theorem mask_of_lt {w n : Nat} (h : n < 2 ^ w) : mask w n = n := Nat.mod_eq_of_lt h

section
variable {i : Instr} {s : State} {b : Blk} {off w a : Nat} (h5 : s.part.dev.rd .SYS_PHASE = 5) (hrun : s.part.dev.cyc.running = true)
  (haddr : b.num * 65536 + off = a)
include h5 hrun haddr

theorem writeBy_held (f : Plane → Dev → Dev) (hw : w < 2 ^ 32) : writeBy .host b off w f s.part.dev = s.part.dev.holdWrite a w := by
  subst haddr
  rw [writeBy, if_pos (by simp [h5, hrun]), mask_of_lt hw]
  rfl

theorem hostWord_held (hb : b.starred = true) : hostWord b off w s.part = { s.part with dev := s.part.dev.holdWrite a w } := by
  subst haddr
  rw [hostWord, if_pos (by simp [hb, h5, hrun])]
  rfl

/-- The command of a single register, by the host. -/
theorem RunsDev.of_writeBy_held {f : Plane → Dev → Dev} (hi : exec i s = doDev (writeBy .host b off w f) s) (hw : w < 2 ^ 32) :
    RunsDev i s (fun d => d = s.part.dev.holdWrite a w) := RunsDev.of_doDev hi (writeBy_held h5 hrun haddr f hw)

/-- A write of a whole word, by the host. -/
theorem RunsDev.of_regWrite_held (hi : exec i s = doPart (regWrite .host b off w) s) (hb : b.starred = true) :
    RunsDev i s (fun d => d = s.part.dev.holdWrite a w) := RunsDev.of_doPart hi (hostWord_held h5 hrun haddr hb) rfl
end

section
variable {s : State} (h5 : s.part.dev.rd .SYS_PHASE = 5) (hrun : s.part.dev.cyc.running = true)
include h5 hrun

/-- APPLY of a block that stages once per plane, by the host. -/
theorem RunsDev.of_apply_held {b : Blk} {a : Nat} (w : Word) (haddr : b.num * 65536 + 4 = a) (hs : stagedBlks.contains b = true)
    (hb : b.starred = true) : RunsDev (.apply .host b w) s (fun d => d = s.part.dev.holdWrite a w.toNat) :=
  RunsDev.of_doPart (f := applyRow .host b w.toNat) rfl ((if_pos hs).trans (hostWord_held h5 hrun haddr hb)) rfl

/-- A command in an arm's register, by the host. -/
theorem RunsDev.of_motionReg_held {i : Instr} {n bits : Nat} {f : Plane → Dev → Dev} {reply : Dev → Nat × Nat}
    (hi : exec i s = doDev (motionCommand (.reg .host) n bits f reply) s) (hn : n < 8) (hbits : bits < 2 ^ 32) :
    RunsDev i s (fun d => d = s.part.dev.holdWrite (0x70100 + 32 * n) bits) := by
  have haddr : Blk.ppe.num * 65536 + (0x100 + 32 * n) = 0x70100 + 32 * n := by
    simp only [Blk.num]
    omega
  refine RunsDev.of_doDev hi ?_
  rw [motionCommand]
  exact (if_pos hn).trans (writeBy_held h5 hrun haddr f hbits)

/-- A register write by its BAR0 address: the views of both planes name one register. -/
theorem RunsDev.of_registerWrite_held {a : Nat} (w : Word) (ha : a < 0x200000) (h4 : a % 4 = 0)
    (hb : (Blk.ofNum (a / 65536 % 16)).starred = true) :
    RunsDev (.registerWrite a w) s (fun d => d = s.part.dev.holdWrite (a % 0x100000) w.toNat) := by
  have haddr : (Blk.ofNum (a / 65536 % 16)).num * 65536 + a % 65536 = a % 0x100000 := by
    rw [Blk.num_ofNum (Nat.mod_lt _ (by decide))]
    omega
  exact RunsDev.of_doPart (f := hostWrite a w.toNat) rfl ((hostWrite_at w ha h4).trans (hostWord_held h5 hrun haddr hb)) rfl
end

/-- Settles O21: every row with a host writer, by the way its write takes. -/
theorem hostWritesHeld : Obligations.HostWritesHeld := by
  intro src k x t cfg i v m w win arm s h5 hrun harm r
  have icu : Blk.icu.num = 4 := rfl
  have tsk : Blk.tsk.num = 5 := rfl
  have ppe : Blk.ppe.num = 7 := rfl
  have slv : Blk.slv.num = 8 := rfl
  have mem : Blk.mem.num = 13 := rfl
  refine ⟨?_, ?_, ?_, ?_, ?_, ?_, ?_, ?_, ?_, ?_, ?_, fun a => RunsDev.of_registerWrite_held h5 hrun w, ?_, ?_, ?_, ?_⟩
  · exact RunsDev.of_writeBy_held (b := .icu) (off := 0x10) h5 hrun rfl rfl (by omega)
  · exact RunsDev.of_writeBy_held (b := .icu) (off := 0x1000 + 4 * x) h5 hrun (by omega) rfl w.isLt
  · exact RunsDev.of_writeBy_held (b := .icu) (off := 0x100 + 16 * k) h5 hrun (by omega) rfl w.isLt
  · exact RunsDev.of_writeBy_held (b := .tsk) (off := 0x400 + 32 * t) h5 hrun (by omega) rfl (by omega)
  · exact RunsDev.of_writeBy_held (b := .tsk) (off := 0x400 + 32 * t) h5 hrun (by omega) rfl (by omega)
  · exact RunsDev.of_writeBy_held (b := .ppe) (off := 0x40 + 4 * i) h5 hrun (by omega) rfl
      (Nat.lt_trans v.isLt (by decide))
  · exact RunsDev.of_writeBy_held (b := .mem) (off := 0x20 + 4 * m) h5 hrun (by omega) rfl w.isLt
  · exact RunsDev.of_apply_held h5 hrun w rfl rfl rfl
  · exact RunsDev.of_apply_held h5 hrun w rfl rfl rfl
  · exact RunsDev.of_apply_held h5 hrun w rfl rfl rfl
  · exact RunsDev.of_regWrite_held (b := .slv) (off := 0x104 + 8 * win) h5 hrun (by omega) rfl rfl
  · exact RunsDev.of_motionReg_held h5 hrun rfl harm (by decide)
  · exact RunsDev.of_motionReg_held h5 hrun rfl harm (by decide)
  · exact RunsDev.of_motionReg_held h5 hrun rfl harm (by decide)
  · exact RunsDev.of_motionReg_held h5 hrun rfl harm (by decide)

end Sys2Proof.Machine
end

section
/-! PROOFS of the family 10_planes_racking, the roles of the planes: tasting, rejoin, the token and the commands of RED_CMD. -/

namespace Sys2Proof.Machine

/-! ### What a code leaves of the role registers (R23) -/

/-- Raising `c` does not write the shared field `f`. -/
abbrev Fld.sparedBy (f : Fld) (c : Code) : Prop :=
  f.calm .A 0 0 = true ∧ ∀ n ∈ c.irq.toList, f.notSrc .A 0 0 .A n = true ∧ f.notSrc .A 0 0 .B n = true

/-- The register of a plane's tasting verdict. -/
def tasteFld (p : Plane) : Fld := if p = .A then .RED_TASTE_A else .RED_TASTE_B

section
variable {f : Fld} {c : Code} {w : Nat} {l : List Int} (d : Dev)

theorem raise_rd_spared (h : f.sparedBy c) : (raise c w l d).rd f = d.rd f := by
  obtain ⟨hcalm, hsrc⟩ := h
  refine raise_rdAt d c w l hcalm (fun q n hn => ?_)
  obtain ⟨hA, hB⟩ := hsrc n (Option.mem_toList.mpr hn)
  cases q with
  | A => exact hA
  | B => exact hB
end

/-! ### The role record of a plane, and its state (R292) -/

section
variable (p : Plane) (d : Dev)

theorem Dev.role_congr {d e : Dev} (p : Plane) (h : e.red = d.red) : e.role p = d.role p := by cases p <;> simp only [Dev.role, h]

@[simp] theorem Dev.role_updRole (g : PlaneRole → PlaneRole) : (d.updRole p g).role p = g (d.role p) := by cases p <;> rfl

@[simp] theorem Dev.rd_updRole (g : PlaneRole → PlaneRole) (f : Fld) : (d.updRole p g).rd f = d.rd f := by cases p <;> rfl

theorem setPlaneState_planeState {s : Nat} (hs : s < 8) : (setPlaneState p s d).planeState p = s := by
  have hwidth : (stateFld p).width = 3 := by cases p <;> rfl
  rw [setPlaneState, Dev.planeState, Dev.rd_wr_same, hwidth]
  exact Nat.mod_eq_of_lt hs

theorem Dev.rd_tasteFld_wr {v : Nat} (hv : v < 4) : (d.wr (tasteFld p) v).rd (tasteFld p) = v := by
  have hwidth : (tasteFld p).width = 2 := by cases p <;> rfl
  rw [Dev.rd_wr_same, hwidth]
  exact Nat.mod_eq_of_lt hv

theorem tasteFail_taste {how : Nat} (hhow : how < 4) : (tasteFail p how d).rd (tasteFld p) = how :=
  (raise_rd_spared _ (by cases p <;> decide)).trans (d.rd_tasteFld_wr p hhow)

theorem tasteFail_role (how : Nat) : (tasteFail p how d).role p = d.role p := Dev.role_congr p (raise_red ..)

/-! ### A failed rejoin (R299) -/

/-- A rejoin of plane `p` failed between `d` and `e`: it is counted, and the third retires the plane. -/
def Dev.rejoinFailed (d e : Dev) (p : Plane) : Prop :=
  (e.role p).fails = (d.role p).fails + 1 ∧ (e.role p).retry = true ∧ e.planeState p = if (d.role p).fails < 2 then 2 else 5

/-- The plane waits, with its failure counted, before a third one retires it. -/
def rejoinWaits : Dev :=
  raise .REJOIN_FAIL wField [p.num] ((setPlaneState p 2 ((d.wr .RED_BULK_PASS 0).wr .RED_BULK_LINES 0)).updRole p
    (fun r => { r with fails := (d.role p).fails + 1, retry := true, joinReady := false }))

theorem rejoinFail_eq : rejoinFail p d = if 3 ≤ (d.role p).fails + 1 then
    raise .PLANE_RETIRED wField [p.num] (setPlaneState p 5 (rejoinWaits p d)) else rejoinWaits p d := rfl

theorem rejoinWaits_role : (rejoinWaits p d).role p =
    { d.role p with fails := (d.role p).fails + 1, retry := true, joinReady := false } := by
  rw [rejoinWaits, Dev.role_congr p (raise_red ..), Dev.role_updRole]
  cases p <;> rfl

theorem rejoinWaits_planeState : (rejoinWaits p d).planeState p = 2 := by
  rw [rejoinWaits, Dev.planeState, raise_rd_spared _ (by cases p <;> decide), Dev.rd_updRole]
  exact setPlaneState_planeState p _ (by decide)

theorem rejoinFail_role : (rejoinFail p d).role p =
    { d.role p with fails := (d.role p).fails + 1, retry := true, joinReady := false } := by
  rw [rejoinFail_eq]
  split
  · rw [Dev.role_congr p (raise_red ..)]
    exact rejoinWaits_role p d
  · exact rejoinWaits_role p d

theorem rejoinFail_fails : d.rejoinFailed (rejoinFail p d) p := by
  rw [Dev.rejoinFailed, rejoinFail_role]
  refine ⟨rfl, rfl, ?_⟩
  rw [rejoinFail_eq]
  split
  · rw [if_neg (by omega), Dev.planeState, raise_rd_spared _ (by cases p <;> decide)]
    exact setPlaneState_planeState p _ (by decide)
  · rw [if_pos (by omega)]
    exact rejoinWaits_planeState p d

theorem rejoinFail_taste : (rejoinFail p d).rd (tasteFld p) = d.rd (tasteFld p) := by
  have hwaits : (rejoinWaits p d).rd (tasteFld p) = d.rd (tasteFld p) := by
    rw [rejoinWaits, raise_rd_spared _ (by cases p <;> decide), Dev.rd_updRole, setPlaneState,
      Dev.rd_wr_ne _ _ _ _ (by cases p <;> decide), Dev.rd_wr_ne _ _ _ _ (by cases p <;> decide),
      Dev.rd_wr_ne _ _ _ _ (by cases p <;> decide)]
  rw [rejoinFail_eq]
  split
  · rw [raise_rd_spared _ (by cases p <;> decide), setPlaneState, Dev.rd_wr_ne _ _ _ _ (by cases p <;> decide), hwaits]
  · exact hwaits
end

/-! ### Tasting alone and in both planes (R290, R298) -/

section
variable {p : Plane} {n : Nat} {ok : Bool} {d : Dev}

theorem tasteSignature_joins (h : d.planeState p = 1) : (tasteSignature p true n d).planeState p = 4 ∧
    (tasteSignature p true n d).rd (tasteFld p) = 1 ∧ (tasteSignature p true n d).rd .RED_BULK_PASS = 1 := by
  rw [tasteSignature, if_pos h, if_pos rfl]
  refine ⟨?_, ?_, ?_⟩
  · rw [Dev.planeState, Dev.rd_wr_ne _ _ _ _ (by cases p <;> decide), Dev.rd_wr_ne _ _ _ _ (by cases p <;> decide)]
    exact setPlaneState_planeState p _ (by decide)
  · rw [Dev.rd_wr_ne _ _ _ _ (by cases p <;> decide), Dev.rd_wr_ne _ _ _ _ (by cases p <;> decide), setPlaneState,
      Dev.rd_wr_ne _ _ _ _ (by cases p <;> decide)]
    exact d.rd_tasteFld_wr p (by decide)
  · rw [Dev.rd_wr_ne _ _ _ _ (by decide), Dev.rd_wr_same]
    rfl

theorem tasteSignature_rejects (h : d.planeState p = 1) : d.rejoinFailed (tasteSignature p false n d) p ∧
    (tasteSignature p false n d).rd (tasteFld p) = 2 := by
  rw [tasteSignature, if_pos h, if_neg (by decide)]
  refine ⟨?_, (rejoinFail_taste p _).trans (tasteFail_taste p d (by decide))⟩
  have hfails := rejoinFail_fails p (tasteFail p 2 d)
  rwa [Dev.rejoinFailed, tasteFail_role] at hfails

@[simp] theorem setVerdict_verdict (p : Plane) (v : Bool) (d : Dev) : (setVerdict p v d).red.taste.verdict p = some v := by cases p <;> rfl

@[simp] theorem setVerdict_rd (p : Plane) (v : Bool) (d : Dev) (f : Fld) : (setVerdict p v d).rd f = d.rd f := rfl

/-- A signature of a tasting that occupies a plane that computes. -/
theorem tasteSignature_judges (h : d.planeState p = 0) (hbusy : d.tasteBusy p = true) (hruns : d.runs p = true) :
    (tasteSignature p ok n d).red.taste.verdict p = some ok ∧ (tasteSignature p ok n d).rd (tasteFld p) = if ok then 1 else 2 := by
  rw [tasteSignature, if_neg (by omega), if_neg (by simp [hbusy, hruns])]
  cases ok with
  | true =>
    rw [if_pos rfl, setVerdict_verdict, setVerdict_rd]
    exact ⟨rfl, d.rd_tasteFld_wr p (by decide)⟩
  | false =>
    rw [if_neg (by decide), setVerdict_verdict, setVerdict_rd]
    exact ⟨rfl, tasteFail_taste p d (by decide)⟩

theorem tasteSignature_ignored (h : d.planeState p ≠ 1) (hbusy : d.tasteBusy p = false) : tasteSignature p ok n d = d := by
  rw [tasteSignature, if_neg h, if_pos (by simp [hbusy])]

/-! ### Reload and bulk racking (R298, R299) -/

theorem reloadPlane_mems (p : Plane) (s : Part) : (reloadPlane p s).mems = s.mems.setPl p (loadLocals s.dev.pat (s.mems.pl p)) := by
  cases p <;> rfl

theorem reloadDone_tastes {s : Part} (h : s.dev.planeState p = 3) : (reloadDone p true s).dev.planeState p = 1 ∧
    (reloadDone p true s).mems = s.mems.setPl p (loadLocals s.dev.pat (s.mems.pl p)) := by
  rw [reloadDone, if_neg (not_not_intro h), if_pos rfl]
  refine ⟨?_, reloadPlane_mems p s⟩
  rw [Part.onDev_dev, Dev.planeState, Dev.incSat, Dev.rd_wr_ne _ _ _ _ (by cases p <;> decide), Dev.rd_updRole]
  exact setPlaneState_planeState p _ (by decide)

theorem reloadDone_fails {s : Part} (h : s.dev.planeState p = 3) : reloadDone p false s = s.onDev (rejoinFail p) := by
  rw [reloadDone, if_neg (not_not_intro h), if_neg (by decide)]

section
variable (h : d.planeState p = 4)
include h

theorem bulkPassDone_ready : ((bulkPassDone p 0 d).role p).joinReady = true ∧ (bulkPassDone p 0 d).rd .RED_BULK_LINES = 0 := by
  rw [bulkPassDone, if_neg (not_not_intro h), if_pos rfl, Dev.role_updRole, Dev.rd_updRole, Dev.rd_wr_same]
  exact ⟨rfl, rfl⟩

theorem bulkPassDone_again (hn : n ≠ 0) (hpass : d.rd .RED_BULK_PASS < 64) : ((bulkPassDone p n d).role p).joinReady = false ∧
    (bulkPassDone p n d).rd .RED_BULK_PASS = d.rd .RED_BULK_PASS + 1 := by
  rw [bulkPassDone, if_neg (not_not_intro h), if_neg hn, if_neg (by omega), Dev.role_updRole, Dev.rd_updRole,
    Dev.rd_wr_ne _ _ _ _ (by decide), Dev.rd_wr_same]
  exact ⟨rfl, Nat.mod_eq_of_lt (show _ < 2 ^ 8 by omega)⟩

theorem bulkPassDone_fails (hn : n ≠ 0) (hpass : 64 ≤ d.rd .RED_BULK_PASS) : bulkPassDone p n d = rejoinFail p d := by
  rw [bulkPassDone, if_neg (not_not_intro h), if_neg hn, if_pos hpass]
end

theorem rejoinRetry_retry (h : d.planeState p = 2) : ((rejoinRetry p d).role p).retry = false := by
  rw [rejoinRetry, if_pos h, Dev.role_updRole]
end

/-! ### The arbiter's link, the token and RED_CMD (R288, R292, R295, R301, R302) -/

section
variable (d : Dev)

theorem arbLink_linkLost : (arbLink d).red.linkLost = true := by
  unfold arbLink
  split
  · next h => exact h
  · rw [raise_red]
    rfl

theorem riddleDefer_deferred (hact : d.active = .A) (hdue : d.rd .RED_TIMER_RIDDLE_REMAIN = 0) : (riddleDefer d).red.deferred = true := by
  unfold riddleDefer
  extract_lets due
  have hd : due = true := by simp [due, hact, hdue]
  cases h : d.red.deferred with
  | true =>
    rw [if_neg (by simp)]
    exact h
  | false =>
    rw [if_pos (by rw [hd]; rfl), raise_red]
    rfl

theorem riddleNow_due : (riddleNow d).rd .RED_TIMER_RIDDLE_REMAIN = 0 := Dev.rd_wr_same _ _ _ _

theorem redClear_clears : (redClear d).rd .RED_CMP_MISMATCH = 0 ∧ (redClear d).rd .RED_CMP_KIND = 0 ∧
    (redClear d).rd .RED_CMP_IDX_INDEX = 0 ∧ (redClear d).rd .RED_CMP_CYC_CYCNT = 0 := by
  unfold redClear
  refine ⟨?_, ?_, ?_, ?_⟩ <;> simp (disch := decide) only [Dev.rd_wr_ne, Dev.rd_wr_same] <;> rfl

variable (p : Plane)

/-- What passing the token to a plane shows, and a code after it. -/
theorem tokenPassed {c : Code} {v : Nat} (hact : Fld.RED_ROLE_ACTIVE.sparedBy c) (hchg : Fld.RED_ROLE_ROLE_CHG.sparedBy c)
    (hriddle : Fld.RED_ROLE_RIDDLE.sparedBy c) (hv : v < 2) {e : Dev}
    (he : raise c wField [] ((giveToken p d).wr .RED_ROLE_RIDDLE v) = e) :
    (e.active = p ∧ e.rd .RED_ROLE_ROLE_CHG = min (d.rd .RED_ROLE_ROLE_CHG + 1) 65535) ∧ e.rd .RED_ROLE_RIDDLE = v := by
  have hupd : ∀ (g : RedSt → RedSt) (x : Dev) (f : Fld), (x.updRed g).rd f = x.rd f := fun _ _ _ => rfl
  subst he
  refine ⟨⟨?_, ?_⟩, ?_⟩
  · rw [Dev.active, raise_rd_spared _ hact, giveToken, setActive, Dev.incSat]
    simp (disch := decide) only [Dev.rd_wr_ne, Dev.rd_wr_same, hupd]
    cases p <;> rfl
  · rw [raise_rd_spared _ hchg, giveToken, setActive, Dev.incSat]
    simp (disch := decide) only [Dev.rd_wr_ne, Dev.rd_wr_same, hupd]
    exact Nat.mod_eq_of_lt (show min (d.rd .RED_ROLE_ROLE_CHG + 1) 65535 < 65536 by omega)
  · rw [raise_rd_spared _ hriddle, Dev.rd_wr_same]
    exact Nat.mod_eq_of_lt hv
end

section
variable {d : Dev} (h : d.quiet = true)
include h

theorem revert_eq (hact : d.active = .B) (hdue : d.rd .RED_TIMER_REVERT_REMAIN = 0) :
    revert d = raise .REVERT wField [] ((giveToken .A d).wr .RED_ROLE_RIDDLE 0) := if_pos (by simp [hact, hdue, h])

theorem riddleStart_eq (hact : d.active = .A) (hdue : d.rd .RED_TIMER_RIDDLE_REMAIN = 0) :
    riddleStart d = raise .RIDDLE_START wField [] ((giveToken .B d).wr .RED_ROLE_RIDDLE 1) := if_pos (by simp [hact, hdue, h])

theorem riddleEnd_eq (hact : d.active = .B) (hswap : d.rd .RED_ROLE_RIDDLE = 1) (hdue : 1024 ≤ d.red.swap) :
    riddleEnd d = raise .RIDDLE_END wField [] ((giveToken .A d).wr .RED_ROLE_RIDDLE 0) := if_pos (by simp [hact, hswap, hdue, h])
end

/-- Away from a quiet boundary the token stays. -/
theorem token_stays {d : Dev} (h : d.quiet = false) : revert d = d ∧ riddleStart d = d ∧ riddleEnd d = d :=
  ⟨if_neg (by simp [h]), if_neg (by simp [h]), if_neg (by simp [h])⟩

/-- Settles O53: every row of the planes' roles by its lemma. -/
theorem planeRoles : Obligations.PlaneRoles := by
  intro p ok n s d0 st tasted verdict failed tokenAt
  refine ⟨fun h => ?_, fun h => ?_, fun h hbusy hruns => ?_, fun h hbusy => ?_, fun h => ?_, fun h => ?_, fun h => ?_,
    fun h hn hpass => ?_, fun h hn hpass => ?_, fun h => ?_, ?_,
    fun h => ⟨fun hact _ hdue => ?_, fun hact hdue => ?_, fun hact hswap hdue => ?_⟩, fun h => ?_, fun hact hdue => ?_, ?_, ?_⟩
  · exact RunsDev.of_doDev (f := tasteSignature p true n) rfl (tasteSignature_joins h)
  · exact RunsDev.of_doDev (f := tasteSignature p false n) rfl (tasteSignature_rejects h)
  · refine RunsDev.of_doDev (f := tasteSignature p ok n) rfl ?_
    have hjudged := tasteSignature_judges (n := n) (ok := ok) h hbusy hruns
    cases p <;> exact hjudged
  · exact RunsDev.of_doDev (f := tasteSignature p ok n) rfl (tasteSignature_ignored h hbusy)
  · obtain ⟨hstate, hmems⟩ := reloadDone_tastes h
    refine Runs.of_doPart (f := reloadDone p true) rfl ⟨hstate, ?_⟩
    rw [hmems]
    exact ⟨Mems.pl_setPl .., Mems.pl_setPl_other .., Mems.setPl_dram .., Mems.setPl_flash ..⟩
  · exact RunsDev.of_doPart (f := reloadDone p false) rfl (reloadDone_fails h) (rejoinFail_fails p d0)
  · exact RunsDev.of_doDev (f := bulkPassDone p 0) rfl (bulkPassDone_ready h)
  · exact RunsDev.of_doDev (f := bulkPassDone p n) rfl (bulkPassDone_again h hn hpass)
  · refine RunsDev.of_doDev (f := bulkPassDone p n) rfl ?_
    rw [bulkPassDone_fails h hn hpass]
    exact rejoinFail_fails p d0
  · exact RunsDev.of_doDev (f := rejoinRetry p) rfl (rejoinRetry_retry h)
  · exact RunsDev.of_doDev (f := arbLink) rfl (arbLink_linkLost d0)
  · obtain ⟨hat, -⟩ := tokenPassed d0 .A (v := 0) (by decide) (by decide) (by decide) (by decide) (revert_eq h hact hdue).symm
    exact RunsDev.of_doDev (f := revert) rfl hat
  · exact RunsDev.of_doDev (f := riddleStart) rfl
      (tokenPassed d0 .B (by decide) (by decide) (by decide) (by decide) (riddleStart_eq h hact hdue).symm)
  · exact RunsDev.of_doDev (f := riddleEnd) rfl
      (tokenPassed d0 .A (by decide) (by decide) (by decide) (by decide) (riddleEnd_eq h hact hswap hdue).symm)
  · obtain ⟨hrevert, hstart, hend⟩ := token_stays h
    exact ⟨RunsDev.of_doDev (f := revert) rfl hrevert, RunsDev.of_doDev (f := riddleStart) rfl hstart,
      RunsDev.of_doDev (f := riddleEnd) rfl hend⟩
  · exact RunsDev.of_doDev (f := riddleDefer) rfl (riddleDefer_deferred d0 hact hdue)
  · exact RunsDev.of_doDev (f := riddleNow) rfl (riddleNow_due d0)
  · exact RunsDev.of_doDev (f := redClear) rfl (redClear_clears d0)

end Sys2Proof.Machine
end

section
/-! PROOFS of the family 10_planes_racking, the dispatcher's saves while racking may run: interrupt frames, tasks taken, ended and
switched. -/

namespace Sys2Proof.Machine

/-! ### Cores and dispatchers beside records and other cores -/

section
variable (p q : Plane) (c e : Nat) (d : Dev)

@[simp] theorem Dev.tsk_setCore (k : Core) : (d.setCore p c k).tsk q = d.tsk q := by cases p <;> cases q <;> rfl

@[simp] theorem Dev.tsk_wrP (f : Fld) (v i : Nat) : (d.wrP p f v i).tsk q = d.tsk q := by cases q <;> rfl

@[simp] theorem Dev.core_wrP (f : Fld) (v i : Nat) : (d.wrP p f v i).core q c = d.core q c := by cases q <;> rfl

@[simp] theorem Dev.core_updTsk (f : TaskSt → TaskSt) : (d.updTsk p f).core q c = d.core q c := by cases p <;> cases q <;> rfl

@[simp] theorem Dev.tsk_updTsk (f : TaskSt → TaskSt) : (d.updTsk p f).tsk p = f (d.tsk p) := by cases p <;> rfl

@[simp] theorem Dev.pat_updTsk (f : TaskSt → TaskSt) : (d.updTsk p f).pat = d.pat := by cases p <;> rfl

@[simp] theorem Dev.rdP_setCore (k : Core) (f : Fld) (i : Nat) : (d.setCore p c k).rdP q f i = d.rdP q f i := Dev.setCore_rdAt ..

@[simp] theorem noteStore_tsk (space o n : Nat) : (noteStore p space o n d).tsk q = d.tsk q := by simp [Dev.tsk]

@[simp] theorem raiseDispatch_core : (raiseDispatch p c d).core q e = d.core q e := by
  unfold raiseDispatch
  split
  · cases q <;> simp [Dev.core, Dev.pl]
  · rfl

section
variable (t : T96) (b code kind : Nat) (l : List Int)

/-- The unit of plane `p` that forms a record changes nothing but the plane's records, the cellar and the loss count. -/
theorem recordP_only : (recordP p t b code kind l d).core q c = d.core q c ∧ (recordP p t b code kind l d).tsk q = d.tsk q ∧
    (recordP p t b code kind l d).pat = d.pat := by
  unfold recordP
  extract_lets d1
  have hform : d1.core q c = d.core q c ∧ d1.tsk q = d.tsk q ∧ d1.pat = d.pat := by cases p <;> cases q <;> exact ⟨rfl, rfl, rfl⟩
  clear_value d1
  split
  · cases q <;> simpa [Dev.core, Dev.tsk, Dev.pl] using hform
  · exact hform
end
end

/-! ### Interrupt entry (R285, R456) -/

theorem cswSetLevel_eq (w : Word) {l : Nat} (h : l < 16) : cswSetLevel w l = (w &&& (0xFFFFF0FF : Word)) ||| (BitVec.ofNat 32 l <<< 8) := by
  have hlevel : BitVec.ofNat 32 (l % 16 * 256) = BitVec.ofNat 32 l <<< 8 := by
    apply BitVec.eq_of_toNat_eq
    rw [BitVec.toNat_shiftLeft, BitVec.toNat_ofNat, BitVec.toNat_ofNat, Nat.shiftLeft_eq, Nat.mod_eq_of_lt h,
      Nat.mod_eq_of_lt (show l < 2 ^ 32 by omega)]
  rw [cswSetLevel, hlevel]

theorem enterHandler_core (p : Plane) (c : Nat) (x : Nat × Nat) (d : Dev) : (enterHandler p c x d).core p c =
    { d.core p c with
      csw := cswSetLevel (d.core p c).csw x.2, step := false, pc := d.vector p x.1
      claims := (d.core p c).claims.filter (fun y => y != x), entryWin := some x } := by
  rw [enterHandler, Dev.updCore, Dev.core_setCore, Dev.wrP, Dev.core_wrAt]

section
variable {p : Plane} {c : Fin 10} {s : Part} {k : Core} {x : Nat × Nat} (ha : s.dev.coreActive p c = true) (hk : s.dev.core p c = k)
  (hie : wbit k.csw cswIe = true) (hexc : wbit k.csw cswExc = false) (hbest : bestClaim (cswLevel k.csw) k.claims = some x)
  (hwin : k.entryWin = none) (hdepth : k.depth < 15)
include ha hk hie hexc hbest hwin hdepth

/-- A delivery outside an entry window: the frame of the next depth, or a wait for racking. -/
theorem interruptDelivery_frame : interruptDelivery p c s =
    if rackHolds s.dev c (s.dev.frameAt p c (k.depth + 1)) 8 then s else
    { mems := s.mems.setLoc p c (((s.mems.loc p c).write (s.dev.frameAt p c (k.depth + 1)) 4 k.pc.toNat).write
        (s.dev.frameAt p c (k.depth + 1) + 4) 4 k.csw.toNat)
      dev := noteStore p c (s.dev.frameAt p c (k.depth + 1)) 8
        (enterHandler p c x (s.dev.updCore p c (fun k => { k with depth := k.depth + 1 }))) } := by
  subst hk
  unfold interruptDelivery
  rw [if_neg (by simp [ha, hie, hexc])]
  simp only [hbest, hwin]
  cases hheld : rackHolds s.dev c (s.dev.frameAt p c ((s.dev.core p c).depth + 1)) 8 with
  | true => rw [if_pos (by simp), if_pos rfl]
  | false => rw [if_neg (by simp [hdepth]), if_neg (by decide)]
end

/-- Settles O24: the frame is two words of local memory, and the core goes on at the vector. -/
theorem interruptEntry : Obligations.InterruptEntry := by
  intro p c x s ha hwf d0 k hie hexc hbest hwin hdepth hlevel
  have hrun := interruptDelivery_frame ha rfl hie hexc hbest hwin hdepth
  refine ⟨fun hheld => ?_, fun hfree => ?_⟩
  · exact RunsDev.of_doPart (f := interruptDelivery p c) rfl (hrun.trans (if_pos hheld)) rfl
  · refine Runs.of_doPart (f := interruptDelivery p c) rfl ?_
    have hmem : (s.part.mems.loc p c).wf = true := Mems.loc_wf hwf p c
    rw [hrun.trans (if_neg (Bool.eq_false_iff.mp hfree))]
    refine ⟨Mems.onlyLoc_setLoc ?_, ?_⟩
    · rw [Word.append_toNat]
      exact Mem.stores_low_high (i := 4) (j := 4) k.pc.isLt (Mem.stores_write hmem _ _ _)
        (Mem.stores_write (Mem.write_wf _ _ _ hmem) _ _ _)
    · rw [noteStore_core, enterHandler_core, Dev.updCore, Dev.core_setCore, cswSetLevel_eq _ hlevel, Dev.vector, Dev.rdP_setCore,
        Nat.mul_comm x.1]
      rfl

/-! ### An activation begins (R445, R447) -/

section
variable (p q : Plane) (c e t : Nat) (a : Act) (d : Dev)

theorem beginAct_cases : ∃ b : Dev, b = (d.wrP p .TSK_TASK_SEQ ((d.rdP p .TSK_TASK_SEQ t + 1) % 2 ^ 32) t).updTsk p
    (fun x => { x with q := x.q.upd t List.tail }) ∧
    (beginAct p c t a d).core q e = b.core q e ∧ (beginAct p c t a d).tsk q = b.tsk q ∧ (beginAct p c t a d).pat = b.pat := by
  refine ⟨_, rfl, ?_⟩
  unfold beginAct
  extract_lets seq d1
  split
  · exact recordP_only p q e d1 _ _ _ _ _
  · exact ⟨rfl, rfl, rfl⟩

@[simp] theorem beginAct_core : (beginAct p c t a d).core q e = d.core q e := by
  obtain ⟨b, rfl, hcore, -, -⟩ := beginAct_cases p q c e t a d
  rw [hcore, Dev.core_updTsk, Dev.core_wrP]

@[simp] theorem beginAct_pat : (beginAct p c t a d).pat = d.pat := by
  obtain ⟨b, rfl, -, -, hpat⟩ := beginAct_cases p p c c t a d
  rw [hpat, Dev.pat_updTsk]
  rfl

/-- The oldest activation leaves the queue. -/
theorem beginAct_queue : ((beginAct p c t a d).tsk p).q.get t = ((d.tsk p).q.get t).tail := by
  obtain ⟨b, rfl, -, htsk, -⟩ := beginAct_cases p p c c t a d
  rw [htsk, Dev.tsk_updTsk, Dev.tsk_wrP, Tab.get_upd, if_pos rfl]

theorem beginAct_queue_of_cons {r : List Act} (hq : (d.tsk p).q.get t = a :: r) : ((beginAct p c t a d).tsk p).q.get t = r := by
  rw [beginAct_queue, hq]
  rfl
end

/-- A read of TSK_TAKE that finds an activation. -/
theorem tskTake_takes {p : Plane} {c t : Nat} {a : Act} {r : List Act} {d : Dev} (hidle : (d.core p c).intTask = none)
    (hchosen : d.chosen p c false = some t) (hq : (d.tsk p).q.get t = a :: r) :
    (tskTake p c d).1.core p c = { d.core p c with intTask := some t, intAct := a } ∧ ((tskTake p c d).1.tsk p).q.get t = r := by
  have htake : (tskTake p c d).1 = (beginAct p c t a d).updCore p c (fun k => { k with intTask := some t, intAct := a }) := by
    rw [tskTake, if_neg (by simp [hidle])]
    simp only [hchosen, hq]
  rw [htake, Dev.updCore, Dev.core_setCore, Dev.tsk_setCore, beginAct_core]
  exact ⟨rfl, beginAct_queue_of_cons p c t a d hq⟩

theorem tskDone_ends {p : Plane} {c : Nat} {s : Part} (h : (s.dev.core p c).intTask ≠ none) : tskDone p c s =
    s.onDev (fun d => raiseDispatch p c (d.updCore p c (fun k => { k with intTask := none, intAct := {} }))) :=
  if_pos (Option.isSome_iff_ne_none.mpr h)

/-! ### A task switch (R285, R446, R447) -/

/-- The task of a due switch is above the task that runs, so it is another one. -/
theorem switchDue_ne_current {d : Dev} {p : Plane} {c t : Nat} (h : d.switchDue p c = some t) : (d.core p c).curTask ≠ some t := by
  intro hcur
  have hrank : d.runRank p c = (d.taskDesc t).prio + 1 := by simp only [Dev.runRank, hcur]
  unfold Dev.switchDue at h
  split at h
  · cases h
  · next u hu =>
    dsimp only at h
    split at h
    · next hdue =>
      obtain rfl : u = t := Option.some.inj h
      simp [hrank] at hdue
    · cases h

section
variable (p : Plane) (c : Nat) (s : Part)

@[simp] theorem saveRunning_pat : (saveRunning p c s).dev.pat = s.dev.pat := by
  unfold saveRunning
  dsimp only
  rw [noteStore_pat]
  split
  · exact Dev.pat_updTsk ..
  · rfl

/-- Saving the context that runs touches no queue and no activation saved for another task. -/
theorem saveRunning_tsk {t : Nat} (h : (s.dev.core p c).curTask ≠ some t) :
    ((saveRunning p c s).dev.tsk p).q = (s.dev.tsk p).q ∧
      ((saveRunning p c s).dev.tsk p).saved.get t = (s.dev.tsk p).saved.get t := by
  unfold saveRunning
  dsimp only
  rw [noteStore_tsk]
  split
  · next u hu =>
    rw [Dev.tsk_updTsk]
    exact ⟨rfl, Tab.get_set_ne _ _ (fun hut => h (hut ▸ hu))⟩
  · exact ⟨rfl, rfl⟩

variable {p c s} {t : Nat} {a : Act} {r : List Act}

/-- A task without a saved context starts its oldest activation. -/
theorem enterTask_starts (hsaved : (s.dev.tsk p).saved.get t = none) (hq : (s.dev.tsk p).q.get t = a :: r) :
    enterTask p c t s = s.onDev (fun d => countSwitch p c ((beginAct p c t a d).updCore p c (startCtx (beginAct p c t a d) p c t a))) := by
  unfold enterTask
  simp only [hsaved, hq]

theorem startCtx_shows (d : Dev) (k : Core) : (startCtx d p c t a k).curTask = some t ∧ (startCtx d p c t a k).curAct = a ∧
    (startCtx d p c t a k).pc = alignPc (d.taskDesc t).entry := by
  unfold startCtx Core.wg
  exact ⟨rfl, rfl, rfl⟩

theorem enterTask_shows (hsaved : (s.dev.tsk p).saved.get t = none) (hq : (s.dev.tsk p).q.get t = a :: r) :
    (enterTask p c t s).mems = s.mems ∧ ((enterTask p c t s).dev.core p c).curTask = some t ∧
      ((enterTask p c t s).dev.core p c).curAct = a ∧
      ((enterTask p c t s).dev.core p c).pc = alignPc (s.dev.taskDesc t).entry ∧ ((enterTask p c t s).dev.tsk p).q.get t = r := by
  have hdesc : (beginAct p c t a s.dev).taskDesc t = s.dev.taskDesc t := by rw [Dev.taskDesc, beginAct_pat]; rfl
  obtain ⟨htask, hact, hpc⟩ := startCtx_shows (p := p) (c := c) (t := t) (a := a) (beginAct p c t a s.dev)
    ((beginAct p c t a s.dev).core p c)
  rw [enterTask_starts hsaved hq, Part.onDev_dev, countSwitch, Dev.core_wrP, Dev.tsk_wrP, Dev.updCore, Dev.core_setCore,
    Dev.tsk_setCore]
  exact ⟨rfl, htask, hact, hpc.trans (by rw [hdesc]), beginAct_queue_of_cons p c t a s.dev hq⟩
end

/-- Settles O27: TSK_TAKE, DONE, and a switch that waits for racking or saves and enters. -/
theorem taskFlow : Obligations.TaskFlow := by
  intro p c t a r s ha d0 k
  refine ⟨fun hidle hchosen hq => ?_, fun hcur => ?_, fun hdue hheld => ?_, fun hdue hfree hsaved hq => ?_⟩
  · refine RunsDev.of_doDev (f := coreDo p c (fun d => (tskTake p c d).1)) rfl ?_
    rw [coreDo, if_pos ha]
    exact tskTake_takes hidle hchosen hq
  · refine RunsDev.of_doPart (f := coreDoP p c (tskDone p c)) rfl ((if_pos ha).trans (tskDone_ends hcur)) ?_
    rw [raiseDispatch_core]
    exact Dev.core_setCore ..
  · refine RunsDev.of_doPart (f := preemptSwitch p c) rfl ?_ rfl
    rw [preemptSwitch, if_pos ha, hdue]
    exact if_pos hheld
  · refine Runs.of_doPart (f := preemptSwitch p c) rfl ?_
    have hswitch : preemptSwitch p c s.part = enterTask p c t (saveRunning p c s.part) := by
      rw [preemptSwitch, if_pos ha, hdue]
      exact if_neg (Bool.eq_false_iff.mp hfree)
    obtain ⟨hqueues, hsaves⟩ := saveRunning_tsk p c s.part (switchDue_ne_current hdue)
    obtain ⟨hmems, htask, hact, hpc, hrest⟩ := enterTask_shows (p := p) (c := c) (hsaves.trans hsaved)
      ((congrArg (·.get t) hqueues).trans hq)
    rw [hswitch]
    refine ⟨hmems, htask, hact, hpc.trans ?_, hrest⟩
    rw [Dev.taskDesc, saveRunning_pat]
    rfl

end Sys2Proof.Machine
end

section
/-! PROOFS of the family 11_time_bases: the step of TB0 that TIME_STEP leaves waiting behind an announced one. -/

namespace Sys2Proof.Machine

/-! ### The delivery of a shared command beside the time unit (R510) -/

theorem skipHead_time (u : Bool) (d : Dev) : (skipHead u d).time = d.time := by
  unfold skipHead
  split
  · split
    · rfl
    · split <;> rfl
  · rfl

theorem passCommand_time (h : MbxHdr) (d : Dev) : (passCommand h d).time = d.time := by
  rw [passCommand, hostVector_time, skipHead_time]
  cases h.u <;> rfl

theorem releaseReply_time (r : Reply) (d : Dev) : (releaseReply r d).time = d.time := by rw [releaseReply, hostVector_time]; rfl

/-- A delivered shared command leaves the time unit as its execution does. -/
theorem mailbox_delivered_time {h : MbxHdr} {exe : Dev → Dev × Nat × Nat} {d : Dev} (hd : h.deliveredTo d) :
    (mailbox h exe d).time = (exe d).1.time := by
  obtain ⟨hreads, hcheck⟩ := hd
  rw [mailbox, hcheck, if_neg (by rw [hreads]; decide)]
  exact (releaseReply_time _ _).trans (passCommand_time _ _)

/-! ### A step behind an announced one (R343) -/

@[simp] theorem Dev.bs_updBase (d : Dev) (b c : Nat) (f : BaseSt → BaseSt) :
    (d.updBase b f).bs c = if b = c then f (d.bs c) else d.bs c := by simp [Dev.bs, Dev.updBase, Dev.updTime]

/-- A step that is accepted after the base's pending one was announced waits behind it. -/
theorem timeStep_announced {b : Nat} {d : Dev} (a : StepArg) (hok : stepRefused b d = false) (hsent : (d.bs b).stepSent = true) :
    (timeStep b a d).1.bs b = { d.bs b with nextStep := some a } := by
  rw [timeStep, hok, if_neg (by decide), Dev.bs_updBase, if_pos rfl, if_pos hsent]

/-- Stage SEWN of a leader of port 0 on which TB0 runs: the sync frame of the next boundary has left with a step of TB0 by 1 µs. -/
def stepAnnounced : State :=
  let d : Dev := { time := { bases := ⟨{}, [(0, { pendStep := some (.off (1000 * nsUnit)) })]⟩ } }
  { part := { dev := syncSend 0 ((((d.wr .HST_PROTO_ACT 1).wr .SYS_STATE_STAGE 8).wr .TB_STAT_STATE 1).wr .LS_STATE_ROLE 1) } }

/-- A TIME_STEP command, and the step by 2 µs that it asks for. -/
def stepCommand : MbxHdr := { code := 0x121, len := 16, u := true }
def laterStep : StepArg := .off (2000 * nsUnit)

theorem stepCommand_delivered : stepCommand.deliveredTo stepAnnounced.part.dev := by decide +kernel

theorem stepAnnounced_accepts : stepRefused 0 stepAnnounced.part.dev = false := by decide +kernel

theorem stepAnnounced_bs : (stepAnnounced.part.dev.bs 0).stepSent = true ∧
    (stepAnnounced.part.dev.bs 0).pendStep = some (.off (1000 * nsUnit)) := by decide +kernel

/-- The command is accepted, and the announced step stays the pending one. -/
theorem stepAnnounced_pendStep : ((mailbox stepCommand (timeStep 0 laterStep) stepAnnounced.part.dev).bs 0).pendStep =
    some (.off (1000 * nsUnit)) := by
  obtain ⟨hsent, hpend⟩ := stepAnnounced_bs
  have hbase : (mailbox stepCommand (timeStep 0 laterStep) stepAnnounced.part.dev).bs 0 =
      { stepAnnounced.part.dev.bs 0 with nextStep := some laterStep } :=
    (congrArg (·.bases.get 0) (mailbox_delivered_time stepCommand_delivered)).trans
      (timeStep_announced laterStep stepAnnounced_accepts hsent)
  exact (congrArg BaseSt.pendStep hbase).trans hpend

/-- Refutes O54: a step of TB0 that TIME_STEP accepts after the sync frame of the next boundary has left waits for the boundary after that one
(R343); the step announced with the frame stays the pending one. -/
theorem not_timeCommands : ¬ Obligations.TimeCommands := by
  intro h
  obtain ⟨hmail, -⟩ := h stepCommand 0 0 0 laterStep 0 0 0 false ⟨0, 0, false, false, 0⟩ [] stepAnnounced
  obtain ⟨-, -, hstep, -⟩ := hmail stepCommand_delivered
  obtain ⟨-, hpend⟩ := RunsDev.post_of_doDev (f := mailbox stepCommand (timeStep 0 laterStep)) rfl (hstep stepAnnounced_accepts)
  exact absurd (stepAnnounced_pendStep.symm.trans hpend) (by decide)

end Sys2Proof.Machine
end

section
/-! PROOFS of the family 12_lockstitch_schedule: sync frames, cycle frames, permissions, slot frames and claims, at this controller and at a
node. -/

namespace Sys2Proof.Machine

/-! ### A port, its nodes and its slots beside each other -/

section
variable (d : Dev) (n x y : Nat)

section
variable (g : PortSt → PortSt)
@[simp] theorem Dev.port_updPort : (d.updPort n g).port n = g (d.port n) := by simp [Dev.port, Dev.updPort]
@[simp] theorem Dev.updPort_field : (d.updPort n g).field = d.field := rfl
end

section
variable (g : NodeSt → NodeSt)
@[simp] theorem Dev.node_updNode : (d.updNode n x g).node n y = if x = y then g (d.node n y) else d.node n y := by
  simp [Dev.node, Dev.updNode]
theorem Dev.node_updNode_same : (d.updNode n x g).node n x = g (d.node n x) := by simp
@[simp] theorem Dev.slots_updNode : ((d.updNode n x g).port n).slots = (d.port n).slots := by simp [Dev.updNode]
@[simp] theorem Dev.rd_updNode (f : Fld) (i : Nat) : (d.updNode n x g).rd f i = d.rd f i := rfl
end

section
variable (g : SlotSt → SlotSt)
@[simp] theorem Dev.slot_updSlot : ((d.updSlot n x g).port n).slots.get y =
    if x = y then g ((d.port n).slots.get y) else (d.port n).slots.get y := by simp [Dev.updSlot]
@[simp] theorem Dev.node_updSlot : (d.updSlot n x g).node n y = d.node n y := by simp [Dev.node, Dev.updSlot]
end

@[simp] theorem Dev.port_wrAt (f : Fld) (p : Plane) (i j v : Nat) : (d.wrAt f p i j v).port n = d.port n := rfl
@[simp] theorem Dev.port_wr (f : Fld) (v i : Nat) : (d.wr f v i).port n = d.port n := rfl
@[simp] theorem Dev.node_wrAt (f : Fld) (p : Plane) (i j v : Nat) : (d.wrAt f p i j v).node n y = d.node n y := rfl

theorem Dev.portSec_congr {d e : Dev} (h : e.pat = d.pat) : e.portSec n = d.portSec n := by rw [Dev.portSec, h, Dev.portSec]
end

/-! ### What spares a port: its state, the Pattern and the registers of the ports stay -/

/-- Between `d` and `e` port `n` keeps all but how the frames that it repeats end and the codes of the cycle; the Pattern and every register of
the ports stay. -/
structure Dev.sparesPort (d : Dev) (n : Nat) (e : Dev) : Prop where
  port : ∃ a b l, e.port n = { d.port n with relayP := a, relayS := b, codes := l }
  pat : e.pat = d.pat
  regs : ∀ k, viewBlk k = Blk.lsr.num → Sparse.find e.regs k = Sparse.find d.regs k

/-- A field of the rows of the ports. -/
abbrev Fld.ofPort (f : Fld) : Prop := f.blk = .lsr ∧ f.s1 = 128 ∧ f.off < 0x180 ∧ f.lo < 32

theorem Fld.ofPort.inside {f : Fld} (h : f.ofPort) {n : Nat} (hn : n < 4) : f.inside n 0 := by
  obtain ⟨-, hs, ho, hlo⟩ := h
  exact ⟨by rw [hs]; omega, hlo⟩

/-- An entry lies in no block below its own, whatever its index. -/
theorem Blk.num_le_viewBlk (f : Fld) (p : Plane) (i j : Nat) : f.blk.num ≤ viewBlk (f.key p i j) := by
  unfold viewBlk Fld.key Fld.word
  omega

section
variable {d e : Dev} {n : Nat}

theorem Dev.sparesPort.of_ring (hring : e.ring = d.ring) (hpat : e.pat = d.pat)
    (hregs : ∀ k, viewBlk k = Blk.lsr.num → Sparse.find e.regs k = Sparse.find d.regs k) : d.sparesPort n e :=
  ⟨⟨_, _, _, by rw [Dev.port, hring]; rfl⟩, hpat, hregs⟩

theorem Dev.sparesPort.refl (d : Dev) (n : Nat) : d.sparesPort n d := .of_ring rfl rfl (fun _ _ => rfl)

theorem Dev.sparesPort.trans {x : Dev} (h : d.sparesPort n e) (h' : e.sparesPort n x) : d.sparesPort n x := by
  obtain ⟨a, b, l, hp⟩ := h.port
  obtain ⟨a', b', l', hp'⟩ := h'.port
  exact ⟨⟨a', b', l', by rw [hp', hp]⟩, h'.pat.trans h.pat, fun k hk => (h'.regs k hk).trans (h.regs k hk)⟩

theorem forL_spares {α : Type} (l : List α) (f : α → Dev → Dev) (h : ∀ x ∈ l, ∀ s : Dev, s.sparesPort n (f x s)) :
    d.sparesPort n (forL l f d) := forL_keeps (d.sparesPort n) l f (fun x hx s hs => hs.trans (h x hx s)) (.refl _ _)

theorem bothPlanes_spares {f : Plane → Dev → Dev} (h : ∀ p (s : Dev), s.sparesPort n (f p s)) : d.sparesPort n (bothPlanes f d) :=
  (h .A d).trans (h .B _)

/-- A part of the port that neither a repeated frame nor a code changes. -/
theorem Dev.sparesPort.read {β : Type} (h : d.sparesPort n e) (g : PortSt → β)
    (hg : ∀ s a b l, g { s with relayP := a, relayS := b, codes := l } = g s) : g (e.port n) = g (d.port n) := by
  obtain ⟨a, b, l, hp⟩ := h.port
  rw [hp, hg]

section
variable (h : d.sparesPort n e)
include h

theorem Dev.sparesPort.node (y : Nat) : e.node n y = d.node n y := h.read (·.nodes.get y) (fun _ _ _ _ => rfl)

theorem Dev.sparesPort.slots : (e.port n).slots = (d.port n).slots := h.read (·.slots) (fun _ _ _ _ => rfl)

theorem Dev.sparesPort.portSec : e.portSec n = d.portSec n := Dev.portSec_congr n h.pat

theorem Dev.sparesPort.rdAt {f : Fld} {i j : Nat} (hb : f.blk = .lsr) (hi : f.inside i j) : e.rdAt f .A i j = d.rdAt f .A i j := by
  rw [Dev.rdAt, h.regs _ (by rw [viewBlk_key _ hi, hb]; rfl), Dev.rdAt]

theorem Dev.sparesPort.rd {f : Fld} {i : Nat} (hf : f.ofPort) (hi : i < 4) : e.rd f i = d.rd f i := h.rdAt hf.1 (hf.inside hi)
end
end

section
variable (d : Dev) (n : Nat)

theorem Dev.wrAt_spares {f : Fld} {p : Plane} {i j : Nat} (v : Nat) (h : viewBlk (f.key p i j) ≠ Blk.lsr.num) :
    d.sparesPort n (d.wrAt f p i j v) := by
  refine .of_ring rfl rfl (fun k hk => ?_)
  have hne : f.key p i j ≠ k := fun he => h (he ▸ hk)
  rw [Dev.wrAt, Sparse.find_put, if_neg hne]

theorem Dev.wr_spares {f : Fld} {i : Nat} (v : Nat) (h : viewBlk (f.key .A i 0) ≠ Blk.lsr.num) : d.sparesPort n (d.wr f v i) :=
  d.wrAt_spares n v h

/-- Every starred block lies above the registers of the ports. -/
theorem Dev.wrP_spares {f : Fld} {p : Plane} {i : Nat} (v : Nat) (h : f.blk.starred = true) : d.sparesPort n (d.wrP p f v i) := by
  have habove : Blk.lsr.num < f.blk.num := by
    revert h
    cases f.blk <;> decide
  exact d.wrAt_spares n v (Nat.ne_of_gt (Nat.lt_of_lt_of_le habove (Blk.num_le_viewBlk f p i 0)))

theorem Dev.updPl_spares (p : Plane) (g : PlaneDev → PlaneDev) : d.sparesPort n (d.updPl p g) := by
  cases p <;> exact .of_ring rfl rfl (fun _ _ => rfl)

theorem Dev.updTime_spares (g : TimeSt → TimeSt) : d.sparesPort n (d.updTime g) := .of_ring rfl rfl (fun _ _ => rfl)

theorem Dev.updBase_spares (b : Nat) (g : BaseSt → BaseSt) : d.sparesPort n (d.updBase b g) := d.updTime_spares n _

theorem Dev.updField_spares (g : FieldSt → FieldSt) : d.sparesPort n (d.updField g) := .of_ring rfl rfl (fun _ _ => rfl)

theorem Dev.updCh_spares (c : Chan) (g : ChanSt → ChanSt) : d.sparesPort n (d.updCh c g) := by
  cases c <;> exact .of_ring rfl rfl (fun _ _ => rfl)

/-! ### Codes, records and sources spare every port (R23) -/

theorem recordAt_spares (t : T96) (b code kind w : Nat) (l : List Int) : d.sparesPort n (recordAt t b code kind w l d) := by
  have hloss := d.wr_spares n (f := .CEL_LOSS) (i := 0) (satU 32 (d.rd .CEL_LOSS + 1)) (by decide)
  refine .of_ring (recordAt_ring ..) (recordAt_pat ..) (fun k hk => ?_)
  unfold recordAt
  dsimp only
  split
  · rfl
  · exact hloss.regs k hk

theorem noteFault_spares (c : Code) : d.sparesPort n (noteFault c d) := by
  unfold noteFault
  split
  · exact (d.wr_spares n c.num (by decide)).trans (Dev.wr_spares _ n _ (by decide))
  · exact .refl _ _

theorem icuRaise_spares (p : Plane) (m : Nat) : d.sparesPort n (icuRaise p m d) := by
  unfold icuRaise
  split <;> exact d.wrP_spares n 1 rfl

theorem icuBoth_spares (m : Nat) : d.sparesPort n (icuBoth m d) := bothPlanes_spares (fun p e => icuRaise_spares e n p m)

theorem raise_spares (c : Code) (w : Nat) (l : List Int) : d.sparesPort n (raise c w l d) := by
  unfold raise
  have hnote := (recordAt_spares d n d.stamp.1 d.stamp.2 c.num c.kind.num w l).trans (noteFault_spares _ n c)
  split
  · exact hnote.trans (icuBoth_spares _ n _)
  · exact hnote

theorem raiseP_spares (p : Plane) (c : Code) (l : List Int) : d.sparesPort n (raiseP p c l d) := by
  unfold raiseP
  extract_lets d1 d2
  have hform : d.sparesPort n d1 := d.updPl_spares n p _
  have hnote : d1.sparesPort n d2 := by
    unfold d2
    split
    · exact (recordAt_spares ..).trans (noteFault_spares ..)
    · exact .refl _ _
  split
  · exact (hform.trans hnote).trans (icuRaise_spares ..)
  · exact hform.trans hnote

theorem raiseSaf_spares (c : Code) (w : Nat) (l : List Int) : d.sparesPort n (raiseSaf c w l d) := by
  unfold raiseSaf
  dsimp only
  split
  · exact (raise_spares d n c w l).trans (Dev.wr_spares _ n _ (by decide))
  · exact raise_spares d n c w l

/-! ### Codes of a port (R363) and its state (R365, R391) -/

theorem raiseRing_spares (c : Code) (l : List Int) : d.sparesPort n (raiseRing n c l d) := by
  unfold raiseRing
  split
  · exact .refl _ _
  · have hcodes : d.sparesPort n (d.updPort n (fun s => { s with codes := c.num :: s.codes })) :=
      ⟨⟨_, _, _, Dev.port_updPort ..⟩, rfl, fun _ _ => rfl⟩
    exact hcodes.trans (raise_spares ..)

theorem raiseRing_codes (c : Code) (l : List Int) : c.num ∈ ((raiseRing n c l d).port n).codes := by
  unfold raiseRing
  split
  · next h => simpa using (Bool.and_eq_true_iff.mp h).2
  · rw [Dev.port, raise_ring]
    change c.num ∈ ((d.updPort n _).port n).codes
    simp

@[simp] theorem raiseRing_field (c : Code) (l : List Int) : (raiseRing n c l d).field = d.field := by
  unfold raiseRing
  split
  · rfl
  · rw [raise_field, Dev.updPort_field]

theorem raiseRingLong_spares (c : Code) (l m : List Int) : d.sparesPort n (raiseRingLong n c l m d) := by
  unfold raiseRingLong
  split
  · exact .refl _ _
  · exact (raiseRing_spares ..).trans (recordAt_spares ..)

@[simp] theorem raiseRingLong_field (c : Code) (l m : List Int) : (raiseRingLong n c l m d).field = d.field := by
  unfold raiseRingLong
  split
  · rfl
  · rw [recordAt_field, raiseRing_field]

theorem setStage_spares (s : Nat) : d.sparesPort n (setStage s d) := by
  unfold setStage
  dsimp only
  split
  · exact .refl _ _
  · exact ((d.wr_spares n s (by decide)).trans (Dev.wr_spares _ n s (by decide))).trans (recordAt_spares ..)

theorem ringStage_spares : d.sparesPort n (ringStage d) := by
  unfold ringStage
  extract_lets st
  split
  · exact .refl _ _
  · split
    · exact setStage_spares ..
    · split
      · exact setStage_spares ..
      · refine Dev.sparesPort.trans ?_ (setStage_spares ..)
        split
        · exact .refl _ _
        · exact .of_ring rfl rfl (fun _ _ => rfl)

theorem setLs_eq {s : Nat} (h : d.lsState n ≠ s) : setLs n s d = ringStage (icuBoth (22 + 12 * n) (d.wr .LS_STATE s n)) := if_neg h

theorem setLs_spares {s : Nat} (h : d.lsState n ≠ s) : (d.wr .LS_STATE s n).sparesPort n (setLs n s d) := by
  rw [setLs_eq d n h]
  exact (icuBoth_spares ..).trans (ringStage_spares ..)

theorem setLs_lsState {s : Nat} (hn : n < 4) (hs : s < 16) : (setLs n s d).lsState n = s := by
  by_cases h : d.lsState n = s
  · rw [setLs, if_pos h, h]
  · rw [Dev.lsState, (setLs_spares d n h).rd (by decide) hn, Dev.rd_wr_same]
    exact Nat.mod_eq_of_lt hs

/-- Another register of the port, and the port, stay while its state changes. -/
theorem setLs_rd {f : Fld} {s : Nat} (hn : n < 4) (hf : f.ofPort) (hne : Fld.LS_STATE.key .A 0 0 ≠ f.key .A 0 0) :
    (setLs n s d).rd f n = d.rd f n := by
  by_cases h : d.lsState n = s
  · rw [setLs, if_pos h]
  · rw [(setLs_spares d n h).rd hf hn, Dev.rd_wr_row _ _ _ ⟨hf.2.1.symm, hne⟩]

theorem setLs_read {β : Type} (s : Nat) (g : PortSt → β) (hg : ∀ s a b l, g { s with relayP := a, relayS := b, codes := l } = g s) :
    g ((setLs n s d).port n) = g (d.port n) := by
  by_cases h : d.lsState n = s
  · rw [setLs, if_pos h]
  · exact (setLs_spares d n h).read g hg

/-- A counter of the port that counts. -/
theorem lsCount_rd (f : Fld) (hw : f.width = 16) : (lsCount f n d).rd f n = min (d.rd f n + 1) 65535 := by
  rw [lsCount, Dev.incSat, Dev.rd_wr_same, hw]
  exact Nat.mod_eq_of_lt (show min (d.rd f n + 1) 65535 < 65536 by omega)
end

end Sys2Proof.Machine
end

section
/-! PROOFS of the family 12_lockstitch_schedule, what a receiver does with a frame before it acts (R339, R340), and the time units of a
following controller beside its port. -/

namespace Sys2Proof.Machine

/-! ### A frame passes the receiver of a port (R339, R340) -/

section
variable (d : Dev) (n : Nat) (q : Path) (fin : FrameEnd)

theorem relay_spares : d.sparesPort n (relay n q fin d) := by
  unfold relay
  split
  · cases q <;> exact ⟨⟨_, _, _, Dev.port_updPort ..⟩, rfl, fun _ _ => rfl⟩
  · exact .refl _ _

@[simp] theorem relay_cyc : (relay n q fin d).cyc = d.cyc := by
  unfold relay
  split <;> rfl

@[simp] theorem relay_field : (relay n q fin d).field = d.field := by
  unfold relay
  split <;> rfl
end

section
variable {d : Dev} {n who : Nat} {q : Path} {h : RxHead} {crc form : Bool}

/-- From basting on a port is in none of the states before it. -/
theorem heard_above {st : Nat} (h : lsBasting ≤ st) :
    st ≠ lsOff ∧ st ≠ lsTack ∧ st ≠ lsInteg ∧ ¬ st ≤ lsTack ∧ ¬ st < lsBasting := by
  simp only [lsBasting, lsOff, lsTack, lsInteg] at *
  omega

theorem frameSeen_passes (hfin : h.fin = .good) (hcrc : crc = false) (hform : form = false) :
    frameSeen n q who h crc form d = if d.lsState n = lsOff then d else relay n q .good d := by
  rw [frameSeen, hcrc, hform, hfin, if_neg (by decide : ¬ FrameEnd.good = .aborted), if_neg (by decide : ¬ (false || false) = true)]

theorem frameSeen_passes_spares (hfin : h.fin = .good) (hcrc : crc = false) (hform : form = false) :
    d.sparesPort n (frameSeen n q who h crc form d) ∧ (frameSeen n q who h crc form d).field = d.field := by
  rw [frameSeen_passes hfin hcrc hform]
  split
  · exact ⟨.refl _ _, rfl⟩
  · exact ⟨relay_spares .., relay_field ..⟩

theorem frameSeen_aborted (hon : d.lsState n ≠ lsOff) (hfin : h.fin = .aborted) :
    frameSeen n q who h crc form d = relay n q .aborted (lsCount .LS_ERR_ABORT n d) := by
  rw [frameSeen, if_neg hon, if_pos hfin]

/-- A frame that R339 refuses outside TACK. -/
theorem frameSeen_refused (hon : d.lsState n ≠ lsOff) (htack : d.lsState n ≠ lsTack) (hfin : h.fin = .good)
    (hbad : crc = true ∨ form = true) : frameSeen n q who h crc form d =
      raiseRing n .FRAME_ERR [who] (lsCount .LS_ERR_FRAME_ERR n (relay n q (if crc then .aborted else .good) d)) := by
  rw [frameSeen, if_neg hon, hfin, if_neg (by decide), if_pos (by simpa using hbad)]
  exact if_neg (by simp [htack])
end

/-! ### The time units of a follower beside its port (R310, R318, R319) -/

section
variable (d : Dev) (n : Nat)

theorem enterHold_spares : d.sparesPort n (enterHold 0 d) := by
  unfold enterHold
  split
  · exact (((d.updBase_spares n 0 _).trans (Dev.wr_spares _ n _ (by decide))).trans (Dev.wr_spares _ n _ (by decide))).trans
      (raise_spares ..)
  · exact .refl _ _

theorem leaveHold_spares : d.sparesPort n (leaveHold 0 d) := by
  unfold leaveHold
  split
  · refine Dev.sparesPort.trans ?_ ((Dev.wr_spares _ n _ (by decide)).trans (raise_spares ..))
    split
    · exact (d.updBase_spares n 0 _).trans (Dev.wr_spares _ n _ (by decide))
    · exact .refl _ _
  · exact .refl _ _

theorem trigGone_spares : d.sparesPort n (trigGone 0 d) := (d.updBase_spares n 0 _).trans (leaveHold_spares ..)

theorem baseNotes_spares (clamped : Bool) : d.sparesPort n (baseNotes 0 clamped d) := by
  unfold baseNotes
  extract_lets d1 far d2
  have hclamp : d.sparesPort n d1 := by
    unfold d1
    split
    · exact (d.wr_spares n _ (by decide)).trans (raise_spares ..)
    · exact .refl _ _
  have hfar : d1.sparesPort n d2 := by
    unfold d2
    split
    · exact raise_spares ..
    · exact .refl _ _
  exact (hclamp.trans hfar).trans ((Dev.updBase_spares ..).trans (Dev.wr_spares _ n _ (by decide)))

theorem showSrem_spares : d.sparesPort n (showSrem 0 d) := d.wr_spares n _ (by decide)

theorem latchInc_spares : d.sparesPort n (latchInc 0 d) := by
  unfold latchInc
  split
  · exact .refl _ _
  · extract_lets t gain d1
    have hrate : d.sparesPort n d1 := by
      unfold d1
      split
      · exact d.wr_spares n _ (by decide)
      · exact .refl _ _
    exact ((hrate.trans (Dev.updBase_spares ..)).trans (showSrem_spares ..)).trans (baseNotes_spares ..)

theorem timeMaps_spares : d.sparesPort n (timeMaps d) := by
  refine forL_spares _ _ (fun b _ e => ?_)
  split
  · exact .refl _ _
  · exact recordAt_spares ..

theorem firstLock_spares (v : T96) : d.sparesPort n (firstLock 0 v d) := by
  unfold firstLock
  extract_lets d1 d2 d3
  have hlocked : d.sparesPort n d1 := (d.updBase_spares n 0 _).trans (Dev.wr_spares _ n _ (by decide))
  have htime : d1.sparesPort n d2 := by
    unfold d2
    rw [if_pos rfl]
    exact Dev.updTime_spares ..
  have hmaps : d2.sparesPort n d3 :=
    (((latchInc_spares ..).trans (Dev.updBase_spares ..)).trans (raise_spares ..)).trans (timeMaps_spares ..)
  split
  · exact ((hlocked.trans htime).trans hmaps).trans (enterHold_spares ..)
  · exact (hlocked.trans htime).trans hmaps

theorem servoRate_spares (r : Int) : d.sparesPort n (servoRate r d) := by
  unfold servoRate
  split
  · exact .refl _ _
  · exact d.wr_spares n _ (by decide)

/-! ### A following controller takes the announcements of a sync frame (R342, R343) -/

variable (at' : T96) (f : SyncFrame)

/-- The device with the boundary and its announcement, before the leader is noted at the port, which is spared until then. -/
theorem followSync_eq : ∃ e, d.sparesPort n e ∧
    (e.cyc.closeAt = at' ∧ e.cyc.nextAt = some (at' + f.len) ∧ e.cyc.announced = some f.cycnt) ∧
    followSync n at' f d = (e.updPort n (fun s => { s with
      leader := f.src, sewnIn := if f.mode = 1 then some 1 else if f.next = 1 then some 2 else none })).wr .LS_STATE_LRANK f.rank n := by
  unfold followSync
  extract_lets d0 fr d1 d2 c d3
  have hgone : d.sparesPort n d0 := by
    unfold d0
    split
    · exact trigGone_spares ..
    · exact .refl _ _
  have hfree : d0.sparesPort n fr.2 := .of_ring rfl rfl (fun _ _ => rfl)
  have hrate : d0.sparesPort n d1 := by
    unfold d1
    split
    · exact hfree.trans (servoRate_spares ..)
    · exact .refl _ _
  have hstep : d1.sparesPort n d2 := by
    unfold d2
    split
    · exact Dev.updBase_spares ..
    · exact .refl _ _
  have hcyc : d2.sparesPort n d3 := .of_ring rfl rfl (fun _ _ => rfl)
  exact ⟨d3, ((hgone.trans hrate).trans hstep).trans hcyc, ⟨rfl, rfl, rfl⟩, rfl⟩

theorem followSync_cyc : (followSync n at' f d).cyc.closeAt = at' ∧ (followSync n at' f d).cyc.nextAt = some (at' + f.len) ∧
    (followSync n at' f d).cyc.announced = some f.cycnt := by
  obtain ⟨e, -, hcyc, heq⟩ := followSync_eq d n at' f
  rw [heq]
  exact hcyc

theorem followSync_read {β : Type} (g : PortSt → β)
    (hg : ∀ s a b l i k, g { s with relayP := a, relayS := b, codes := l, leader := i, sewnIn := k } = g s) :
    g ((followSync n at' f d).port n) = g (d.port n) := by
  obtain ⟨e, h, -, heq⟩ := followSync_eq d n at' f
  obtain ⟨a, b, l, hp⟩ := h.port
  rw [heq, Dev.port_wr, Dev.port_updPort, hp]
  exact hg (d.port n) a b l f.src _

theorem followSync_rd {g : Fld} (hn : n < 4) (hg : g.ofPort) (hne : Fld.LS_STATE_LRANK.key .A 0 0 ≠ g.key .A 0 0) :
    (followSync n at' f d).rd g n = d.rd g n := by
  obtain ⟨e, h, -, heq⟩ := followSync_eq d n at' f
  rw [heq, Dev.rd_wr_row _ _ _ ⟨hg.2.1.symm, hne⟩]
  exact h.rd hg hn
end

end Sys2Proof.Machine
end

section
/-! PROOFS of the family 12_lockstitch_schedule, sync frames (R341 to R343, R351, R359, R367, R369, R384, R385): the leader's, at a node, at
this controller, and missing ones. -/

namespace Sys2Proof.Machine

/-! ### The leader sends (R341, R343) -/

section
variable {d : Dev} {n : Nat}

theorem syncSend_leads (h : d.rd .LS_STATE_ROLE n = 1) : ((syncSend n d).port n).syncOut = some (d.syncTx n) ∧
    (syncSend n d).cyc.announced = some (d.rd .SYS_CYCNT + 1) ∧
    ((d.bs 0).pendStep.isSome = true → ((syncSend n d).bs 0).stepSent = true) := by
  rw [syncSend, if_neg (not_not_intro h)]
  extract_lets d0 d1
  have hport : d1.port n = d0.port n := by
    unfold d1
    split <;> rfl
  refine ⟨?_, rfl, fun hstep => ?_⟩
  · exact (congrArg PortSt.syncOut hport).trans (by rw [Dev.port_updPort])
  · change (d1.bs 0).stepSent = true
    unfold d1
    rw [if_pos hstep, Dev.bs_updBase, if_pos rfl]

theorem syncSend_follows (h : d.rd .LS_STATE_ROLE n ≠ 1) : syncSend n d = d := if_pos h
end

/-! ### A copy reaches a node (R369, R382) -/

section
variable (s : NodeSt) (q : Path) (err : Int) (basting : Bool)

/-- A copy noted ends the run of missing ones on its path, and leaves the integration as it is. -/
theorem NodeSt.sync_shows : onPath q (s.sync q err basting).missP (s.sync q err basting).missS = 0 ∧ (s.sync q err basting).integ = s.integ := by
  unfold NodeSt.sync
  extract_lets y
  have hy : onPath q y.missP y.missS = 0 := by cases q <;> rfl
  split
  · split
    · exact ⟨hy, rfl⟩
    · exact ⟨hy, rfl⟩
  · exact ⟨hy, rfl⟩
end

section
variable {d : Dev} {n x : Nat} {q : Path} {f : SyncFrame}

theorem nodeSync_other (h : f.sched ≠ d.rd .LS_DIGEST_SCHED n) : nodeSync n x q f d = d := if_pos h

/-- What a node notes of a sync frame of its schedule: it is integrated already, integrates with the second consistent frame, or keeps the frame
as the first. -/
theorem nodeSync_shows (h : f.sched = d.rd .LS_DIGEST_SCHED n) :
    onPath q ((nodeSync n x q f d).node n x).missP ((nodeSync n x q f d).node n x).missS = 0 ∧
    ((d.node n x).integ = true → ((nodeSync n x q f d).node n x).integ = true) ∧
    ((d.node n x).integ = false → (onPath q (d.node n x).lastP (d.node n x).lastS).any (fun a => consistent a f (d.guard5 n)) = true →
      ((nodeSync n x q f d).node n x).integ = true) ∧
    ((d.node n x).integ = false → ¬ (onPath q (d.node n x).lastP (d.node n x).lastS).any (fun a => consistent a f (d.guard5 n)) = true →
      ((nodeSync n x q f d).node n x).integ = false ∧
      onPath q ((nodeSync n x q f d).node n x).lastP ((nodeSync n x q f d).node n x).lastS = some f) := by
  rw [nodeSync, if_neg (not_not_intro h), Dev.node_updNode_same]
  extract_lets y
  obtain ⟨hmiss, hinteg⟩ := (d.node n x).sync_shows q f.err (d.lsState n == lsBasting)
  cases hi : (d.node n x).integ with
  | true =>
    rw [if_pos rfl]
    exact ⟨hmiss, fun _ => hinteg.trans hi, nofun, nofun⟩
  | false =>
    rw [if_neg (by decide)]
    by_cases hsecond : (onPath q (d.node n x).lastP (d.node n x).lastS).any (fun a => consistent a f (d.guard5 n)) = true
    · rw [if_pos hsecond]
      exact ⟨by cases q <;> exact hmiss, nofun, fun _ _ => rfl, fun _ hn => absurd hsecond hn⟩
    · rw [if_neg hsecond]
      cases q <;> exact ⟨hmiss, nofun, fun _ hs => absurd hs hsecond, fun _ _ => ⟨hinteg.trans hi, rfl⟩⟩
end

/-! ### A copy is accepted by this controller (R342, R351, R359, R367, R369) -/

/-- The port follows from the boundary that it sets as it integrates, and transmits from the second on. -/
theorem integrate_eq (d : Dev) {n : Nat} (q : Path) (f : SyncFrame) (hn : n < 4) : ∃ v e, e.rd .LS_STATE_ROLE n = 2 ∧ (e.port n).hush = some 2 ∧
    integrate n q f d = followSync n v f (setLs n lsBasting e) := by
  unfold integrate
  extract_lets me lead dly d1 d2
  have hlock : d1.sparesPort n d2 := by
    unfold d2
    split
    · exact firstLock_spares ..
    · exact .refl _ _
  have hspared : ∀ c, d1.sparesPort n { d2 with cyc := c } := fun _ => hlock.trans (.of_ring rfl rfl (fun _ _ => rfl))
  refine ⟨_, _, ?_, ?_, rfl⟩
  · rw [(hspared _).rd (by decide) hn]
    exact (Dev.rd_wr_row _ _ _ (by decide)).trans (Dev.rd_wr_same _ _ _ _)
  · rw [(hspared _).read (·.hush) (fun _ _ _ _ => rfl), Dev.port_updPort]

section
variable {d : Dev} {n : Nat} {q : Path} {f : SyncFrame} (hrole : d.rd .LS_STATE_ROLE n ≠ 1)
include hrole

theorem ownSync_mismatch (hon : d.lsState n ≠ lsOff) (hsched : f.sched ≠ d.rd .LS_DIGEST_SCHED n) :
    ((ownSync n q f d).port n).mismatch = true ∧ Code.SCHED_MISMATCH.num ∈ ((ownSync n q f d).port n).codes := by
  rw [ownSync, if_neg (by simp [hon, hrole]), if_pos hsched]
  refine ⟨((raiseRing_spares ..).read (·.mismatch) (fun _ _ _ _ => rfl)).trans ?_, raiseRing_codes ..⟩
  rw [Dev.port_updPort]

variable (hsched : f.sched = d.rd .LS_DIGEST_SCHED n)
include hsched

theorem ownSync_coldStart (hn : n < 4) (hst : d.lsState n = lsListen ∨ d.lsState n = lsTack) : (ownSync n q f d).lsState n = lsInteg := by
  have hlow : d.lsState n ≠ lsOff ∧ d.lsState n ≤ lsTack := by rcases hst with h | h <;> rw [h] <;> decide
  obtain ⟨hon, hle⟩ := hlow
  rw [ownSync, if_neg (by simp [hon, hrole]), if_neg (not_not_intro hsched)]
  extract_lets st keep d1
  rw [if_pos hle]
  exact setLs_lsState _ _ hn (by decide)

/-- The port starts to follow with its second consistent sync frame. -/
theorem ownSync_integrates (hn : n < 4) (hst : d.lsState n = lsInteg)
    (hsecond : (onPath q (d.port n).lastP (d.port n).lastS).any (fun a => consistent a f (d.guard5 n)) = true) :
    (ownSync n q f d).lsState n = lsBasting ∧ (ownSync n q f d).rd .LS_STATE_ROLE n = 2 ∧
    (ownSync n q f d).cyc.announced = some f.cycnt ∧ ((ownSync n q f d).port n).hush = some 2 := by
  rw [ownSync, if_neg (by rw [hst]; simp [hrole, lsInteg, lsOff]), if_neg (not_not_intro hsched)]
  extract_lets st keep d1
  rw [if_neg (by unfold st; rw [hst]; decide), if_pos hst, if_pos hsecond]
  obtain ⟨v, e, hrole2, hhush, heq⟩ := integrate_eq d1 q f hn
  rw [heq]
  refine ⟨?_, ?_, (followSync_cyc ..).2.2, ?_⟩
  · rw [Dev.lsState, followSync_rd _ _ _ _ hn (by decide) (by decide)]
    exact setLs_lsState _ _ hn (by decide)
  · rw [followSync_rd _ _ _ _ hn (by decide) (by decide), setLs_rd _ _ hn (by decide) (by decide), hrole2]
  · rw [followSync_read _ _ _ _ (·.hush) (fun _ _ _ _ _ _ => rfl), setLs_read _ _ _ (·.hush) (fun _ _ _ _ => rfl), hhush]
end

section
variable (d : Dev) (n : Nat) (q : Path) (f : SyncFrame)

theorem guardian_missP (used : Bool) (lag : Int) : ((guardian n used lag d).port n).missP = (d.port n).missP := by
  unfold guardian
  extract_lets g d1
  have hmute : (d1.port n).missP = (d.port n).missP := by rw [Dev.port_updPort]
  split
  · split
    · exact hmute
    · exact ((raiseRing_spares ..).read (·.missP) (fun _ _ _ _ => rfl)).trans hmute
  · split
    · rfl
    · split <;> rw [Dev.port_updPort]

/-- An integrated port sets its boundary by a copy on P. -/
theorem ownFollow_P : (ownFollow n .P f d).cyc.closeAt = ((d.cyc.closeAt : Int) + (d.node n (d.portSec n).self).lag .P f.err).toNat ∧
    (ownFollow n .P f d).cyc.nextAt = some (((d.cyc.closeAt : Int) + (d.node n (d.portSec n).self).lag .P f.err).toNat + f.len) ∧
    (ownFollow n .P f d).cyc.announced = some f.cycnt ∧ ((ownFollow n .P f d).port n).missP = 0 := by
  unfold ownFollow
  extract_lets self lag used d1 d2 d3
  have hused : used = true := Bool.true_or _
  rw [if_pos hused]
  obtain ⟨hclose, hnext, hann⟩ := followSync_cyc d3 n ((d.cyc.closeAt : Int) + lag).toNat f
  refine ⟨hclose, hnext, hann, (followSync_read _ _ _ _ (·.missP) (fun _ _ _ _ _ _ => rfl)).trans ?_⟩
  have hmiss : (d2.port n).missP = 0 := by simp [d2, d1, Dev.updNode]
  unfold d3
  split
  · rw [guardian_missP, hmiss]
  · exact hmiss

theorem ownSync_follows (hrole : d.rd .LS_STATE_ROLE n ≠ 1) (hsched : f.sched = d.rd .LS_DIGEST_SCHED n) (hheard : lsBasting ≤ d.lsState n) :
    ownSync n q f d = ownFollow n q f d := by
  obtain ⟨hon, -, hinteg, htack, -⟩ := heard_above hheard
  rw [ownSync, if_neg (by simp [hon, hrole]), if_neg (not_not_intro hsched)]
  extract_lets st keep d1
  rw [if_neg htack, if_neg hinteg]
end

/-! ### A frame that arrives (R339, R377) -/

/-- The sync frame passes the checks of R339. -/
def SyncRx.passes (r : SyncRx) : Prop :=
  r.head.fin = .good ∧ r.head.crcBad r.src r.pay = false ∧ r.head.formBad tySync 44 44 r.res r.pay = false

section
variable {d : Dev} {n x : Nat} {q : Path} {r : SyncRx}

theorem syncFrame_node (hgood : r.passes) (hx : x ≠ (d.portSec n).self) : syncFrame n x q r d = nodeSync n x q r.frame d := by
  obtain ⟨hfin, hcrc, hform⟩ := hgood
  simp [syncFrame, hx, hfin, hcrc, hform]

theorem syncFrame_refused (hbad : ¬ r.passes) (hx : x ≠ (d.portSec n).self) : syncFrame n x q r d = d := by
  unfold syncFrame
  extract_lets own crc form d1
  have hown : d1 = d := if_neg (by simp [own, hx])
  rw [hown, if_pos]
  cases hfin : r.head.fin with
  | aborted => simp
  | good => simpa [SyncRx.passes, hfin, crc, form, ← Bool.not_eq_true, Classical.or_iff_not_imp_left] using hbad

section
variable (hgood : r.passes) (hx : x = (d.portSec n).self) (hon : d.lsState n ≠ lsOff)
include hgood hx hon

/-- This controller repeats the frame, then acts on it. -/
theorem syncFrame_own : syncFrame n x q r d = ownSync n q r.frame (relay n q .good d) := by
  obtain ⟨hfin, hcrc, hform⟩ := hgood
  have hseen := frameSeen_passes (d := d) (n := n) (who := r.src) (q := q) hfin hcrc hform
  rw [if_neg hon] at hseen
  simp [syncFrame, hx, hfin, hcrc, hform, ← hseen]

variable (hn : n < 4) (hrole : d.rd .LS_STATE_ROLE n ≠ 1)
include hn hrole

theorem syncFrame_mismatch (hsched : r.frame.sched ≠ d.rd .LS_DIGEST_SCHED n) : ((syncFrame n x q r d).port n).mismatch = true ∧
    Code.SCHED_MISMATCH.num ∈ ((syncFrame n x q r d).port n).codes := by
  have hspared := relay_spares d n q .good
  rw [syncFrame_own hgood hx hon]
  refine ownSync_mismatch ?_ ?_ ?_
  · rwa [hspared.rd (by decide) hn]
  · rwa [Dev.lsState, hspared.rd (by decide) hn]
  · rwa [hspared.rd (by decide) hn]

variable (hsched : r.frame.sched = d.rd .LS_DIGEST_SCHED n)
include hsched

theorem syncFrame_coldStart (hst : d.lsState n = lsListen ∨ d.lsState n = lsTack) : (syncFrame n x q r d).lsState n = lsInteg := by
  have hspared := relay_spares d n q .good
  rw [syncFrame_own hgood hx hon]
  refine ownSync_coldStart ?_ ?_ hn ?_
  · rwa [hspared.rd (by decide) hn]
  · rwa [hspared.rd (by decide) hn]
  · rwa [Dev.lsState, hspared.rd (by decide) hn]

theorem syncFrame_integrates (hst : d.lsState n = lsInteg)
    (hsecond : (onPath q (d.port n).lastP (d.port n).lastS).any (fun a => consistent a r.frame (d.guard5 n)) = true) :
    (syncFrame n x q r d).lsState n = lsBasting ∧ (syncFrame n x q r d).rd .LS_STATE_ROLE n = 2 ∧
    (syncFrame n x q r d).cyc.announced = some r.frame.cycnt ∧ ((syncFrame n x q r d).port n).hush = some 2 := by
  have hspared := relay_spares d n q .good
  rw [syncFrame_own hgood hx hon]
  refine ownSync_integrates ?_ ?_ hn ?_ ?_
  · rwa [hspared.rd (by decide) hn]
  · rwa [hspared.rd (by decide) hn]
  · rwa [Dev.lsState, hspared.rd (by decide) hn]
  · rwa [hspared.read (fun s => onPath q s.lastP s.lastS) (fun _ _ _ _ => rfl), Dev.guard5, hspared.rd (by decide) hn]

theorem syncFrame_follows (hheard : lsBasting ≤ d.lsState n) :
    (syncFrame n x .P r d).cyc.closeAt = ((d.cyc.closeAt : Int) + (d.node n x).lag .P r.frame.err).toNat ∧
    (syncFrame n x .P r d).cyc.nextAt = some (((d.cyc.closeAt : Int) + (d.node n x).lag .P r.frame.err).toNat + r.frame.len) ∧
    (syncFrame n x .P r d).cyc.announced = some r.frame.cycnt ∧ ((syncFrame n x .P r d).port n).missP = 0 := by
  have hspared := relay_spares d n .P .good
  have hfollow := ownFollow_P (relay n .P .good d) n r.frame
  rw [relay_cyc, hspared.portSec, ← hx, hspared.node] at hfollow
  rwa [syncFrame_own hgood hx hon, ownSync_follows]
  · rwa [hspared.rd (by decide) hn]
  · rwa [hspared.rd (by decide) hn]
  · rwa [Dev.lsState, hspared.rd (by decide) hn]
end
end

/-! ### A sync frame that a path did not bring (R384, R385) -/

theorem NodeSt.missed_P (s : NodeSt) : (s.missed .P).missP = s.missP + 1 ∧
    (1 ≤ s.missP → 2 ≤ s.missS → (s.missed .P).integ = false ∧ (s.missed .P).permA.map = []) ∧
    (1 ≤ s.missP → s.missS = 0 → (s.missed .P).feedP = true) := by
  unfold NodeSt.missed
  extract_lets p r y
  have hp : p = s.missP + 1 := if_pos rfl
  have hr : r = s.missS := if_neg (by decide)
  rw [hp, hr]
  split
  · next h =>
    simp only [Bool.and_eq_true, decide_eq_true_iff] at h
    exact ⟨hp, fun _ _ => ⟨rfl, rfl⟩, fun _ h0 => by omega⟩
  · next h =>
    have hlost : ¬ (1 ≤ s.missP ∧ 2 ≤ s.missS) := by
      simp only [Bool.and_eq_true, decide_eq_true_iff] at h
      omega
    split
    · exact ⟨hp, fun h1 h2 => absurd ⟨h1, h2⟩ hlost, fun _ _ => by simp [nodeFeeds]⟩
    · next hfeed =>
      refine ⟨hp, fun h1 h2 => absurd ⟨h1, h2⟩ hlost, fun h1 h0 => absurd ?_ hfeed⟩
      simp [h0, Nat.succ_le_succ h1]

section
variable {d : Dev} {n x : Nat} {q : Path}

theorem syncMissed_node (hx : x ≠ (d.portSec n).self) : (syncMissed n x q d).node n x = (d.node n x).missed q := by
  rw [syncMissed, if_pos hx, Dev.node_updNode_same]

theorem enterListen_lsState (d : Dev) {n : Nat} (hn : n < 4) : (enterListen n d).lsState n = lsListen := setLs_lsState _ _ hn (by decide)

variable (hx : x = (d.portSec n).self) (hrole : d.rd .LS_STATE_ROLE n = 2) (hheard : lsBasting ≤ d.lsState n)
  (hP : 1 ≤ (d.port n).missP)
include hx hrole hheard hP

theorem syncMissed_lost (hn : n < 4) (hS : 2 ≤ (d.port n).missS) : (syncMissed n x .P d).lsState n = lsListen := by
  obtain ⟨-, -, -, -, hlow⟩ := heard_above hheard
  rw [syncMissed, if_neg (not_not_intro hx), if_neg (by simp [hrole, hlow])]
  extract_lets p r d1
  have hboth : (decide (2 ≤ p) && decide (2 ≤ r)) = true := by
    simp only [Bool.and_eq_true, decide_eq_true_iff]
    exact ⟨Nat.succ_le_succ hP, hS⟩
  rw [if_pos hboth]
  exact enterListen_lsState _ hn

theorem syncMissed_broken (hS : (d.port n).missS = 0) : (syncMissed n x .P d).lsState n = d.lsState n ∧
    ((syncMissed n x .P d).port n).feedP = true ∧ (syncMissed n x .P d).rd .LS_STATE_WRAPPED n = 1 := by
  obtain ⟨-, -, -, -, hlow⟩ := heard_above hheard
  rw [syncMissed, if_neg (not_not_intro hx), if_neg (by simp [hrole, hlow])]
  extract_lets p r d1
  have hp : 2 ≤ p := Nat.succ_le_succ hP
  have hr : r = 0 := hS
  rw [if_neg (by simp [hr]), if_pos (by simp [hp, hr])]
  have hrole1 : d1.rd .LS_STATE_ROLE n = 2 := hrole
  rw [breakPath, if_neg (by rw [hrole1]; decide), if_pos hrole1]
  refine ⟨Dev.rd_wr_row _ _ _ (by decide), ?_, Dev.rd_wr_same _ _ _ _⟩
  rw [Dev.port_wr, Dev.port_updPort]
  exact Bool.or_true _
end

end Sys2Proof.Machine
end

section
/-! PROOFS of the family 12_lockstitch_schedule, cycle frames (R344, R345), permission sub-frames (R356) and claims (R381, R382). -/

namespace Sys2Proof.Machine

/-! ### Cycle frames (R339, R344, R345) -/

/-- A copy of a cycle frame passes every check: R339, its cycle, and under the port's own address that the port sent it. -/
def Dev.cyclePasses (d : Dev) (n src : Nat) (c : CycleRx) : Prop :=
  (c.head.fin = .good ∧ c.head.crcBad src c.pay = false ∧ c.head.formBad tyCycle 8 16384 (cycleRes c.pay) c.pay = false) ∧
  c.head.cyc = d.rd .SYS_CYCNT % 65536 ∧
  (src = (d.portSec n).self → (onPath c.path (d.port n).outP (d.port n).outS).any (fun t => t.same c.head c.pay) = true)

section
variable {d : Dev} {n src x : Nat} {c : CycleRx}

theorem cycleFrame_passes (hgood : d.cyclePasses n src c) (hheard : lsBasting ≤ d.lsState n) : ∃ e, d.sparesPort n e ∧
    (x ≠ (d.portSec n).self → e = d) ∧ cycleFrame n src x c d = takeCycle n src x c.path c.pay e := by
  obtain ⟨⟨hfin, hcrc, hform⟩, hcyc, hsent⟩ := hgood
  obtain ⟨-, -, -, -, hlow⟩ := heard_above hheard
  obtain ⟨hspared, -⟩ := frameSeen_passes_spares (d := d) (n := n) (who := src) (q := c.path) hfin hcrc hform
  unfold cycleFrame
  extract_lets self crc form d1
  refine ⟨d1, ?_, fun hx => if_neg hx, ?_⟩
  · unfold d1
    split
    · exact hspared
    · exact .refl _ _
  · have hown : ¬ (decide (src = self) && !(onPath c.path (d.port n).outP (d.port n).outS).any (fun f => f.same c.head c.pay)) = true := by
      by_cases hself : src = self
      · simp [hsent hself]
      · simp [hself]
    rw [if_neg (by simp [hfin, crc, hcrc, form, hform, hlow, hcyc]), if_neg hown]

theorem cycleFrame_refused (hx : x ≠ (d.portSec n).self) (hbad : ¬ d.cyclePasses n src c) : cycleFrame n src x c d = d := by
  unfold cycleFrame
  extract_lets self crc form d1
  have hsame : d1 = d := if_neg hx
  rw [hsame]
  split
  · rfl
  · next hpass =>
    simp only [Bool.or_eq_true, decide_eq_true_iff, not_or, Bool.not_eq_true, Nat.not_lt, Ne, Classical.not_not] at hpass
    obtain ⟨⟨⟨⟨hfin, hcrc⟩, hform⟩, -⟩, hcyc⟩ := hpass
    have hgood : c.head.fin = .good := by cases hf : c.head.fin with
      | good => rfl
      | aborted => exact absurd hf hfin
    refine if_pos (Classical.byContradiction (fun hsent => hbad ⟨⟨hgood, hcrc, hform⟩, hcyc, fun hself => ?_⟩))
    simpa [self, hself] using hsent

section
variable {q : Path} {pay : List Nat}

/-- The first full copy gives the node its command record. -/
theorem takeCycle_record {r : List Int} (hx : x ≠ (d.portSec n).self) (hsewn : d.sewnNext n = true) (howner : src = (d.nodeSec n x).owner)
    (hfree : (d.node n x).taken = none) (hrec : d.recordsIn n x (cmdArea pay) = some r) :
    ((takeCycle n src x q pay d).node n x).taken = some r := by
  rw [takeCycle, if_neg hx, if_neg (by simp [hsewn]), if_neg (by simp [howner, hfree]), hrec, Dev.node_updNode_same]

theorem takeCycle_again (hx : x ≠ (d.portSec n).self) (hsewn : d.sewnNext n = true) (htaken : (d.node n x).taken ≠ none) :
    takeCycle n src x q pay d = d := by
  rw [takeCycle, if_neg hx, if_neg (by simp [hsewn]), if_pos (by simp [Option.isSome_iff_ne_none.mpr htaken])]

theorem takeCorrections_field (area : List Nat) : (takeCorrections n x area d).field = d.field := by
  unfold takeCorrections
  extract_lets o
  split <;> rfl

/-- Every word that the port reads from the area is fresh. -/
theorem ringWords_fresh {area : List Nat} {e : RingIn} (he : e ∈ (d.portSec n).reads) (hsrc : e.src = src)
    (hlen : 4 * max e.value e.speed + 4 ≤ area.length) :
    ((ringWords n src area d).field.wordIn.get (e.axis * 4 + e.loop)).fresh = true := by
  have hmem : e ∈ (d.portSec n).reads.filter (fun r => r.src == src && decide (4 * max r.value r.speed + 4 ≤ area.length)) :=
    List.mem_filter.mpr ⟨he, by simp [hsrc, hlen]⟩
  refine forL_reaches (P := fun s : Dev => (s.field.wordIn.get (e.axis * 4 + e.loop)).fresh = true) (Q := fun _ => True) hmem
    (fun s _ => ?_) (fun _ _ _ _ => trivial) (fun r s hs => ?_) trivial
  · simp [Dev.updField]
  · simp only [Dev.updField, Tab.get_upd]
    split
    · rfl
    · exact hs

theorem takeCycle_words (hx : x = (d.portSec n).self) {e : RingIn} (he : e ∈ (d.portSec n).reads) (hsrc : e.src = src)
    (hlen : 4 * max e.value e.speed + 4 ≤ (wordArea pay).length) :
    ((takeCycle n src x q pay d).field.wordIn.get (e.axis * 4 + e.loop)).fresh = true := by
  have hsec : (learnWrap n src q pay d).portSec n = d.portSec n := by
    unfold learnWrap
    extract_lets s
    split <;> rfl
  have hfresh := ringWords_fresh (d := learnWrap n src q pay d) (n := n) (by rwa [hsec]) hsrc hlen
  unfold takeCycle
  extract_lets corr
  rw [if_pos hx]
  unfold corr
  split
  · rwa [takeCorrections_field]
  · exact hfresh
end

section
variable (hheard : lsBasting ≤ d.lsState n) (hgood : d.cyclePasses n src c)
include hheard hgood

theorem cycleFrame_record {r : List Int} (hx : x ≠ (d.portSec n).self) (hsewn : d.sewnNext n = true) (howner : src = (d.nodeSec n x).owner)
    (hfree : (d.node n x).taken = none) (hrec : d.recordsIn n x (cmdArea c.pay) = some r) :
    ((cycleFrame n src x c d).node n x).taken = some r := by
  obtain ⟨e, -, hsame, heq⟩ := cycleFrame_passes (x := x) hgood hheard
  rw [heq, hsame hx]
  exact takeCycle_record hx hsewn howner hfree hrec

theorem cycleFrame_again (hx : x ≠ (d.portSec n).self) (hsewn : d.sewnNext n = true) (htaken : (d.node n x).taken ≠ none) :
    cycleFrame n src x c d = d := by
  obtain ⟨e, -, hsame, heq⟩ := cycleFrame_passes (x := x) hgood hheard
  rw [heq, hsame hx]
  exact takeCycle_again hx hsewn htaken

theorem cycleFrame_words (hx : x = (d.portSec n).self) {e : RingIn} (he : e ∈ (d.portSec n).reads) (hsrc : e.src = src)
    (hlen : 4 * max e.value e.speed + 4 ≤ (wordArea c.pay).length) :
    ((cycleFrame n src x c d).field.wordIn.get (e.axis * 4 + e.loop)).fresh = true := by
  obtain ⟨d1, hspared, -, heq⟩ := cycleFrame_passes (x := x) hgood hheard
  rw [heq]
  exact takeCycle_words (hspared.portSec ▸ hx) (hspared.portSec ▸ he) hsrc hlen
end
end

/-! ### Permission sub-frames (R354, R356) -/

section
variable {wd seq k : Nat} {map : List Nat} {p : Permit}

theorem takePermit_first (hp : p.seq = none) : takePermit wd seq map p = (⟨some seq, map, 0⟩, false) := by simp only [takePermit, hp]

theorem takePermit_later (hp : p.seq = some k) (h1 : 1 ≤ (seq + 2 ^ 32 - k) % 2 ^ 32) (hwd : (seq + 2 ^ 32 - k) % 2 ^ 32 ≤ wd) :
    takePermit wd seq map p = (⟨some seq, map, 0⟩, false) := by
  simp only [takePermit, hp]
  rw [if_neg (by omega), if_pos hwd]

theorem takePermit_same (hp : p.seq = some k) (h0 : (seq + 2 ^ 32 - k) % 2 ^ 32 = 0) :
    takePermit wd seq map p = ({ p with map := List.zipWith Nat.land p.map map }, p.map != map) := by
  simp only [takePermit, hp]
  rw [if_pos h0]

theorem takePermit_far (hp : p.seq = some k) (hwd : wd < (seq + 2 ^ 32 - k) % 2 ^ 32) : takePermit wd seq map p = (p, false) := by
  simp only [takePermit, hp]
  rw [if_neg (by omega), if_neg (by omega)]
end

/-- A sub-frame is that of a channel, in the version and under the owner of node `x`. -/
def Dev.permPasses (d : Dev) (n x : Nat) (b : Bool) (seq : Nat) (map : List Nat) (h : PermHead) : Prop :=
  h.sfType = permType b ∧ h.ver = (d.nodeSec n x).sfVer ∧ map.length = (if h.ver = 2 then 64 else 32) ∧
    h.crcOk (safInit (d.ownerId n x) b) seq map = true

section
variable {d : Dev} {n x seq : Nat} {map : List Nat} {h : PermHead}

theorem permissionFrame_refused (hbad : ¬ d.permPasses n x true seq map h) : permissionFrame n x .b seq map h d = d := by
  unfold permissionFrame
  extract_lets sec b
  refine if_pos (Classical.byContradiction (fun hpass => ?_))
  simp only [Bool.or_eq_true, decide_eq_true_iff, not_or, Ne, Classical.not_not, Bool.not_eq_true', Bool.not_eq_false, and_assoc] at hpass
  exact hbad hpass

theorem permissionFrame_passes (hgood : d.permPasses n x false seq map h) : (permissionFrame n x .a seq map h d).node n x =
    { d.node n x with
      permA := (takePermit (d.nodeSec n x).sfWd seq map (d.node n x).permA).1
      safDiff := (d.node n x).safDiff || (takePermit (d.nodeSec n x).sfWd seq map (d.node n x).permA).2 } := by
  obtain ⟨htype, hver, hlen, hcrc⟩ := hgood
  unfold permissionFrame
  extract_lets sec b
  have hb : b = false := rfl
  rw [if_neg (by simp [hb, htype, hver, sec, hlen, hcrc]), Dev.node_updNode_same]

variable {p : Permit} {differs : Bool}
  (hgood : d.permPasses n x false seq map h) (hp : takePermit (d.nodeSec n x).sfWd seq map (d.node n x).permA = (p, differs))
include hgood hp

theorem permissionFrame_permA : ((permissionFrame n x .a seq map h d).node n x).permA = p := by rw [permissionFrame_passes hgood, hp]

theorem permissionFrame_safDiff (hdiff : differs = true) : ((permissionFrame n x .a seq map h d).node n x).safDiff = true := by
  rw [permissionFrame_passes hgood, hp, hdiff]
  exact Bool.or_true _
end

/-! ### Claims (R358, R381, R382) -/

section
variable {x : Nat} {s : NodeSt}

theorem NodeSt.backOff_retries (h0 : s.claimTry ≠ 0) (h15 : s.claimTry < 15) : (s.backOff x).claimTry = s.claimTry + 1 ∧
    (s.backOff x).claimWait = Machine.claimWait x s.claimTry := by
  rw [NodeSt.backOff, if_neg h0, if_neg (Nat.not_le_of_lt h15)]
  exact ⟨rfl, rfl⟩

theorem NodeSt.backOff_mutes (h15 : 15 ≤ s.claimTry) : (s.backOff x).claimTry = 0 ∧ (s.backOff x).claimMute = true := by
  rw [NodeSt.backOff, if_neg (by omega), if_pos h15]
  exact ⟨rfl, rfl⟩
end

section
variable (d : Dev) (n slot : Nat) (before : SlotSt)

theorem claimClash_read {β : Type} (g : PortSt → β) (hg : ∀ s a b l, g { s with relayP := a, relayS := b, codes := l } = g s) :
    g ((claimClash n slot before d).port n) = g (d.port n) := by
  unfold claimClash
  split
  · rfl
  · exact (raiseRing_spares ..).read g hg

theorem claimClash_node (y : Nat) : (claimClash n slot before d).node n y = d.node n y :=
  claimClash_read d n slot before (·.nodes.get y) (fun _ _ _ _ => rfl)

/-- The leader counts the second claim of a window. -/
theorem claimClash_counts (hn : n < 4) (hrole : d.rd .LS_STATE_ROLE n = 1) (hbad : before.claimBad = false) (hone : before.claims.length = 1) :
    (claimClash n slot before d).rd .LS_CLAIM_COLL n = min (d.rd .LS_CLAIM_COLL n + 1) 65535 := by
  rw [claimClash, if_neg (by simp [hrole, hbad, hone]), (raiseRing_spares ..).rd (by decide) hn]
  exact lsCount_rd d n .LS_CLAIM_COLL rfl
end

/-- The claim of `src` is filed in its window; one that counts shows the claimant's attempt. -/
def claimFiled (n src tr slot : Nat) (ok : Bool) (d : Dev) : Dev :=
  (if ok then d.updNode n src (fun s => { s with claimTry := tr, claimWait := 0 }) else d).updSlot n slot
    (fun s => { s with claims := src :: s.claims })

section
variable (d : Dev) (n tr slot : Nat)

theorem claimFiled_other (ok : Bool) {src x : Nat} (h : src ≠ x) : (claimFiled n src tr slot ok d).node n x = d.node n x := by
  rw [claimFiled, Dev.node_updSlot]
  split
  · rw [Dev.node_updNode, if_neg h]
  · rfl

theorem claimFiled_claimTry (src : Nat) : ((claimFiled n src tr slot true d).node n src).claimTry = tr := by
  rw [claimFiled, Dev.node_updSlot, if_pos rfl, Dev.node_updNode_same]

theorem claimFiled_rd (src : Nat) (ok : Bool) (f : Fld) (i : Nat) : (claimFiled n src tr slot ok d).rd f i = d.rd f i := by
  unfold claimFiled
  split <;> rfl
end

/-- The claim passes the checks of R339. -/
def ClaimRx.passes (r : ClaimRx) (src tr : Nat) : Prop :=
  r.head.fin = .good ∧ r.head.crcBad src (claimBytes r.slot r.lsVer tr r.sched r.ident) = false ∧
    r.head.formBad tyClaim 16 16 false (claimBytes r.slot r.lsVer tr r.sched r.ident) = false

/-- The window of a claim. -/
abbrev Dev.claimWindow (d : Dev) (n : Nat) (r : ClaimRx) : SlotSt := (d.port n).slots.get (r.slot % 1024)

section
variable {d : Dev} {n src tr x : Nat} {r : ClaimRx}

/-- A claim that one other claimant hears, which backs off: it is noted once, and beside an earlier one the two clash. -/
theorem claimFrame_passes (hx : x ≠ src) (hgood : r.passes src tr) : ∃ e, d.sparesPort n e ∧
    claimFrame n src tr [x] r d =
      let filed := claimFiled n src tr (r.slot % 1024) (d.claimOk n src r && !(d.node n src).claimMute) (e.updNode n x (NodeSt.backOff x))
      if (d.claimWindow n r).claims.contains src then e.updNode n x (NodeSt.backOff x)
      else if (d.claimWindow n r).claims.isEmpty then filed else claimClash n (r.slot % 1024) (d.claimWindow n r) filed := by
  obtain ⟨hfin, hcrc, hform⟩ := hgood
  obtain ⟨hspared, -⟩ := frameSeen_passes_spares (d := d) (n := n) (who := src) (q := r.path) hfin hcrc hform
  refine ⟨_, hspared, ?_⟩
  unfold claimFrame
  extract_lets slot pay crc form before d1 d2 d3 d4 filed
  have hheard : d2 = d1.updNode n x (NodeSt.backOff x) := by simp [d2, hx, forL]
  have hfiled : d4 = claimFiled n src tr slot (d.claimOk n src r && !(d.node n src).claimMute) d2 := rfl
  rw [if_neg (by simp [hfin, crc, form, pay, hcrc, hform]), hfiled, hheard]

/-- A corrupted claim marks its window. -/
theorem claimFrame_bad (hbad : ¬ r.passes src tr) : ((claimFrame n src tr [] r d).claimWindow n r).claimBad = true := by
  unfold claimFrame
  extract_lets slot pay crc form before d1 d2
  have hrefused : (decide (r.head.fin = .aborted) || crc || form) = true := by
    cases hfin : r.head.fin with
    | aborted => simp
    | good => simpa [ClaimRx.passes, hfin, crc, form, pay, ← Bool.not_eq_true, Classical.or_iff_not_imp_left] using hbad
  rw [if_pos hrefused, claimClash_read _ _ _ _ (fun s => (s.slots.get (r.slot % 1024)).claimBad) (fun _ _ _ _ => rfl),
    Dev.slot_updSlot, if_pos rfl]

variable (hx : x ≠ src) (hgood : r.passes src tr)
include hx hgood

theorem claimFrame_hearer : (claimFrame n src tr [x] r d).node n x = (d.node n x).backOff x := by
  obtain ⟨e, hspared, heq⟩ := claimFrame_passes (d := d) (n := n) hx hgood
  have hbacks : (e.updNode n x (NodeSt.backOff x)).node n x = (d.node n x).backOff x := by rw [Dev.node_updNode_same, hspared.node]
  rw [heq]
  dsimp only
  split
  · exact hbacks
  · split
    · rw [claimFiled_other _ _ _ _ _ (Ne.symm hx), hbacks]
    · rw [claimClash_node, claimFiled_other _ _ _ _ _ (Ne.symm hx), hbacks]

theorem claimFrame_claimant (hok : d.claimOk n src r = true) (hmute : (d.node n src).claimMute = false)
    (hnew : src ∉ (d.claimWindow n r).claims) : ((claimFrame n src tr [x] r d).node n src).claimTry = tr := by
  obtain ⟨e, -, heq⟩ := claimFrame_passes (d := d) (n := n) hx hgood
  rw [heq]
  dsimp only
  rw [if_neg (by simpa using hnew), hok, hmute]
  split
  · exact claimFiled_claimTry ..
  · rw [claimClash_node]
    exact claimFiled_claimTry ..

theorem claimFrame_clash (hn : n < 4) (hrole : d.rd .LS_STATE_ROLE n = 1) (hone : (d.claimWindow n r).claims.length = 1)
    (hnew : src ∉ (d.claimWindow n r).claims) (hbad : (d.claimWindow n r).claimBad = false) :
    (claimFrame n src tr [x] r d).rd .LS_CLAIM_COLL n = min (d.rd .LS_CLAIM_COLL n + 1) 65535 := by
  obtain ⟨e, hspared, heq⟩ := claimFrame_passes (d := d) (n := n) hx hgood
  have hsecond : ¬ (d.claimWindow n r).claims.isEmpty = true := by
    rw [List.isEmpty_iff_length_eq_zero, hone]
    decide
  have hkept : ∀ {f : Fld}, f.ofPort → ∀ ok, (claimFiled n src tr (r.slot % 1024) ok (e.updNode n x (NodeSt.backOff x))).rd f n = d.rd f n :=
    fun hf ok => by rw [claimFiled_rd, Dev.rd_updNode, hspared.rd hf hn]
  rw [heq]
  dsimp only
  rw [if_neg (by simpa using hnew), if_neg hsecond, claimClash_counts _ _ _ _ hn (by rw [hkept (by decide), hrole]) hbad hone,
    hkept (by decide)]
end

end Sys2Proof.Machine
end

section
/-! PROOFS of the family 12_lockstitch_schedule, slot frames (R339, R350, R352, R353, R374, R378): who hears one, where it is refused, the
first copy and its consumers, and an empty due slot. -/

namespace Sys2Proof.Machine

/-! ### Claimants hear a slot frame (R382) -/

/-- Between `d` and `e` the registers, the field I/O, and the slots of port `n` and the states of its nodes stay. -/
structure Dev.hears (d : Dev) (n : Nat) (e : Dev) : Prop where
  regs : e.regs = d.regs
  field : e.field = d.field
  slots : (e.port n).slots = (d.port n).slots
  state : ∀ y, (e.node n y).state = (d.node n y).state

theorem NodeSt.backOff_state (x : Nat) (s : NodeSt) : (s.backOff x).state = s.state := by
  unfold NodeSt.backOff
  split
  · rfl
  · split <;> rfl

section
variable {d e : Dev} {n : Nat}

theorem Dev.hears.refl (d : Dev) (n : Nat) : d.hears n d := ⟨rfl, rfl, rfl, fun _ => rfl⟩

theorem Dev.hears.rdAt (h : d.hears n e) (f : Fld) (p : Plane) (i j : Nat) : e.rdAt f p i j = d.rdAt f p i j :=
  Dev.rdAt_congr f p i j h.regs

theorem Dev.hears.backOff (h : d.hears n e) (x : Nat) : d.hears n (e.updNode n x (NodeSt.backOff x)) := by
  refine ⟨h.regs, h.field, (Dev.slots_updNode ..).trans h.slots, fun y => ?_⟩
  rw [Dev.node_updNode]
  split
  · rw [NodeSt.backOff_state, h.state]
  · exact h.state y

theorem claimHeard_hears (d : Dev) (n slot src : Nat) : d.hears n (claimHeard n slot src d) :=
  forL_keeps (d.hears n) _ _ (fun x _ _ h => h.backOff x) (.refl d n)
end

/-! ### A slot frame at an integrated port (R350) -/

/-- The check values, and the form, of a slot frame. -/
abbrev Dev.slotCrc (d : Dev) (n : Nat) (h : RxHead) (src : Nat) (pay : SlotPayload) : Bool := h.crcBad src (d.slotBytes n src pay)
abbrev Dev.slotForm (d : Dev) (n slot : Nat) (h : RxHead) (src : Nat) (pay : SlotPayload) : Bool :=
  h.formBad tySlot 0 ((Sparse.find (d.portSec n).slots slot).elim 0 (·.lenMax)) pay.res (d.slotBytes n src pay)

section
variable {d : Dev} {n : Nat} (slot src : Nat) (q : Path) (h : RxHead) (err : Int) (inTime : Bool) (pay : SlotPayload)

/-- The claimants of the phase hear the frame, which is then judged. -/
theorem slotFrame_judged (hheard : lsBasting ≤ d.lsState n) : ∃ e,
    (frameSeen n q slot h (d.slotCrc n h src pay) (d.slotForm n slot h src pay) d).hears n e ∧
    slotFrame n slot q h err inTime src pay d =
      if h.fin = .aborted then e
      else if d.slotCrc n h src pay || d.slotForm n slot h src pay then slotRefused n slot e
      else if d.guard5 n < 2 * absI err || !inTime then
        raiseRing n .BOUNDARY_VIOL [slot] (e.wrAt .LS_SLOT_CNT_BV_CNT .A n slot (satU 16 (e.rdAt .LS_SLOT_CNT_BV_CNT .A n slot + 1)))
      else if d.slotSender n slot ≠ some src then raiseRing n .FRAME_ERR [slot] (slotRefused n slot e)
      else takeSlot n slot q err src pay (d.slotBytes n src pay) e := by
  obtain ⟨-, -, -, -, hlow⟩ := heard_above hheard
  unfold slotFrame
  extract_lets bytes crc form d1 d2
  refine ⟨d2, ?_, if_neg hlow⟩
  unfold d2
  split
  · exact claimHeard_hears ..
  · exact .refl _ _

variable {slot src q h err inTime pay}

/-- A port that is not integrated takes no slot frame. -/
theorem slotFrame_unheard (hlow : d.lsState n < lsBasting) : slotFrame n slot q h err inTime src pay d =
    frameSeen n q slot h (d.slotCrc n h src pay) (d.slotForm n slot h src pay) d := if_pos hlow

/-- A frame that is not taken as the first copy activates nothing (R440). -/
theorem slotArrives_untaken
    (hslots : ((slotFrame n slot q h err inTime src pay d).port n).slots = (d.port n).slots) :
    slotArrives n slot q h err inTime src pay d = slotFrame n slot q h err inTime src pay d := by
  have hfirst : firstCopy n slot d (slotFrame n slot q h err inTime src pay d) = false := by
    rw [firstCopy, hslots]
    cases ((d.port n).slots.get slot).first <;> rfl
  exact if_neg (by simp [hfirst])

theorem slotArrives_unheard (hlow : d.lsState n < lsBasting) (hfin : h.fin = .good) (hcrc : d.slotCrc n h src pay = false)
    (hform : d.slotForm n slot h src pay = false) :
    slotArrives n slot q h err inTime src pay d = if d.lsState n = lsOff then d else relay n q .good d := by
  have hspared := (frameSeen_passes_spares (d := d) (n := n) (who := slot) (q := q) hfin hcrc hform).1
  rw [slotArrives_untaken (by rw [slotFrame_unheard hlow]; exact hspared.slots), slotFrame_unheard hlow,
    frameSeen_passes hfin hcrc hform]

/-- The words of the slots lie above the rows of the ports. -/
theorem Fld.ofPort.rd_slotRefused {f : Fld} (hf : f.ofPort) (hn : n < 4) : (slotRefused n slot d).rd f n = d.rd f n := by
  obtain ⟨hb, hs, ho, hlo⟩ := hf
  refine Dev.rdAt_wrAt_ne d _ ?_
  unfold Fld.key Fld.word
  rw [hb, hs]
  simp only [Fld.LS_SLOT_INFO_ERR_CNT, Blk.starred, Blk.num, Bool.false_eq_true, if_false]
  omega

variable (hn : n < 4) (hheard : lsBasting ≤ d.lsState n)
include hn hheard

theorem slotArrives_aborted (hfin : h.fin = .aborted) :
    (slotArrives n slot q h err inTime src pay d).rd .LS_ERR_ABORT n = min (d.rd .LS_ERR_ABORT n + 1) 65535 := by
  obtain ⟨hon, -⟩ := heard_above hheard
  obtain ⟨e, hhears, heq⟩ := slotFrame_judged slot src q h err inTime pay hheard
  rw [frameSeen_aborted hon hfin] at hhears
  rw [if_pos hfin] at heq
  have hspared := relay_spares (lsCount .LS_ERR_ABORT n d) n q .aborted
  rw [slotArrives_untaken (by rw [heq, hhears.slots, hspared.slots]; rfl), heq, Dev.rd, hhears.rdAt, ← Dev.rd_eq,
    hspared.rd (by decide) hn, lsCount_rd _ _ _ rfl]

theorem slotArrives_refused (hfin : h.fin = .good) (hbad : d.slotCrc n h src pay = true ∨ d.slotForm n slot h src pay = true) :
    (slotArrives n slot q h err inTime src pay d).rd .LS_ERR_FRAME_ERR n = min (d.rd .LS_ERR_FRAME_ERR n + 1) 65535 := by
  obtain ⟨hon, htack, -⟩ := heard_above hheard
  obtain ⟨e, hhears, heq⟩ := slotFrame_judged slot src q h err inTime pay hheard
  rw [frameSeen_refused hon htack hfin hbad] at hhears
  rw [if_neg (by rw [hfin]; decide), if_pos (by simpa using hbad)] at heq
  have hrelay := relay_spares d n q (if d.slotCrc n h src pay then .aborted else .good)
  generalize relay n q _ d = d1 at hhears hrelay
  have hraise := raiseRing_spares (lsCount .LS_ERR_FRAME_ERR n d1) n .FRAME_ERR [(slot : Int)]
  have hslots : (e.port n).slots = (d.port n).slots := hhears.slots.trans (hraise.slots.trans hrelay.slots)
  rw [slotArrives_untaken (by rw [heq]; exact hslots), heq, Fld.ofPort.rd_slotRefused (by decide) hn, Dev.rd, hhears.rdAt, ← Dev.rd_eq,
    hraise.rd (by decide) hn, lsCount_rd _ _ _ rfl, hrelay.rd (by decide) hn]

/-- A frame outside its window counts in the slot. -/
theorem slotArrives_late (hfin : h.fin = .good) (hcrc : d.slotCrc n h src pay = false) (hform : d.slotForm n slot h src pay = false)
    (hlate : d.guard5 n < 2 * absI err ∨ inTime = false) (hslot : slot < 1024) :
    (slotArrives n slot q h err inTime src pay d).rdAt .LS_SLOT_CNT_BV_CNT .A n slot =
      min (d.rdAt .LS_SLOT_CNT_BV_CNT .A n slot + 1) 65535 := by
  obtain ⟨e, hhears, heq⟩ := slotFrame_judged slot src q h err inTime pay hheard
  obtain ⟨hseen, -⟩ := frameSeen_passes_spares (d := d) (n := n) (who := slot) (q := q) hfin hcrc hform
  rw [if_neg (by rw [hfin]; decide), if_neg (by simp [hcrc, hform]), if_pos (by simpa using hlate)] at heq
  have hraise := raiseRing_spares (e.wrAt .LS_SLOT_CNT_BV_CNT .A n slot (satU 16 (e.rdAt .LS_SLOT_CNT_BV_CNT .A n slot + 1))) n
    .BOUNDARY_VIOL [(slot : Int)]
  have hin : Fld.LS_SLOT_CNT_BV_CNT.inside n slot := ⟨by simp only [Fld.LS_SLOT_CNT_BV_CNT]; omega, by decide⟩
  rw [slotArrives_untaken (by rw [heq, hraise.slots]; exact hhears.slots.trans hseen.slots), heq, hraise.rdAt rfl hin,
    Dev.rdAt_wrAt_same, hhears.rdAt, hseen.rdAt rfl hin]
  exact Nat.mod_eq_of_lt (show min (d.rdAt .LS_SLOT_CNT_BV_CNT .A n slot + 1) 65535 < 65536 by omega)
end

/-! ### The first copy of a slot and its consumers (R353, R371, R374, R378) -/

/-- Slot `slot` holds `bytes` of node `x` as its first copy; where the node was not admitted in `d`, the field I/O is as it was there. -/
structure Dev.slotTaken (d : Dev) (n slot x : Nat) (bytes : List Nat) (e : Dev) : Prop where
  first : ((e.port n).slots.get slot).first = some bytes
  heard : (e.node n x).emptyRun = 0
  field : (d.node n x).state ≠ 3 → e.field = d.field

section
variable {d e e' : Dev} {n slot x : Nat} {bytes : List Nat} (h : d.slotTaken n slot x bytes e)
include h

theorem Dev.slotTaken.of_ring (hring : e'.ring = e.ring) (hf : (d.node n x).state ≠ 3 → e'.field = e.field) :
    d.slotTaken n slot x bytes e' := by
  have hport : e'.port n = e.port n := by rw [Dev.port, hring, Dev.port]
  exact ⟨by rw [hport]; exact h.first, by rw [Dev.node, hport]; exact h.heard, fun hs => (hf hs).trans (h.field hs)⟩

theorem Dev.slotTaken.of_spares (hs : e.sparesPort n e') (hf : (d.node n x).state ≠ 3 → e'.field = e.field) :
    d.slotTaken n slot x bytes e' :=
  ⟨by rw [hs.slots]; exact h.first, by rw [hs.node]; exact h.heard, fun h3 => (hf h3).trans (h.field h3)⟩

theorem Dev.slotTaken.updNode (y : Nat) {g : NodeSt → NodeSt} (hg : ∀ s, s.emptyRun = 0 → (g s).emptyRun = 0) :
    d.slotTaken n slot x bytes (e.updNode n y g) := by
  refine ⟨by rw [Dev.slots_updNode]; exact h.first, ?_, h.field⟩
  rw [Dev.node_updNode]
  split
  · exact hg _ h.heard
  · exact h.heard

theorem measureNode_slotTaken (y : Nat) (q : Path) (err : Int) : d.slotTaken n slot x bytes (measureNode n y q err e) := by
  unfold measureNode
  extract_lets r d1
  have h1 : d.slotTaken n slot x bytes d1 := h.updNode y (fun s hs => by split <;> exact hs)
  split
  · exact h1.updNode y (fun _ hs => hs)
  · exact h1

theorem showNodes_slotTaken : d.slotTaken n slot x bytes (showNodes n e) := h.of_ring rfl (fun _ => rfl)

theorem raiseRing_slotTaken (c : Code) (l : List Int) : d.slotTaken n slot x bytes (raiseRing n c l e) :=
  h.of_spares (raiseRing_spares ..) (fun _ => raiseRing_field ..)

theorem admitNode_slotTaken (y : Nat) (r : Ident) : d.slotTaken n slot x bytes (admitNode n y r e) := by
  unfold admitNode
  extract_lets sec leader refuse late d1 d2
  have hrefuse : ∀ c, d.slotTaken n slot x bytes (refuse c e) := by
    intro c
    unfold refuse
    extract_lets d3
    have h3 : d.slotTaken n slot x bytes d3 := h.updNode y (fun _ hs => hs)
    split
    · exact h3
    · split
      · exact h3.of_ring ((raise_ring ..).trans rfl) (fun _ => (raise_field ..).trans rfl)
      · exact raiseRing_slotTaken h3 _ _
  split
  · exact hrefuse _
  · split
    · exact hrefuse _
    · have h1 : d.slotTaken n slot x bytes d1 := h.updNode y (fun _ _ => rfl)
      have h2 : d.slotTaken n slot x bytes d2 := by
        unfold d2
        split
        · exact h1.of_ring rfl (fun _ => rfl)
        · exact h1
      split
      · exact h2.of_spares (raiseRingLong_spares ..) (fun _ => raiseRingLong_field ..)
      · exact h2

theorem identRecord_slotTaken (y : Nat) (q : Path) (err : Int) (first : Bool) (r : Ident) :
    d.slotTaken n slot x bytes (identRecord n y q err first r e) := by
  unfold identRecord
  split
  · exact h
  · extract_lets d1 s run d2
    have h1 : d.slotTaken n slot x bytes d1 := by
      unfold d1
      split
      · exact measureNode_slotTaken h y q err
      · exact h
    have h2 : d.slotTaken n slot x bytes d2 := h1.updNode y (fun _ hs => hs)
    split
    · exact h1
    · refine showNodes_slotTaken ?_
      split
      · exact admitNode_slotTaken h2 y r
      · exact h2

theorem returning_slotTaken (y : Nat) : d.slotTaken n slot x bytes (returning n y e) := by
  unfold returning
  extract_lets k d1 d2
  have h1 : d.slotTaken n slot x bytes d1 := h.updNode y (fun _ hs => hs)
  split
  · refine showNodes_slotTaken ?_
    have h2 : d.slotTaken n slot x bytes d2 := h1.updNode y (fun _ _ => rfl)
    split
    · exact raiseRing_slotTaken h2 _ _
    · exact h2
  · exact h1
end

/-! ### The consumers of an admitted node spare the port (R109, R241, R260, R354) -/

section
variable (d : Dev) (n : Nat)

theorem bothChans_spares {f : Chan → Dev → Dev} (h : ∀ c (s : Dev), s.sparesPort n (f c s)) : d.sparesPort n (bothChans f d) :=
  forL_spares _ _ (fun c _ s => h c s)

theorem missPos_spares (y : Nat) : d.sparesPort n (missPos n y d) :=
  forL_spares _ _ (fun _ _ s => bothChans_spares s n (fun c s => s.updCh_spares n c _))

theorem personPart_spares (c : Chan) (i : Nat) (b : List Nat) (t : T96) : d.sparesPort n (personPart c i b t d) := by
  unfold personPart
  extract_lets x set
  have hset : ∀ (f : SensSt → SensSt) (s : Dev), s.sparesPort n (set f s) := fun f s => s.updCh_spares n c _
  split
  · exact .refl _ _
  · split
    · exact hset _ _
    · exact .refl _ _
    · dsimp only
      split
      · exact (hset _ _).trans (raiseSaf_spares ..)
      · exact hset _ _

theorem positionsTo_spares (y seq status : Nat) (ps : List Int) (t : T96) (c : Chan) :
    d.sparesPort n (positionsTo n y seq status ps t c d) := by
  unfold positionsTo
  extract_lets axes id any d1
  have h1 : d.sparesPort n d1 := d.updCh_spares n c _
  split
  · exact .refl _ _
  · split
    · exact h1.trans (forL_spares _ _ (fun _ _ s => s.updCh_spares n c _))
    · exact h1

theorem levelsTo_spares (y seq status : Nat) (io : SafIoIn) (c : Chan) : d.sparesPort n (levelsTo n y seq status io c d) := by
  unfold levelsTo
  extract_lets id
  split
  · exact .refl _ _
  · exact d.updCh_spares n c _

theorem subFrame_spares (y : Nat) (sensor : Option Nat) (b : List Nat) : d.sparesPort n (subFrame n y sensor b d) := by
  unfold subFrame
  extract_lets sec num crc
  split
  · split
    · exact bothChans_spares _ _ (fun c s => personPart_spares s n c _ _ _)
    · exact .refl _ _
  · split
    · exact .refl _ _
    · exact bothChans_spares _ _ (fun c s => positionsTo_spares s n _ _ _ _ _ c)
  · split
    · exact .refl _ _
    · exact bothChans_spares _ _ (fun c s => levelsTo_spares s n _ _ _ _ c)
  · exact .refl _ _

theorem Dev.updAux_spares (p : Plane) (m : Nat) (g : AuxSt → AuxSt) : d.sparesPort n (d.updAux p m g) := by
  unfold Dev.updAux Dev.updPpe
  exact d.updPl_spares n p _

theorem posLost_spares (p : Plane) (m : Nat) : d.sparesPort n (posLost p m d) := by
  unfold posLost requestAux markLost
  exact ((((d.updAux_spares n p m _).trans (Dev.wrP_spares _ n 1 rfl)).trans (Dev.wrP_spares _ n 0 rfl)).trans (raiseP_spares ..)).trans
    (Dev.updAux_spares ..)

theorem updStage_spares (a : Nat) (g : StageSt → StageSt) : d.sparesPort n (updStage a g d) := d.updField_spares n _

theorem stagePower_spares (a stat : Nat) : d.sparesPort n (stagePower a stat d) := by
  unfold stagePower
  extract_lets on d1 st
  have h1 : d.sparesPort n d1 := by
    unfold d1
    split
    · exact (updStage_spares ..).trans (bothPlanes_spares (fun p s => s.wrP_spares n 1 rfl))
    · exact .refl _ _
  refine h1.trans ?_
  split
  · split
    · exact updStage_spares ..
    · split
      · exact bothPlanes_spares (fun p s => posLost_spares s n p a)
      · exact .refl _ _
  · split
    · exact (updStage_spares ..).trans (bothPlanes_spares (fun p s => s.updAux_spares n p a _))
    · exact .refl _ _

theorem driveRecord_spares (a : Nat) (r : DriveRec) : d.sparesPort n (driveRecord a r d) := by
  unfold driveRecord
  extract_lets d1
  have h1 : d.sparesPort n d1 := d.updField_spares n _
  split
  · split
    · exact h1.trans (stagePower_spares ..)
    · exact h1
  · exact h1
end

theorem processFrame_slotTaken {d e : Dev} {n slot x : Nat} {bytes : List Nat} (h3 : (d.node n x).state = 3)
    (h : d.slotTaken n slot x bytes e) (y : Nat) (recs : List DriveRec) : d.slotTaken n slot x bytes (processFrame n y recs e) := by
  unfold processFrame
  extract_lets d1 miss d2
  have h1 : d.slotTaken n slot x bytes d1 := h.of_spares (forL_spares _ _ (fun r _ s => driveRecord_spares s n _ _)) (absurd h3)
  have h2 : d.slotTaken n slot x bytes d2 := by
    unfold d2
    split
    · exact raiseRing_slotTaken h1 _ _
    · exact h1
  exact h2.updNode y (fun _ hs => hs)

/-! ### The activations of a slot frame (R440, R441, R452) -/

section
variable (d : Dev) (n t : Nat) (p : Plane) (a : Act)

@[simp] theorem Dev.updPl_field (g : PlaneDev → PlaneDev) : (d.updPl p g).field = d.field := by cases p <;> rfl

@[simp] theorem raiseP_field (c : Code) (l : List Int) : (raiseP p c l d).field = d.field := by
  unfold raiseP
  extract_lets d1 d2
  have hnote : d2.field = d.field := by
    unfold d2
    split
    · exact (noteFault_field ..).trans ((recordAt_field ..).trans (Dev.updPl_field ..))
    · exact Dev.updPl_field ..
  split
  · rw [icuRaise_field, hnote]
  · exact hnote

theorem enqueue_spares : d.sparesPort n (enqueue p t a d) := by
  unfold enqueue raiseDispatch
  split
  · exact (d.updPl_spares n p _).trans (icuRaise_spares ..)
  · exact d.updPl_spares n p _

theorem enqueue_field : (enqueue p t a d).field = d.field := by
  unfold enqueue raiseDispatch
  split
  · rw [icuRaise_field]
    exact d.updPl_field p _
  · exact d.updPl_field p _

theorem activate_spares : d.sparesPort n (activate p t a d) := by
  have hovf : d.sparesPort n (countOvf p t d) := d.wrP_spares n _ rfl
  unfold activate
  split
  · exact .refl _ _
  · split
    · exact hovf
    · split
      · exact enqueue_spares ..
      · exact hovf.trans (raiseP_spares ..)

theorem activate_field : (activate p t a d).field = d.field := by
  unfold activate
  split
  · rfl
  · split
    · rfl
    · split
      · exact enqueue_field ..
      · exact raiseP_field ..

theorem slotTasks_spares (port slot : Nat) (onS : Bool) (t : T96) : d.sparesPort n (slotTasks port slot onS t d) :=
  bothPlanes_spares (fun p _ => forL_spares _ _ (fun m _ s => activate_spares s n m p _))

theorem slotTasks_field (port slot : Nat) (onS : Bool) (t : T96) : (slotTasks port slot onS t d).field = d.field :=
  have hplane : ∀ p (s : Dev), s.field = d.field → (forL (s.tasksOf 2 (fun a => a % 4 == port && a / 4 % 1024 == slot))
      (fun n => activate p n { t := t, base := 0, src := 2, arg := slot + 1024 * port + 4096 * b2n onS }) s).field = d.field :=
    fun p _ hs => forL_keeps (fun e : Dev => e.field = d.field) _ _ (fun m _ e he => (activate_field e m p _).trans he) hs
  hplane .B _ (hplane .A d rfl)

theorem msgTask_spares (y ch : Nat) : d.sparesPort n (msgTask y ch a p t d) := by
  have hovf : d.sparesPort n (countOvf p t d) := d.wrP_spares n _ rfl
  unfold msgTask
  extract_lets s
  split
  · exact .refl _ _
  · split
    · exact hovf
    · split
      · exact enqueue_spares ..
      · split
        · exact d.updPl_spares n p _
        · exact hovf.trans (raiseP_spares ..)

theorem msgArrives_spares (port y ch ofs : Nat) (t : T96) : d.sparesPort n (msgArrives port y ch ofs t d) :=
  bothPlanes_spares (fun p _ => forL_spares _ _ (fun m _ s => msgTask_spares s n m p _ y ch))
end

/-! ### The first copy, as its checks end and as it arrives -/

section
variable {d e : Dev} {n slot x : Nat} {bytes : List Nat} {pay : SlotPayload}

theorem takeSlot_slotTaken (q : Path) (err : Int) (hfirst : ((e.port n).slots.get slot).first = none)
    (hstate : (e.node n x).state = (d.node n x).state) (hfield : e.field = d.field) :
    d.slotTaken n slot x bytes (takeSlot n slot q err x pay bytes e) := by
  unfold takeSlot
  extract_lets d0 before d1 sensor
  have hnone : before = none := hfirst
  have hd1 : d1 = (d0.updSlot n slot (fun s => { s with first := some bytes, was := false })).wrAt .LS_SLOT_INFO_LAST_EMPTY .A n slot 0 := by
    simp only [d1, hnone]
  have h1 : d.slotTaken n slot x bytes d1 := by
    rw [hd1]
    refine ⟨?_, ?_, fun _ => hfield⟩
    · rw [Dev.port_wrAt, Dev.slot_updSlot, if_pos rfl]
    · rw [Dev.node_wrAt, Dev.node_updSlot, Dev.node_wrAt, Dev.node_updNode_same]
  have hstate1 : (d1.node n x).state = (d.node n x).state := by
    rw [hd1, Dev.node_wrAt, Dev.node_updSlot, Dev.node_wrAt, Dev.node_updNode_same]
    exact hstate
  rw [hnone]
  split
  · exact identRecord_slotTaken h1 x q err _ _
  · cases pay with
    | ident r => exact h1
    | process subs recs msgs =>
      dsimp only
      split
      · exact returning_slotTaken h1 x
      · next h3 =>
        have hadmitted : (d.node n x).state = 3 := hstate1.symm.trans (Classical.not_not.mp h3)
        have h2 : d1.sparesPort n (forL subs (fun b d => subFrame n x sensor b d) (missPos n x d1)) :=
          (missPos_spares ..).trans (forL_spares _ _ (fun b _ s => subFrame_spares s n x sensor b))
        exact processFrame_slotTaken hadmitted (h1.of_spares h2 (absurd hadmitted)) x recs
end

section
variable {d : Dev} {n slot src : Nat} {q : Path} {h : RxHead} {err : Int} {pay : SlotPayload}

/-- The first copy of a slot in its window, from the node that sends there. -/
theorem slotArrives_takes (hheard : lsBasting ≤ d.lsState n) (hfin : h.fin = .good) (hcrc : d.slotCrc n h src pay = false)
    (hform : d.slotForm n slot h src pay = false) (herr : 2 * absI err ≤ d.guard5 n) (hsender : d.slotSender n slot = some src)
    (hfirst : ((d.port n).slots.get slot).first = none) :
    d.slotTaken n slot src (d.slotBytes n src pay) (slotArrives n slot q h err true src pay d) := by
  have htaken : d.slotTaken n slot src (d.slotBytes n src pay) (slotFrame n slot q h err true src pay d) := by
    obtain ⟨e, hhears, heq⟩ := slotFrame_judged slot src q h err true pay hheard
    obtain ⟨hseen, hfield⟩ := frameSeen_passes_spares (d := d) (n := n) (who := slot) (q := q) hfin hcrc hform
    rw [heq, if_neg (by rw [hfin]; decide), if_neg (by simp [hcrc, hform]), if_neg (by simpa using herr), if_neg (not_not_intro hsender)]
    exact takeSlot_slotTaken q err (by rw [hhears.slots, hseen.slots]; exact hfirst) (by rw [hhears.state, hseen.node])
      (hhears.field.trans hfield)
  unfold slotArrives
  extract_lets d1 ident t d2
  have h2 : d.slotTaken n slot src (d.slotBytes n src pay) d2 := htaken.of_spares (slotTasks_spares ..) (fun _ => slotTasks_field ..)
  split
  · next hacts =>
    cases pay with
    | ident r => exact h2
    | process subs recs msgs =>
      dsimp only
      split
      · exact h2
      · next hident =>
        have hadmitted : (d.node n src).state = 3 := by
          simp only [Bool.and_eq_true, Bool.or_eq_true, hident, Bool.false_eq_true, false_or, beq_iff_eq] at hacts
          exact hacts.2
        exact h2.of_spares (forL_spares _ _ (fun m _ s => msgArrives_spares s n n src m.ch m.ofs t)) (absurd hadmitted)
  · exact htaken

/-! ### An empty due slot (R352, R378) -/

theorem slotEmpty_none (h : d.slotDue n slot = none) : slotEmpty n slot d = d := by
  unfold slotEmpty
  rw [h]

theorem slotEmpty_counts {x : Nat} (hdue : d.slotDue n slot = some x) (hst : d.lsState n = lsSewn)
    (hfirst : ((d.port n).slots.get slot).first = none) : ((slotEmpty n slot d).node n x).emptyRun = (d.node n x).emptyRun + 1 ∧
    ((d.node n x).state = 3 → (d.node n x).emptyRun = 15 → ((slotEmpty n slot d).node n x).state = 1) := by
  unfold slotEmpty
  split
  · next hnone => exact absurd (hnone.symm.trans hdue) nofun
  next y hy =>
  obtain rfl : y = x := Option.some.inj (hy.symm.trans hdue)
  rw [if_neg (by rw [hfirst]; decide), if_neg (not_not_intro hst)]
  extract_lets d1 d2 d3 k d4 d5
  have hrun : (d4.node n y).emptyRun = (d.node n y).emptyRun + 1 := by
    rw [Dev.node_updSlot, Dev.node_updNode_same]
  split
  · have hshown : ∀ e : Dev, (showNodes n e).node n y = e.node n y := fun _ => rfl
    have hraised : (if d.rd .LS_STATE_ROLE n = 1 then raiseRing n .NODE_ABSENT [(y : Int)] d5 else d5).node n y = d5.node n y := by
      split
      · exact (raiseRing_spares ..).node y
      · rfl
    rw [hshown, hraised, Dev.node_updNode_same]
    exact ⟨hrun, fun _ _ => rfl⟩
  · next hnot =>
    refine ⟨hrun, fun h3 h15 => absurd ?_ hnot⟩
    simp [h3, k, h15]
end

end Sys2Proof.Machine
end

section
/-! PROOFS of the family 12_lockstitch_schedule, the frames of the ring: every clause by the lemma of its frame. -/

namespace Sys2Proof.Machine

/-- Settles O56: every frame by its lemma; where this controller repeats it first, the port is spared until the frame acts. -/
theorem ringFrames : Obligations.RingFrames := by
  intro n x src q f ws r map h seq slot k inTime err fh pay tr c s d0 self y role wd step permit st heard passes g goodSync missed second
    goodCycle goodPerm bytes crc form goodClaim window
  have hn : n.val < 4 := n.isLt
  refine ⟨fun h => ?_, fun h => ?_, fun hgood hsched => ⟨fun hx => ?_, fun hx hheard hrole => ?_, fun hx hst hrole => ?_,
      fun hx hst hrole hsecond => ?_⟩,
    fun hgood hsched hx => ?_, fun hgood hsched hx hon hrole => ?_, fun hbad hx => ?_, fun hx => ?_,
    fun hx hrole hheard hP => ⟨fun hS => ?_, fun hS => ?_⟩,
    fun hx hheard hgood hsewn howner => ⟨fun hfree hrec => ?_, fun htaken => ?_⟩, fun hx hbad => ?_, fun hx hheard hgood => ?_,
    fun hgood => ⟨fun hnone => ?_, fun hsome => ⟨fun h1 hwd => ?_, fun h0 => ?_, fun hwd _ => ?_⟩⟩, fun hbad => ?_,
    fun hheard => ⟨fun hfin => ?_, fun hfin hbad => ?_, fun hgood herr hsender hfirst => ?_, fun hgood hlate hslot => ?_⟩,
    fun hlow hfin hcrc hform => ?_, fun hdue hst hfirst => ?_, fun hnone => ?_,
    fun hx hgood => ⟨fun hok hmute hnew => ?_, fun h0 h15 => ?_, fun h15 => ?_, fun hrole hone hnew hbad => ?_⟩, fun hbad => ?_⟩
  -- the sync frame leaves
  · exact RunsDev.of_doDev (f := syncSend n) rfl (syncSend_leads h)
  · exact RunsDev.of_doDev (f := syncSend n) rfl (syncSend_follows h)
  -- a copy of it reaches a node or this controller
  · refine RunsDev.of_doDev (f := syncFrame n x q f) rfl ?_
    rw [syncFrame_node hgood hx]
    exact nodeSync_shows hsched
  · exact RunsDev.of_doDev (f := syncFrame n x .P f) rfl (syncFrame_follows hgood hx (heard_above hheard).1 hn hrole hsched hheard)
  · refine RunsDev.of_doDev (f := syncFrame n x q f) rfl (syncFrame_coldStart hgood hx ?_ hn hrole hsched hst)
    rcases hst with h | h <;> exact fun hoff => absurd (h.symm.trans hoff) (by decide)
  · exact RunsDev.of_doDev (f := syncFrame n x q f) rfl
      (syncFrame_integrates hgood hx (fun hoff => absurd (hst.symm.trans hoff) (by decide)) hn hrole hsched hst hsecond)
  · exact RunsDev.of_doDev (f := syncFrame n x q f) rfl ((syncFrame_node hgood hx).trans (nodeSync_other hsched))
  · exact RunsDev.of_doDev (f := syncFrame n x q f) rfl (syncFrame_mismatch hgood hx hon hn hrole hsched)
  · exact RunsDev.of_doDev (f := syncFrame n x q f) rfl (syncFrame_refused hbad hx)
  -- a path does not bring it
  · refine RunsDev.of_doDev (f := syncMissed n x .P) rfl ?_
    have hnode : (syncMissed n x .P d0).node n x = y.missed .P := syncMissed_node hx
    simp only [permit]
    rw [hnode]
    exact y.missed_P
  · exact RunsDev.of_doDev (f := syncMissed n x .P) rfl (syncMissed_lost hx hrole hheard hP hn hS)
  · exact RunsDev.of_doDev (f := syncMissed n x .P) rfl (syncMissed_broken hx hrole hheard hP hS)
  -- a copy of a cycle frame
  · exact RunsDev.of_doDev (f := cycleFrame n src x ws) rfl (cycleFrame_record hheard hgood hx hsewn howner hfree hrec)
  · exact RunsDev.of_doDev (f := cycleFrame n src x ws) rfl (cycleFrame_again hheard hgood hx hsewn htaken)
  · exact RunsDev.of_doDev (f := cycleFrame n src x ws) rfl (cycleFrame_refused hx hbad)
  · exact RunsDev.of_doDev (f := cycleFrame n src x ws) rfl (fun e he hsrc hlen => cycleFrame_words hheard hgood hx he hsrc hlen)
  -- a permission sub-frame
  · exact RunsDev.of_doDev (f := permissionFrame n x .a seq map h) rfl (permissionFrame_permA hgood (takePermit_first hnone))
  · exact RunsDev.of_doDev (f := permissionFrame n x .a seq map h) rfl (permissionFrame_permA hgood (takePermit_later hsome h1 hwd))
  · exact RunsDev.of_doDev (f := permissionFrame n x .a seq map h) rfl ⟨permissionFrame_permA hgood (takePermit_same hsome h0),
      fun hne => permissionFrame_safDiff hgood (takePermit_same hsome h0) (bne_iff_ne.mpr hne)⟩
  · exact RunsDev.of_doDev (f := permissionFrame n x .a seq map h) rfl (permissionFrame_permA hgood (takePermit_far hsome hwd))
  · exact RunsDev.of_doDev (f := permissionFrame n x .b seq map h) rfl (permissionFrame_refused hbad)
  -- a slot frame
  · exact RunsDev.of_doDev (f := slotArrives n slot q fh err inTime src pay) rfl (slotArrives_aborted hn hheard hfin)
  · exact RunsDev.of_doDev (f := slotArrives n slot q fh err inTime src pay) rfl (slotArrives_refused hn hheard hfin hbad)
  · obtain ⟨hfin, hcrc, hform⟩ := hgood
    obtain ⟨hbytes, hrun, hfield⟩ := slotArrives_takes (q := q) hheard hfin hcrc hform herr hsender hfirst
    exact RunsDev.of_doDev (f := slotArrives n slot q fh err true src pay) rfl ⟨hbytes, hrun, fun h3 => congrArg FieldSt.slot (hfield h3)⟩
  · obtain ⟨hfin, hcrc, hform⟩ := hgood
    exact RunsDev.of_doDev (f := slotArrives n slot q fh err inTime src pay) rfl (slotArrives_late hn hheard hfin hcrc hform hlate hslot)
  · exact RunsDev.of_doDev (f := slotArrives n slot q fh err inTime src pay) rfl
      (slotArrives_unheard (Nat.lt_of_not_le hlow) hfin hcrc hform)
  -- an empty slot
  · exact RunsDev.of_doDev (f := slotEmpty n slot) rfl (slotEmpty_counts hdue hst hfirst)
  · exact RunsDev.of_doDev (f := slotEmpty n slot) rfl (slotEmpty_none hnone)
  -- a claim
  · exact RunsDev.of_doDev (f := claimFrame n src tr [x.val] c) rfl (claimFrame_claimant (Fin.val_ne_of_ne hx) hgood hok hmute hnew)
  · refine RunsDev.of_doDev (f := claimFrame n src tr [x.val] c) rfl ?_
    rw [claimFrame_hearer (Fin.val_ne_of_ne hx) hgood]
    exact NodeSt.backOff_retries h0 h15
  · refine RunsDev.of_doDev (f := claimFrame n src tr [x.val] c) rfl ?_
    rw [claimFrame_hearer (Fin.val_ne_of_ne hx) hgood]
    exact NodeSt.backOff_mutes h15
  · exact RunsDev.of_doDev (f := claimFrame n src tr [x.val] c) rfl (claimFrame_clash (Fin.val_ne_of_ne hx) hgood hn hrole hone hnew hbad)
  · exact RunsDev.of_doDev (f := claimFrame n src tr [] c) rfl (claimFrame_bad hbad)

end Sys2Proof.Machine
end

section
/-! PROOFS of the family 14_capture_cellar_book: the clauses of O57. They hold but for the delay of an echo: one that does not fit the
16 bits of DELAY is a free value (log entry 135), and O57 holds exactly where that value is the delay's low 16 bits. -/

namespace Sys2Proof.Machine

/-! ### Arming, STOP, POST_T and the read positions (R404, R405, R407, R415) -/

@[simp] theorem Dev.rd_updCap (d : Dev) (g : CapSt → CapSt) (f : Fld) (i : Nat) : (d.updCap g).rd f i = d.rd f i := rfl

section
variable {d : Dev}

theorem Dev.capturing_iff : d.capturing = true ↔ d.rd .CAP_STAT_STATE = 1 ∨ d.rd .CAP_STAT_STATE = 2 := by
  simp [Dev.capturing, capRun, capPost]

theorem capArm_ready (h : d.capturing ≠ true) (hr : d.chsOn ≠ [] ∧ d.baseState d.capBase ≠ 0) :
    capArm d = { d with cap := { d.cap with armReq := true } } := by
  obtain ⟨hon, hbase⟩ := hr
  rw [capArm, if_neg h, if_neg (by simp [hon, hbase])]
  rfl

theorem capArm_refused (h : d.capturing ≠ true) (hr : ¬(d.chsOn ≠ [] ∧ d.baseState d.capBase ≠ 0)) :
    (capArm d).rd .CAP_ARM_ARM_ERR = 1 ∧ (capArm d).cap = d.cap := by
  have hbad : (d.chsOn.isEmpty || d.baseState d.capBase = 0) = true := by
    rw [Bool.or_eq_true, List.isEmpty_iff, decide_eq_true_eq]
    by_contra hc
    exact hr (not_or.mp hc)
  rw [capArm, if_neg h, if_pos hbad, raise_rd_spared _ (by decide), Dev.rd_wr_same, raise_cap]
  exact ⟨rfl, rfl⟩

variable (w : Word)

theorem capRdWrite_rd : (capRdWrite w.toNat d).rd .CAP_RD = w.toNat / 8 * 8 := by
  rw [capRdWrite, Dev.rd_updCap, Dev.rd_wr_same]
  have := w.isLt
  exact Nat.mod_eq_of_lt (show _ < 2 ^ 32 by omega)

theorem celRdWrite_rd : (celRdWrite w.toNat d).rd .CEL_RD = w.toNat / 32 * 32 := by
  have := w.isLt
  exact (Dev.rd_wr_same d .CEL_RD (w.toNat / 32 * 32) 0).trans (Nat.mod_eq_of_lt (show _ < 2 ^ 32 by omega))
end

/-! ### A fast channel (R394, R401) -/

section
variable {c k ofs : Nat} {s : Part}

theorem takeSample_last (v : Int) (t : T96) : (takeSample c v t s).dev.rd .CAP_CH_LAST_VALUE c = unsigned 32 v := by
  rw [takeSample, Part.onDev_dev, Dev.rd_updCap, Dev.rd_wr_same]
  have hlt : unsigned 32 v < 2 ^ 32 := by rw [unsigned]; omega
  exact Nat.mod_eq_of_lt hlt

theorem takeSample_prev (v : Int) (t : T96) : ((takeSample c v t s).dev.cap.ch.get c).prev = some (v, t) := by
  simp [takeSample, Dev.updCap]

variable (hofs : k * s.dev.rd .CAP_CH_CFG_DIV c * 1000 * nsUnit = ofs)
include hofs

theorem fastSample_off (h : s.dev.chOn c = false ∨ s.dev.cycLen ≤ ofs) : fastSample c k s = s := by
  subst hofs
  refine if_pos ?_
  rcases h with h | h <;> simp [h]

/-- Whatever the record of a sample does before, the sample is shown and kept last. -/
theorem fastSample_on (hc : c < 16) (hon : s.dev.chOn c = true) (hl : ofs < s.dev.cycLen) :
    ∃ s1, fastSample c k s = takeSample c (capValue s c (s.dev.cyc.openAt + ofs)) (s.dev.cap.bT + ofs) s1 := by
  subst hofs
  exact ⟨_, if_neg (by simp [hon, hc, hl])⟩
end

/-! ### A faulty line, and a pulse without a known sender (R411) -/

section
variable (l : Nat) {d : Dev}

theorem trgLineFault_new (h : bit (d.rd .CAP_TBUS_STAT_LINE_FLT) l = false) :
    (trgLineFault l d).rd .CAP_TBUS_STAT_LINE_FLT = setBit (d.rd .CAP_TBUS_STAT_LINE_FLT) l true % 16 ∧
      (trgLineFault l d).lineFree l = false := by
  rw [trgLineFault, if_neg (by simp [h])]
  constructor
  · rw [raise_rd_spared _ (by decide), Dev.rd_updCap, Dev.rd_wr_same]
    rfl
  · rw [Dev.lineFree, raise_cap]
    simp [Dev.updCap, bit_setBit]

theorem unknownPulse_counts (width : Nat) (t : T96) :
    (unknownPulse l width t d).rd .CAP_TBUS_STAT_UNKNOWN = min (d.rd .CAP_TBUS_STAT_UNKNOWN + 1) 65535 := by
  rw [unknownPulse, raiseLong, Dev.rd_eq, recordAt_rdAt _ _ _ _ _ _ _ (by decide), ← Dev.rd_eq, raise_rd_spared _ (by decide), Dev.incSat,
    Dev.rd_wr_same]
  exact Nat.mod_eq_of_lt (show min (d.rd .CAP_TBUS_STAT_UNKNOWN + 1) 65535 < 65536 by omega)
end

/-! ### A pulse on a line (R410 to R412) -/

theorem calFinish_none {d : Dev} (h : d.cap.calAt = none) : calFinish d = d := by
  rw [calFinish, h]

/-- The device with the latest pulse of a line stamped. -/
def stampPulse (l width : Nat) (t : T96) (d : Dev) : Dev := d.updCap (fun x => { x with seen := x.seen.set l (some (t, width)) })

section
variable {l width t i j t0 : Nat} {s : Part}

section
variable (hcal : s.dev.cap.calAt = none)
include hcal

theorem trgPulse_none (hs : senderOf width = none) :
    trgPulse l width t s = s.onDev (fun d => unknownPulse l width t (stampPulse l width t d)) := by
  simp only [trgPulse, hs, Part.onDev, calFinish_none hcal]
  rfl

theorem trgPulse_cal (hs : senderOf width = some j) (hi : s.dev.calSender l t = some i) :
    trgPulse l width t s = calPulse l i j width t (s.onDev (stampPulse l width t)) := by
  have hstamped : (stampPulse l width t s.dev).calSender l t = some i := hi
  simp only [stampPulse] at hstamped
  simp only [trgPulse, hs, Part.onDev, calFinish_none hcal, hstamped]
  rfl

theorem trgPulse_unmeasured (hs : senderOf width = some j) (hi : s.dev.calSender l t = none) (hj : j ≠ s.dev.ctrl)
    (hv : s.dev.rdAt .CAP_TBUS_DLY_VALID .A l j ≠ 1) :
    trgPulse l width t s = s.onDev (fun d => unknownPulse l width t (stampPulse l width t d)) := by
  have hstamped : (stampPulse l width t s.dev).calSender l t = none := hi
  have hdelay : (stampPulse l width t s.dev).trgDelay l j = none := (if_neg hj).trans (if_neg hv)
  simp only [stampPulse] at hstamped hdelay
  simp only [trgPulse, hs, Part.onDev, calFinish_none hcal, hstamped, busOrUnknown, hdelay]
  rfl
end

/-- The calibration pulse of `j`: it leads its window, and every other controller owes its echo. -/
theorem calPulse_lead (h : t % (4 * secUnit) % calWin < 10000 * nsUnit) : calPulse l j j width t s = s.onDev (fun d =>
    d.updCap (fun x => { x with
      lead := x.lead.set l (some (j, t))
      outs := x.outs ++ (if j = d.ctrl then [] else [{ line := l, due := some (t + (10000 + 20000 * d.ctrl) * nsUnit) }]) })) := by
  rw [calPulse, if_pos (by simp [h])]
  refine congrArg (Part.mk s.mems) ?_
  simp only [Dev.updCap]
  split <;> simp

/-- The delay in ns that a round trip of `rt` ns to controller `j` gives (R412). -/
def echoDelay (rt : Int) (j : Nat) : Int := rdiv (rt - 10000 - 20000 * j) 2

/-- A measured delay of controller `j` on a line is shown as VALID. -/
def showDelay (l j x : Nat) (d : Dev) : Dev := (d.wrAt .CAP_TBUS_DLY_DELAY .A l j x).wrAt .CAP_TBUS_DLY_VALID .A l j 1

theorem showDelay_valid (x : Nat) (d : Dev) : (showDelay l j x d).rdAt .CAP_TBUS_DLY_VALID .A l j = 1 := Dev.rdAt_wrAt_same _ _ _ _ _ _

theorem showDelay_delay (d : Dev) {x : Nat} (hx : x < 2 ^ 16) : (showDelay l j x d).rdAt .CAP_TBUS_DLY_DELAY .A l j = x := by
  rw [showDelay, Dev.rdAt_wrAt_ne _ _ (show _ * 32 + 16 ≠ _ * 32 + 0 by omega), Dev.rdAt_wrAt_same]
  exact Nat.mod_eq_of_lt hx

theorem calPulse_echo (hj : j ≠ i) (hi : i = s.dev.ctrl) (hl : s.dev.cap.lead.get l = some (i, t0)) (h0 : t0 ≤ t)
    (h1 : t < t0 + calWin) :
    calPulse l i j width t s = s.onDev (showDelay l j (fitU 16 (echoDelay (((t : Int) - t0) / nsUnit) j))) := by
  rw [calPulse, if_neg (by simp [hj]), hl]
  simp only [decide_true, hj, ne_eq, not_false_eq_true, h0, h1, Bool.and_self, if_true, ← hi]
  rfl

theorem trgPulse_echo (hcal : s.dev.cap.calAt = none) (hs : senderOf width = some j) (hj : j ≠ s.dev.ctrl)
    (hi : s.dev.calSender l t = some s.dev.ctrl) (hl : s.dev.cap.lead.get l = some (s.dev.ctrl, t0)) (h0 : t0 ≤ t)
    (h1 : t < t0 + calWin) :
    trgPulse l width t s = s.onDev (fun d =>
      showDelay l j (fitU 16 (echoDelay (((t : Int) - t0) / nsUnit) j)) (stampPulse l width t d)) := by
  rw [trgPulse_cal hcal hs hi, calPulse_echo (s := s.onDev (stampPulse l width t)) hj rfl hl h0 h1]
  rfl
end

/-! ### Calibration (R412) and the pulses of this controller (R410) -/

section
variable {d : Dev} {l : Nat} (hcal : d.cap.calAt = none)
include hcal

theorem trgCalibration_starts (hbase : d.baseState 0 ≠ 0) (hstage : d.rd .SYS_STATE_STAGE = 8)
    (hreq : d.cap.calReq = true ∨ d.cap.calFirst = false) :
    (trgCalibration d).rd .CAP_TBUS_STAT_CAL_RUN = 1 ∧ (trgCalibration d).cap.calReq = false ∧
      (trgCalibration d).cap.calAt = some (d.base 0 / (4 * secUnit) * (4 * secUnit)) ∧
      (trgCalibration d).cap.outs.map (·.line) = d.cap.outs.map (·.line) ++ [0, 1, 2, 3] := by
  have hgo : (d.baseState 0 = 0 || d.rd .SYS_STATE_STAGE ≠ 8 || d.cap.calAt.isSome || !(d.cap.calReq || !d.cap.calFirst)) = false := by
    rcases hreq with h | h <;> simp [hbase, hstage, hcal, h]
  rw [trgCalibration, calFinish_none hcal, if_neg (Bool.not_eq_true _ ▸ hgo)]
  refine ⟨?_, rfl, rfl, ?_⟩
  · rw [Dev.rd_updCap, Dev.rd_wr_same]
    rfl
  · exact List.map_append

theorem trgCalibration_waits (h : d.baseState 0 = 0 ∨ d.rd .SYS_STATE_STAGE ≠ 8 ∨ (d.cap.calReq = false ∧ d.cap.calFirst = true)) :
    trgCalibration d = d := by
  rw [trgCalibration, calFinish_none hcal]
  refine if_pos ?_
  rcases h with h | h | ⟨hreq, hfirst⟩
  · simp [h]
  · simp [h]
  · simp [hreq, hfirst]

theorem calWrite_eq : calWrite d = { d with cap := { d.cap with calReq := true, calRuns := 0 } } := by
  rw [calWrite, calFinish_none hcal]
  rfl

theorem trgOutput_none (h : d.lineFree l = false ∨ ∀ x ∈ d.cap.outs, x.line ≠ l) : trgOutput l d = d := by
  rw [trgOutput, calFinish_none hcal]
  refine if_neg ?_
  rw [List.any_eq_true]
  rintro ⟨x, hx, hready⟩
  rcases h with h | h
  · simp [h] at hready
  · simp [h x hx] at hready

theorem trgOutput_first {o : TrgOut} {os : List TrgOut} (ho : d.cap.outs = o :: os) (hl : o.line = l) (hfree : d.lineFree l = true)
    (hdue : o.due.all (fun u => decide (u ≤ d.base 0)) = true) :
    (trgOutput l d).cap.outs = os ∧ (trgOutput l d).cap.driven.get l = some (d.base 0, 200 + 40 * d.ctrl) := by
  obtain ⟨line, due⟩ := o
  simp only at hl hdue
  rw [trgOutput, calFinish_none hcal]
  cases due with
  | none => simp [ho, hl, hfree, hcal, dropFirst, Dev.updCap]
  | some u =>
    have hu : u ≤ d.base 0 := by simpa using hdue
    simp [ho, hl, hfree, hu, dropFirst, Dev.updCap]
end

/-! ### The cellar region (R413, R415) -/

theorem bytesOf_length (n v : Nat) : (bytesOf n v).length = n := by
  induction n generalizing v with
  | zero => rfl
  | succ n ih => rw [bytesOf, List.length_cons, ih]

theorem celBytes_length (r : CelRec) : (celBytes r).length = 32 := by
  simp only [celBytes, t96Bytes, List.length_append, bytesOf_length]
  split <;> simp

theorem lossRecords_none {d : Dev} (h : ∀ i, i < 9 → d.cellar.discarded.get i = 0) : lossRecords d = d := by
  refine forN_keeps (fun e => e = d) 9 _ (fun i hi e he => ?_) rfl
  subst he
  exact if_pos (h i hi)

section
variable {r : CelRec} {s : Part}

theorem celOverwrite_room {d : Dev} (h : d.cellar.written < d.cellar.readTo + d.rd .CEL_SIZE) : celOverwrite d = d :=
  if_pos (by simp [h])

theorem celStore_room (h32 : 32 ≤ s.dev.rd .CEL_SIZE) (hsize : s.dev.rd .CEL_SIZE < 2 ^ 32)
    (hroom : s.dev.cellar.written + 32 < s.dev.cellar.readTo + s.dev.rd .CEL_SIZE) :
    (celStore r s).dev.cellar = { s.dev.cellar with written := s.dev.cellar.written + 32 } ∧
      (celStore r s).dev.rd .CEL_HEAD = (s.dev.cellar.written + 32) % s.dev.rd .CEL_SIZE ∧
      (celStore r s).mems.dram =
        s.mems.dram.writeBytes (s.dev.pat.mem.cellar.base + s.dev.cellar.written % s.dev.rd .CEL_SIZE) (celBytes r) := by
  have hhead : (s.dev.cellar.written + 32) % s.dev.rd .CEL_SIZE < 2 ^ 32 := lt_trans (Nat.mod_lt _ (by omega)) hsize
  rw [celStore, if_neg (by omega)]
  dsimp only
  rw [celOverwrite_room]
  · refine ⟨rfl, ?_, rfl⟩
    rw [Dev.rd_wr_ne _ _ _ _ (by decide), Dev.rd_wr_same]
    exact Nat.mod_eq_of_lt hhead
  · rw [Dev.rd_wr_ne _ _ _ _ (by decide), Dev.rd_wr_ne _ _ _ _ (by decide)]
    exact hroom

/-- The device once the staging buffer is handed on. -/
def emptyStaging (d : Dev) : Dev := { d with cellar := { d.cellar with staging := [] } }

theorem cellarDrain_empty (hd : ∀ i, i < 9 → s.dev.cellar.discarded.get i = 0) (h : s.dev.cellar.staging = []) : cellarDrain s = s := by
  have hsame : emptyStaging s.dev = s.dev := by rw [emptyStaging, ← h]
  rw [cellarDrain, h]
  show Part.mk s.mems (lossRecords (emptyStaging s.dev)) = s
  rw [hsame, lossRecords_none hd]

theorem cellarDrain_one (hd : ∀ i, i < 9 → s.dev.cellar.discarded.get i = 0) (hwf : s.mems.wf = true) (h : s.dev.cellar.staging = [r])
    (h32 : 32 ≤ s.dev.rd .CEL_SIZE) (hsize : s.dev.rd .CEL_SIZE < 2 ^ 32)
    (hroom : s.dev.cellar.written + 32 < s.dev.cellar.readTo + s.dev.rd .CEL_SIZE) {a0 : Nat}
    (ha0 : s.dev.pat.mem.cellar.base + s.dev.cellar.written % s.dev.rd .CEL_SIZE = a0) :
    (cellarDrain s).dev.cellar.staging = [] ∧
      (cellarDrain s).dev.rd .CEL_HEAD = (s.dev.cellar.written + 32) % s.dev.rd .CEL_SIZE ∧
      ∀ a, (cellarDrain s).mems.dram.byte a = if a0 ≤ a ∧ a < a0 + 32 then (celBytes r).getD (a - a0) 0 else s.mems.dram.byte a := by
  obtain ⟨hcellar, hhead, hdram⟩ := celStore_room (r := r) (s := s.onDev emptyStaging) h32 hsize hroom
  have hdrain : cellarDrain s = celStore r (s.onDev emptyStaging) := by
    rw [cellarDrain, h]
    refine congrArg (Part.mk _) (lossRecords_none ?_)
    show ∀ i, i < 9 → (celStore r (s.onDev emptyStaging)).dev.cellar.discarded.get i = 0
    rw [hcellar]
    exact hd
  subst ha0
  rw [hdrain, hcellar, hdram]
  refine ⟨rfl, hhead, fun a => ?_⟩
  rw [← celBytes_length r]
  exact Mem.byte_writeBytes _ a (celBytes r) (Mems.dram_wf hwf)
end

/-! ### What O57 asks of the free values -/

theorem fitU_lt (w : Nat) (x : Int) : fitU w x < 2 ^ w := by
  unfold fitU
  split
  · next h =>
    obtain ⟨h0, hw⟩ := h
    rw [← Int.ofNat_lt, Int.toNat_of_nonneg h0]
    exact_mod_cast hw
  · exact BitVec.isLt _

theorem senderOf_lt {width j : Nat} (h : senderOf width = some j) : j < 16 := List.mem_range.mp (List.mem_of_find?_eq_some h)

theorem senderOf_own {j : Nat} (h : j < 16) : senderOf (200 + 40 * j) = some j := by
  have hall : ∀ i : Fin 16, senderOf (200 + 40 * i.val) = some i.val := by decide
  exact hall ⟨j, h⟩

/-- A value that fits its field is kept; what is asked of one that does not is asked of the free value. -/
theorem fitU_eq_unsigned_iff (w : Nat) (x : Int) :
    fitU w x = unsigned w x ↔ (¬(0 ≤ x ∧ x < 2 ^ w) → (Config.beyond w x).toNat = unsigned w x) := by
  by_cases h : 0 ≤ x ∧ x < 2 ^ w
  · have hmod : x % (2 ^ w : Nat) = x := Int.emod_eq_of_lt h.1 (by exact_mod_cast h.2)
    rw [fitU, if_pos h, unsigned, hmod]
    exact ⟨fun _ hn => absurd h hn, fun _ => rfl⟩
  · rw [fitU, if_neg h]
    exact ⟨fun he _ => he, fun he => he h⟩

/-- The free value of every delay that an echo can give and DELAY cannot hold is the delay's low 16 bits. -/
def FreeDelaysWrap : Prop := ∀ rt j : Nat, rt < 400000 → j < 16 → ¬(0 ≤ echoDelay rt j ∧ echoDelay rt j < 2 ^ 16) →
  (Config.beyond 16 (echoDelay rt j)).toNat = unsigned 16 (echoDelay rt j)

/-- A round trip inside a window is less than 400 us. -/
theorem roundTrip_lt {t t0 : Nat} (h0 : t0 ≤ t) (h1 : t < t0 + calWin) :
    ∃ rt : Nat, ((t : Int) - t0) / nsUnit = rt ∧ rt < 400000 := by
  rw [calWin, nsUnit] at h1
  refine ⟨(t - t0) / nsUnit, ?_, ?_⟩
  · rw [Int.natCast_div, Int.ofNat_sub h0]
  · rw [nsUnit]
    omega

theorem capture_of_freeDelaysWrap (hwrap : FreeDelaysWrap) : Obligations.Capture := by
  intro w c k l width t t0 j o os r s d0 live ready ofs v flt own size at_ base same
  have hlive : live ↔ d0.capturing = true := d0.capturing_iff.symm
  rw [hlive]
  refine ⟨fun h => ?_, fun h hr => ?_, fun h hr => ?_, fun h => ?_, fun h => ?_, fun h => ?_, fun h => ?_, ?_, ?_, fun h => ?_,
    fun hon hl => ?_, fun h => ?_, fun h => ?_, ?_, fun hcal => ⟨fun hs => ?_, fun hs hj hi hl h0 h1 => ?_, fun hs hi hlead => ?_,
      fun hs hi hj hv => ?_, ?_, fun hbase hstage hreq => ?_, fun h => ?_, fun ho hl hfree hdue => ?_, fun h => ?_, fun h => ?_⟩,
    fun hd => ⟨fun h => ?_, fun hwf h h32 hsize hroom => ?_⟩⟩
  · exact RunsDev.of_doDev (f := capArm) rfl (if_pos h)
  · exact RunsDev.of_doDev (f := capArm) rfl (capArm_ready h hr)
  · exact RunsDev.of_doDev (f := capArm) rfl (capArm_refused h hr)
  · exact RunsDev.of_doDev (f := capStopWrite) rfl (if_pos h)
  · exact RunsDev.of_doDev (f := capStopWrite) rfl (if_neg h)
  · exact RunsDev.of_doDev (f := postExpiry) rfl (if_pos h)
  · exact RunsDev.of_doDev (f := postExpiry) rfl (if_neg h)
  · exact RunsDev.of_doDev (f := capRdWrite w.toNat) rfl ⟨capRdWrite_rd w, rfl, rfl⟩
  · exact RunsDev.of_doDev (f := celRdWrite w.toNat) rfl ⟨celRdWrite_rd w, rfl, rfl⟩
  · exact RunsDev.of_doPart (f := fastSample c k) rfl (fastSample_off rfl h) rfl
  · obtain ⟨s1, hsample⟩ := fastSample_on rfl c.isLt hon hl
    refine Runs.of_doPart (f := fastSample c k) rfl ?_
    rw [hsample]
    exact ⟨takeSample_last .., takeSample_prev ..⟩
  · exact RunsDev.of_doDev (f := trgLineFault l) rfl (trgLineFault_new l h)
  · exact RunsDev.of_doDev (f := trgLineFault l) rfl (if_pos h)
  · exact RunsDev.of_doDev (f := trgLineIdle l) rfl (Dev.rd_wr_same _ _ _ _)
  · exact RunsDev.of_doPart (f := trgPulse l width t) rfl (trgPulse_none hcal hs) (unknownPulse_counts ..)
  · refine RunsDev.of_doPart (f := trgPulse l width t) rfl (trgPulse_echo hcal hs hj hi hl h0 h1)
      ⟨showDelay_valid .., (showDelay_delay _ (fitU_lt 16 _)).trans ?_⟩
    obtain ⟨rt, hrt, hlt⟩ := roundTrip_lt h0 h1
    rw [hrt]
    exact (fitU_eq_unsigned_iff ..).mpr (hwrap rt j hlt (senderOf_lt hs))
  · exact RunsDev.of_doPart (f := trgPulse l width t) rfl ((trgPulse_cal hcal hs hi).trans (calPulse_lead hlead))
      ⟨Tab.get_set_same .., rfl⟩
  · exact RunsDev.of_doPart (f := trgPulse l width t) rfl (trgPulse_unmeasured hcal hs hi hj hv) (unknownPulse_counts ..)
  · exact RunsDev.of_doDev (f := calWrite) rfl (calWrite_eq hcal)
  · exact RunsDev.of_doDev (f := trgCalibration) rfl (trgCalibration_starts hcal hbase hstage hreq)
  · exact RunsDev.of_doDev (f := trgCalibration) rfl (trgCalibration_waits hcal h)
  · exact RunsDev.of_doDev (f := trgOutput l) rfl (trgOutput_first hcal ho hl hfree hdue)
  · exact RunsDev.of_doDev (f := trgOutput l) rfl (trgOutput_none hcal (.inl h))
  · exact RunsDev.of_doDev (f := trgOutput l) rfl (trgOutput_none hcal (.inr h))
  · exact RunsDev.of_doPart (f := cellarDrain) rfl (cellarDrain_empty hd h) rfl
  · exact Runs.of_doPart (f := cellarDrain) rfl (cellarDrain_one hd hwf h h32 hsize hroom rfl)

theorem RunsDev.post_of_doPart {i : Instr} {s : State} {f : Part → Part} {d : Dev} {post : Dev → Prop} (hi : exec i s = doPart f s)
    (hf : f s.part = { s.part with dev := d }) (h : RunsDev i s post) : post d := by
  obtain ⟨q, hq, -, hp⟩ := h
  have hnext : Host.Outcome.next { s with part := f s.part } = .next { s with part := q } := hi.symm.trans hq
  injection hnext with hpart
  have hdev : d = q.dev := (congrArg Part.dev hf).symm.trans (congrArg (fun t : State => t.part.dev) hpart)
  exact hdev ▸ hp

/-- The SEWN controller `own`, which led the window of its line 0 with a pulse. -/
def leadsWindow (own : Nat) : State :=
  { part := { dev := ((({ cap := { lead := (⟨none, []⟩ : Tab (Option (Nat × T96))).set 0 (some (own, calWin * (4 * own))) } } : Dev).wr
    .CAP_TBUS_CTL_INDEX own).wr .CAP_TBUS_CTL_PRESENT 65535).wr .SYS_STATE_STAGE 8 } }

section
variable {own : Nat} (h : own = 1 ∨ own = 2)
include h

theorem leadsWindow_ctrl : (leadsWindow own).part.dev.ctrl = own := by rcases h with rfl | rfl <;> rfl

theorem leadsWindow_calSender {rt : Nat} (hrt : rt < 400000) :
    (leadsWindow own).part.dev.calSender 0 (calWin * (4 * own) + rt * nsUnit) = some (leadsWindow own).part.dev.ctrl := by
  have hwindow : calWindow (calWin * (4 * own) + rt * nsUnit) = some (4 * own) := by
    have hperiod : (calWin * (4 * own) + rt * nsUnit) % (4 * secUnit) = calWin * (4 * own) + rt * nsUnit := by
      refine Nat.mod_eq_of_lt ?_
      rw [calWin, secUnit, nsUnit]
      omega
    have hlen : calWin * (4 * own) + rt * nsUnit < calLen := by
      rw [calWin, calLen, nsUnit]
      omega
    have hindex : (calWin * (4 * own) + rt * nsUnit) / calWin = 4 * own := by
      rw [calWin, nsUnit]
      omega
    rw [calWindow, hperiod, if_pos hlen, hindex]
  rw [Dev.calSender, hwindow]
  rcases h with rfl | rfl <;> rfl
end

/-- The echo of controller `j` after `rt` ns makes O57 speak of the delay that they give, whether or not DELAY can hold it. -/
theorem freeDelaysWrap_of_capture (hcap : Obligations.Capture) : FreeDelaysWrap := by
  intro rt j hrt hj hbeyond
  obtain ⟨own, hown, hne⟩ : ∃ own, (own = 1 ∨ own = 2) ∧ j ≠ own := by
    by_cases h1 : j = 1
    · exact ⟨2, .inr rfl, by omega⟩
    · exact ⟨1, .inl rfl, h1⟩
  have hctrl := leadsWindow_ctrl hown
  have hlead : (leadsWindow own).part.dev.cap.lead.get 0 = some ((leadsWindow own).part.dev.ctrl, calWin * (4 * own)) := by
    rw [hctrl]
    exact Tab.get_set_same ..
  have hne' : j ≠ (leadsWindow own).part.dev.ctrl := by rwa [hctrl]
  have hcal : (leadsWindow own).part.dev.cap.calAt = none := rfl
  have hsender := leadsWindow_calSender hown hrt
  have hend : calWin * (4 * own) + rt * nsUnit < calWin * (4 * own) + calWin := by
    have hwin : rt * nsUnit < calWin := Nat.mul_lt_mul_of_pos_right hrt (by decide)
    omega
  obtain ⟨-, -, -, -, -, -, -, -, -, -, -, -, -, -, hpulse, -⟩ := hcap 0 0 0 0 (200 + 40 * j) (calWin * (4 * own) + rt * nsUnit)
    (calWin * (4 * own)) j { line := 0 } [] ⟨0, 0, false, 0, 0, 0, 0, 0, []⟩ (leadsWindow own)
  obtain ⟨-, hecho, -⟩ := hpulse hcal
  obtain ⟨-, hdelay⟩ := RunsDev.post_of_doPart (f := trgPulse 0 (200 + 40 * j) (calWin * (4 * own) + rt * nsUnit)) rfl
    (trgPulse_echo hcal (senderOf_own hj) hne' hsender hlead (Nat.le_add_right ..) hend)
    (hecho (senderOf_own hj) hne' hsender hlead (Nat.le_add_right ..) hend)
  have hrt' : ((calWin * (4 * own) + rt * nsUnit : Nat) - (calWin * (4 * own) : Nat) : Int) / nsUnit = rt := by
    rw [Nat.cast_add, add_sub_cancel_left, Nat.cast_mul]
    exact Int.mul_ediv_cancel _ (by decide)
  rw [hrt'] at hdelay
  exact (fitU_eq_unsigned_iff ..).mp ((showDelay_delay _ (fitU_lt 16 _)).symm.trans hdelay) hbeyond

/-- Every clause of O57 holds but what it says of delays that DELAY cannot hold, which is a claim about free values alone. -/
theorem capture_iff_freeDelaysWrap : Obligations.Capture ↔ FreeDelaysWrap := ⟨freeDelaysWrap_of_capture, capture_of_freeDelaysWrap⟩

/-- O57 fixes free values: that of -15000 ns, which an echo of controller 1 at the instant of the pulse gives. -/
theorem beyond_of_capture (hcap : Obligations.Capture) : (Config.beyond 16 (-15000)).toNat = 50536 :=
  freeDelaysWrap_of_capture hcap 0 1 (by decide) (by decide) (by decide)

end Sys2Proof.Machine
end
